-- ==== Sys2Proof/Word.lean ====
section
/-! DEFINITION. The word types of the MHV-5124 model and the type of a sparse table. -/

namespace Sys2Proof

/-- A register, parameter or memory word: 32 bits (Notation of 00_scope.md). -/
abbrev Word := BitVec 32

/-- A byte of a frame, of the axis image or of DDR4. -/
abbrev Byte := BitVec 8

/-- A sparse table: keys strictly rising, no entry equal to what an unlisted key reads as. -/
abbrev Tbl (α : Type) := List (Nat × α)

end Sys2Proof
end

