-- ==== Sys2Proof/Syntax.lean ====
section
/-! DEFINITION. The commands and events of the block: one constructor of Instr for each row of spec/opcode_table.json, with the
operands the model gives it. Rows 0x01xx to 0x0Exx carry the target fields of their packet header and their parameter words
(R282, R306); the other rows are register accesses of the host and events of the hardware. -/

namespace Sys2Proof

/-- Where a command came from (R281): the PCIe FIFO, a frame on a management port (its source address and VLAN tag are what
the reply needs, R236), or a Hyith link (uplink and origin device number, R275). -/
inductive Path where
  | pcie
  | mgmt (port : Nat) (sa : BitVec 48) (tags : List Byte)
  | hyith (uplink origin : Nat)
  deriving DecidableEq, Repr

/-- Which of the three paths COMMAND_TAKE serves (R295). -/
inductive PathSel where
  | pcie | frames | hyith
  deriving DecidableEq, Repr

/-- The header fields of a packet that the device reads after tests 1 to 4 of R285 (R282). -/
structure CmdHdr where
  path : Path := .pcie
  txn : Bool := false
  quiet : Bool := false
  tag : BitVec 16 := 0
  scope : Nat := 0
  die : Nat := 0
  region : Nat := 0
  port : Nat := 0
  txid : Nat := 0
  devno : Nat := 0
  deriving DecidableEq, Repr

/-- A place that records faults (R327, R347, R348): a port or uplink (number as in R182), a region, a die or the package. -/
inductive FaultLoc where
  | port (p : Nat)
  | region (r : Nat)
  | die (d : Nat)
  | package
  deriving DecidableEq, Repr

/-- A reset or low-power scope (R364, R370). -/
inductive ResetKind where
  | por | pin | pkg
  | die (d : Nat)
  | region (r : Nat)
  | port (p : Nat)
  | standby
  deriving DecidableEq, Repr

/-- An mPacket of IEEE 802.3br as R163 and R167 tell them apart: verify, respond, first fragment, continuation fragment (its
fragment count), each fragment with whether it is the last one and whether it holds an invalid code group (R250), or one with an
unknown SMD. -/
inductive MPacket where
  | verify
  | respond
  | start (data : List Byte) (final symErr : Bool)
  | cont (count : Nat) (data : List Byte) (final symErr : Bool)
  | unknown
  deriving DecidableEq, Repr

/-- What one visit of the background sweep refreshes (R178, R209). -/
inductive SweepTarget where
  | flow (f : Nat)
  | queue (q : Nat)
  | service (p s : Nat)
  | portShaper (p : Nat)
  deriving DecidableEq, Repr

/-- The boundary-scan instructions of R400; every other opcode selects BYPASS. -/
inductive TapInstr where
  | bypass | idcode | samplePreload | extest | clamp | highz
  deriving DecidableEq, Repr

/-- The block's commands and events: the rows of spec/opcode_table.json, in its order. -/
inductive Instr where
  /-- ID_QUERY (R306): Command 0x0101 returns part, dies, silicon revision, firmware versions, device number and serial. -/
  | idQuery (h : CmdHdr) (w : List Word)
  /-- ECHO (R306): Command 0x0102 returns the parameter words it was given. -/
  | echo (h : CmdHdr) (w : List Word)
  /-- CLOCK_QUERY (R371): Command 0x0201 returns the clock states, the meters and the reed trim. -/
  | clockQuery (h : CmdHdr) (w : List Word)
  /-- REED_TRIM (R355): Command 0x0202 starts measuring and trimming the reed against REFCLK or against MARK blocks. -/
  | reedTrim (h : CmdHdr) (w : List Word)
  /-- CLKOUT_SET (R363): Command 0x0203 selects the CLKOUT source and divider, or rejects a selection whose output would exceed 125 MHz. -/
  | clkoutSet (h : CmdHdr) (w : List Word)
  /-- PARK_SET (R370): Command 0x0204 requests PARK or DIE-PARK of a region or die, or a return to run, subject to the refusal conditions and the gate handshake. -/
  | parkSet (h : CmdHdr) (w : List Word)
  /-- RESET_ISSUE (R364): Command 0x0205 schedules a PKG, DIE or REGION reset to begin at the first line base cycle boundary at or after the reply plus 100 us. -/
  | resetIssue (h : CmdHdr) (w : List Word)
  /-- STANDBY_ENTER (R370): Command 0x0206 puts the package into STANDBY or refuses it with an event. -/
  | standbyEnter (h : CmdHdr) (w : List Word)
  /-- PORT_QUERY (R248): Command 0x0301 returns a port's settings, link status and lane status. -/
  | portQuery (h : CmdHdr) (w : List Word)
  /-- PORT_SET (R245): Command 0x0302 changes live port fields at once and restarts the sub-channel or PCS when a restart field changes. -/
  | portSet (h : CmdHdr) (w : List Word)
  /-- PORT_SLEEP (R244): Command 0x0303 puts a port into SLEEP, or refuses with PARK_REFUSED unless the port's course is OFF. -/
  | portSleep (h : CmdHdr) (w : List Word)
  /-- PORT_WAKE (R244): Command 0x0304 takes a port out of SLEEP and resumes its sub-channel, recalibrating a lane that was powered off. -/
  | portWake (h : CmdHdr) (w : List Word)
  /-- LANE_SET (R413): Command 0x0305 sets ADAPT_EN and the transmit amplitude and cursor codes of one lane. -/
  | laneSet (h : CmdHdr) (w : List Word)
  /-- LANE_RECAL (R246): Command 0x0306 starts an adapt or a full recalibration of one lane. -/
  | laneRecal (h : CmdHdr) (w : List Word)
  /-- PORT_COUNT_READ (R237): Command 0x0307 reads named counters of a port block, and with CLEAR zeroes them in one CORE cycle. -/
  | portCountRead (h : CmdHdr) (w : List Word)
  /-- PORT_RESET (R247): Command 0x0308 applies a PORT reset, or is rejected while the port's course is not OFF. -/
  | portReset (h : CmdHdr) (w : List Word)
  /-- TIME_QUERY (R75): Command 0x0401 returns long time, time base state, source, RATE, offset, permit and per-link D and A. -/
  | timeQuery (h : CmdHdr) (w : List Word)
  /-- TIME_SOURCE_SET (R58): Command 0x0402 selects the time source and lock parameters, handles any initial time and begins a lock sequence. -/
  | timeSourceSet (h : CmdHdr) (w : List Word)
  /-- TIME_STEP_PERMIT (R53): Command 0x0403 grants a step permit, or revokes the held one. -/
  | timeStepPermit (h : CmdHdr) (w : List Word)
  /-- TIME_RATE_SET (R58): Command 0x0404 sets RATE, and is accepted only in state FREE. -/
  | timeRateSet (h : CmdHdr) (w : List Word)
  /-- TIME_LINK_SET (R62): Command 0x0405 sets the asymmetry A of one Hyith link. -/
  | timeLinkSet (h : CmdHdr) (w : List Word)
  /-- TIME_PORT_SET (R60): Command 0x0406 sets a port's PHY latencies, protocol role, delay mechanism, step mode and domain. -/
  | timePortSet (h : CmdHdr) (w : List Word)
  /-- PULSE_SET (R65): Command 0x0407 configures one pulse unit and applies the late-start rules. -/
  | pulseSet (h : CmdHdr) (w : List Word)
  /-- PULSE_STOP (R68): Command 0x0408 stops one pulse unit after any pulse in progress ends. -/
  | pulseStop (h : CmdHdr) (w : List Word)
  /-- PIN_ROUTE_SET (R69): Command 0x0409 selects the source of one TP pin. -/
  | pinRouteSet (h : CmdHdr) (w : List Word)
  /-- CAPTURE_SET (R70): Command 0x040A selects the edges that one TC input captures. -/
  | captureSet (h : CmdHdr) (w : List Word)
  /-- TSRING_SET (R75): Command 0x040B enables or disables a port's transmit timestamp ring; disabling empties it and clears the pending lost count. -/
  | tsringSet (h : CmdHdr) (w : List Word)
  /-- VALVE_QUERY (R171): Command 0x0501 returns the valve state, working list, VBASE, VCT, current entry and pending instant. -/
  | valveQuery (h : CmdHdr) (w : List Word)
  /-- VALVE_SET (R151): Command 0x0502 sets the valve settings, and is accepted only while the valve is OFF. -/
  | valveSet (h : CmdHdr) (w : List Word)
  /-- VALVE_WRITE (R170): Command 0x0503 writes LEN and entries of one valve list after checks 1, 2, 5 and 6. -/
  | valveWrite (h : CmdHdr) (w : List Word)
  /-- VALVE_READ (R171): Command 0x0504 returns entries of one valve list. -/
  | valveRead (h : CmdHdr) (w : List Word)
  /-- VALVE_START (R153): Command 0x0505 commits a valve start at the earliest T_b + k x VCT that lies at least 4,000 ns after commit. -/
  | valveStart (h : CmdHdr) (w : List Word)
  /-- VALVE_SWAP (R153): Command 0x0506 commits a swap to the spare valve list at the computed instant. -/
  | valveSwap (h : CmdHdr) (w : List Word)
  /-- VALVE_STOP (R155): Command 0x0507 commits a valve stop at the first V_k at least 4,000 ns after commit. -/
  | valveStop (h : CmdHdr) (w : List Word)
  /-- PREEMPT_SET (R162): Command 0x0508 sets a port's preemption settings. -/
  | preemptSet (h : CmdHdr) (w : List Word)
  /-- PREEMPT_QUERY (R171): Command 0x0509 returns the preemption active flag, verify status, HOLD_ADV and preemption counters. -/
  | preemptQuery (h : CmdHdr) (w : List Word)
  /-- COURSE_QUERY (R111): Command 0x0601 returns the course state, bank, SEQ, swap k and the AGE of named entries. -/
  | courseQuery (h : CmdHdr) (w : List Word)
  /-- COURSE_SET (R111): Command 0x0602 sets CT, COURSE_ID, STALE_LIMIT, plane role and partner, and is accepted only in OFF. -/
  | courseSet (h : CmdHdr) (w : List Word)
  /-- BOND_WRITE (R96): Command 0x0603 writes bond entries of bank A, B or S, subject to check 13 and the bank S check. -/
  | bondWrite (h : CmdHdr) (w : List Word)
  /-- FRAME_SET (R93): Command 0x0604 writes frame descriptors of one bank. -/
  | frameSet (h : CmdHdr) (w : List Word)
  /-- SAFE_IMAGE_WRITE (R94): Command 0x0605 writes bytes of a port's safe image. -/
  | safeImageWrite (h : CmdHdr) (w : List Word)
  /-- COURSE_START (R106): Command 0x0606 moves a course from OFF to ARMED, with a start boundary computed from T_b. -/
  | courseStart (h : CmdHdr) (w : List Word)
  /-- COURSE_SWAP (R106): Command 0x0607 commits a flip of the working bank of named ports at a computed boundary. -/
  | courseSwap (h : CmdHdr) (w : List Word)
  /-- COURSE_SAFE (R110): Command 0x0608 makes a safe request for a course. -/
  | courseSafe (h : CmdHdr) (w : List Word)
  /-- COURSE_RESUME (R108): Command 0x0609 commits a return from SAFE to RUN at a computed boundary. -/
  | courseResume (h : CmdHdr) (w : List Word)
  /-- COURSE_STOP (R108): Command 0x060A takes a course from SAFE to OFF at the next boundary at least 4,000 ns after now, or cancels a pending start. -/
  | courseStop (h : CmdHdr) (w : List Word)
  /-- COURSE_LINE_SET (R79): Command 0x060B sets BASE_CT and ANCHOR while every course and every axis is OFF. -/
  | courseLineSet (h : CmdHdr) (w : List Word)
  /-- AXIS_QUERY (R145): Command 0x0701 returns the axis status fields. -/
  | axisQuery (h : CmdHdr) (w : List Word)
  /-- AXIS_SET (R125): Command 0x0702 sets an axis's mode, CT_a, ring, recipe and quick-stop profile, and is accepted only in OFF. -/
  | axisSet (h : CmdHdr) (w : List Word)
  /-- REFLEX_SET (R136): Command 0x0703 writes reflex rules of one axis. -/
  | reflexSet (h : CmdHdr) (w : List Word)
  /-- REFLEX_ARM (R139): Command 0x0704 re-arms named latched reflex rules. -/
  | reflexArm (h : CmdHdr) (w : List Word)
  /-- AXIS_START (R144): Command 0x0705 starts an axis in trajectory mode to ARMED, or in direct mode to DIRECT at its start boundary. -/
  | axisStart (h : CmdHdr) (w : List Word)
  /-- AXIS_QSTOP (R134): Command 0x0706 makes a quick-stop request for an axis. -/
  | axisQstop (h : CmdHdr) (w : List Word)
  /-- AXIS_OFF (R114): Command 0x0707 takes an axis to OFF at its boundary, or cancels a pending start. -/
  | axisOff (h : CmdHdr) (w : List Word)
  /-- SEG_WRITE (R127): Command 0x0708 writes up to 16 segments into a ring and can advance PUT. -/
  | segWrite (h : CmdHdr) (w : List Word)
  /-- DIGEST_QUERY (R141): Command 0x0709 returns the latest published digest of a region and its cycle number. -/
  | digestQuery (h : CmdHdr) (w : List Word)
  /-- FLOW_QUERY (R203): Command 0x0801 returns contexts by flow ID, or the MATCH of a given key. -/
  | flowQuery (h : CmdHdr) (w : List Word)
  /-- FLOW_ADD (R175): Command 0x0802 adds 1 to 16 flow contexts and places them in buckets. -/
  | flowAdd (h : CmdHdr) (w : List Word)
  /-- FLOW_WRITE (R189): Command 0x0803 changes fields of existing contexts and resets policer state by the FILL flag. -/
  | flowWrite (h : CmdHdr) (w : List Word)
  /-- FLOW_DELETE (R176): Command 0x0804 frees contexts that no pointer or port default names. -/
  | flowDelete (h : CmdHdr) (w : List Word)
  /-- FLOW_PORT_SET (R181): Command 0x0805 sets a port's identification profiles, default STREAM and DEF_EN. -/
  | flowPortSet (h : CmdHdr) (w : List Word)
  /-- FLOW_LATENT_SET (R199): Command 0x0806 sets one latent profile of a die. -/
  | flowLatentSet (h : CmdHdr) (w : List Word)
  /-- FLOW_RECOV_RESET (R198): Command 0x0807 resets named RECOVERY contexts at a stated time. -/
  | flowRecovReset (h : CmdHdr) (w : List Word)
  /-- FLOW_COUNT_READ (R203): Command 0x0808 reads COUNT and RCOUNT contexts, and can clear them in the same instant. -/
  | flowCountRead (h : CmdHdr) (w : List Word)
  /-- FLOW_TABLE_QUERY (R203): Command 0x0809 returns the free contexts of a die and the bucket occupancy of a key. -/
  | flowTableQuery (h : CmdHdr) (w : List Word)
  /-- QUEUE_QUERY (R225): Command 0x0901 returns the contexts of 1 to 16 queues. -/
  | queueQuery (h : CmdHdr) (w : List Word)
  /-- QUEUE_WRITE (R210): Command 0x0902 writes queue configuration and resets the shaper state by the FILL flag. -/
  | queueWrite (h : CmdHdr) (w : List Word)
  /-- QUEUE_FLUSH (R207): Command 0x0903 discards the frames held by 1 to 16 queues. -/
  | queueFlush (h : CmdHdr) (w : List Word)
  /-- SERVICE_SET (R213): Command 0x0904 sets one service's mode, weight, shaper, meter and limits. -/
  | serviceSet (h : CmdHdr) (w : List Word)
  /-- PORT_SHAPE_SET (R210): Command 0x0905 sets a port shaper and resets its state by the FILL flag. -/
  | portShapeSet (h : CmdHdr) (w : List Word)
  /-- BUFFER_SET (R218): Command 0x0906 sets the die buffer reserve and the spill settings. -/
  | bufferSet (h : CmdHdr) (w : List Word)
  /-- INGRESS_SET (R221): Command 0x0907 sets a port's ingress accounting mode, watermarks and pause time. -/
  | ingressSet (h : CmdHdr) (w : List Word)
  /-- BUFFER_QUERY (R225): Command 0x0908 returns pool, spill and service occupancy of a die or port. -/
  | bufferQuery (h : CmdHdr) (w : List Word)
  /-- TWIN_QUERY (R278): Command 0x0A01 returns twin role, side, MIRROR_OK, UNVERIFIED, path states and counters. -/
  | twinQuery (h : CmdHdr) (w : List Word)
  /-- TWIN_SET (R251): Command 0x0A02 sets side, K, partner device number and partner MAC addresses, and is accepted only in role OFF. -/
  | twinSet (h : CmdHdr) (w : List Word)
  /-- TWIN_LEAD (R255): Command 0x0A03 requests entry to CLAIMING, which hardware allows only when the partner's claim is dead. -/
  | twinLead (h : CmdHdr) (w : List Word)
  /-- TWIN_FOLLOW (R253): Command 0x0A04 moves the package from twin role OFF to FOLLOWER. -/
  | twinFollow (h : CmdHdr) (w : List Word)
  /-- TWIN_HANDOVER (R269): Command 0x0A05 schedules a planned handover of leadership at a computed boundary. -/
  | twinHandover (h : CmdHdr) (w : List Word)
  /-- TWIN_SYNC (R270): Command 0x0A06 starts streaming AXSYNC records of every axis that is not OFF to the FOLLOWER. -/
  | twinSync (h : CmdHdr) (w : List Word)
  /-- TWIN_OFF (R253): Command 0x0A07 sets twin role OFF unless a twin course is not OFF. -/
  | twinOff (h : CmdHdr) (w : List Word)
  /-- FAULT_QUERY (R346): Command 0x0B01 returns the status, levels, sticky bits, suppressed count and source settings of a target. -/
  | faultQuery (h : CmdHdr) (w : List Word)
  /-- FAULT_SET (R333): Command 0x0B02 sets the threshold, window and reaction of one source. -/
  | faultSet (h : CmdHdr) (w : List Word)
  /-- FAULT_CLEAR (R345): Command 0x0B03 clears named sticky sources and ends their episodes. -/
  | faultClear (h : CmdHdr) (w : List Word)
  /-- FAULTN_SET (R343): Command 0x0B04 sets the FAULTn minimum pulse and can release FAULTn. -/
  | faultnSet (h : CmdHdr) (w : List Word)
  /-- LSO_SET (R344): Command 0x0B05 sets LSO_DRIVE, or is rejected with REFUSED while R344 forbids it. -/
  | lsoSet (h : CmdHdr) (w : List Word)
  /-- SEC_QUERY (R387): Command 0x0C01 returns the rollback count, key slots and slot versions. -/
  | secQuery (h : CmdHdr) (w : List Word)
  /-- IMAGE_STAGE (R381): Command 0x0C02 starts copying an image from host memory into a staging slot. -/
  | imageStage (h : CmdHdr) (w : List Word)
  /-- IMAGE_VERIFY (R381): Command 0x0C03 starts checking a staged image and loading it into the inactive code bank. -/
  | imageVerify (h : CmdHdr) (w : List Word)
  /-- IMAGE_ACTIVATE (R382): Command 0x0C04 schedules the code bank flip at an activation boundary. -/
  | imageActivate (h : CmdHdr) (w : List Word)
  /-- ATTEST (R386): Command 0x0C05 returns a signed attestation report over a supplied nonce. -/
  | attest (h : CmdHdr) (w : List Word)
  /-- ROLLBACK_ADVANCE (R385): Command 0x0C06 burns rollback fuses up to a new step. -/
  | rollbackAdvance (h : CmdHdr) (w : List Word)
  /-- TRACE_SET (R394): Command 0x0D01 sets the trace mask, trace ring and Bell port, and restarts the trace stream. -/
  | traceSet (h : CmdHdr) (w : List Word)
  /-- TRACE_QUERY (R401): Command 0x0D02 returns the trace write pointer and the lost counts. -/
  | traceQuery (h : CmdHdr) (w : List Word)
  /-- ARCHIVE_SET (R398): Command 0x0D03 sets the counter archive period and area. -/
  | archiveSet (h : CmdHdr) (w : List Word)
  /-- ARCHIVE_QUERY (R401): Command 0x0D04 returns the archive write pointer, misses and last instant. -/
  | archiveQuery (h : CmdHdr) (w : List Word)
  /-- SYS_QUERY (R278): Command 0x0E01 returns device number, depth, root, backups and link roles. -/
  | sysQuery (h : CmdHdr) (w : List Word)
  /-- SYS_SET (R274): Command 0x0E02 sets device number, parent, standby link, backups and MASTER_TO. -/
  | sysSet (h : CmdHdr) (w : List Word)
  /-- SYS_ROUTE_SET (R275): Command 0x0E03 sets the device number ranges of one child link. -/
  | sysRouteSet (h : CmdHdr) (w : List Word)
  /-- SYS_ROOT_RETURN (R276): Command 0x0E04 schedules the return of the acting root and its followers to the master. -/
  | sysRootReturn (h : CmdHdr) (w : List Word)
  /-- HYITH_QUERY (R278): Command 0x0E05 returns the link role, peer, credit and counters of one uplink. -/
  | hyithQuery (h : CmdHdr) (w : List Word)
  /-- TXN_OPEN (R298): Command 0x0E10 opens a transaction and returns its TXID. -/
  | txnOpen (h : CmdHdr) (w : List Word)
  /-- TXN_COMMIT (R300): Command 0x0E11 names the commit instant C and runs the commit-time tests at acceptance. -/
  | txnCommit (h : CmdHdr) (w : List Word)
  /-- TXN_ABORT (R298): Command 0x0E12 aborts an open transaction. -/
  | txnAbort (h : CmdHdr) (w : List Word)
  /-- TXN_QUERY (R298): Command 0x0E13 returns the members, committability and scheduled C of a transaction. -/
  | txnQuery (h : CmdHdr) (w : List Word)
  /-- TXN_COMMIT_APPLY (R301): At commit instant C every member takes effect, or fails with UNIT_STOPPED. -/
  | txnCommitApply (txid : Nat)
  /-- TXN_ROLLBACK (R301): At R_b the members of a transaction with a failed unit are rolled back, and the commit reply is sent. -/
  | txnRollback (txid : Nat)
  /-- TXN_EXPIRED (R298): An open transaction not committed within its timeout is aborted. -/
  | txnExpired (txid : Nat)
  /-- CMD_FIFO_WRITE (R290): A mode 0 write TLP to the command window appends words, or rewinds the packet in filling. -/
  | cmdFifoWrite (ofs : Nat) (data : List Word) (whole poisoned : Bool)
  /-- CMD_FIFO_WRITE_MODE1 (R291): A mode 1 write to the command or end window stores bytes and marks packet ends. -/
  | cmdFifoWriteMode1 (ofs : Nat) (data : List (Option Byte)) (poisoned : Bool)
  /-- CMD_ABORT (R292): A CMD_ABORT write rewinds every packet in filling. -/
  | cmdAbort
  /-- FIFO_MODE_WRITE (R292): A write to MODE changes the FIFO mode and rewinds packets in filling. -/
  | fifoModeWrite (mode : Bool)
  /-- RPL_RD_WRITE (R293): Software moves RPL_RD, or the write is ignored and raises RPL_BAD_RD. -/
  | rplRdWrite (v : BitVec 16)
  /-- EVT_RD_WRITE (R294): Software moves EVT_RD, freeing event ring space. -/
  | evtRdWrite (v : BitVec 14)
  /-- COMMAND_TAKE (R295): The control cores take the next command of a path and run the header tests. -/
  | commandTake (sel : PathSel) (parityBad : Bool)
  /-- HYITH_COMMAND_SEND (R273): A command frame waiting for credit is sent on a Hyith link once credit allows. -/
  | hyithCommandSend (u : Nat)
  /-- CREDIT_RECEIVE (R273): A CREDIT block updates LIMIT for command frames on a Hyith link. -/
  | creditReceive (u : Nat) (blk : List Byte)
  /-- REGISTER_WRITE (R426): A write to a register with no behaviour of its own sets RW fields, clears W1C bits or is discarded. -/
  | registerWrite (addr : Nat) (v : Word) (be : BitVec 4)
  /-- NOW_NS_READ (R76): A read of NOW_NS latches the whole long time. -/
  | nowNsRead
  /-- CAP_NS_READ (R77): A read of CAP_NS removes the oldest capture entry and latches it. -/
  | capNsRead (c : Nat)
  /-- DIGEST_LO_READ (R146): A read of DIGEST_LO latches DIGEST_HI and DIGEST_CYCLE. -/
  | digestLoRead (r : Nat)
  /-- COUNTER_LO_READ (R238): A read of a 64-bit counter's LO word latches its HI word. -/
  | counterLoRead (addr : Nat)
  /-- RC_READ (R7): A read of an RC field returns it and clears it. -/
  | rcRead (addr : Nat)
  /-- TS_TAIL_WRITE (R74): Software advances TS_TAIL, freeing timestamp ring space. -/
  | tsTailWrite (p : Nat) (v : BitVec 7)
  /-- SEG_PUT_DB (R127): A doorbell write advances an axis's PUT, or is ignored and raises PUT_BAD. -/
  | segPutDb (r : Nat) (v : Word)
  /-- STAGING_WRITE (R87): A BAR4 staging write updates a direct-setpoint entry, or is discarded and counted. ofs is the BAR4 offset, whole
  that every byte enable is set. -/
  | stagingWrite (ofs : Nat) (data : List Word) (whole : Bool)
  /-- FAULT_STICKY_W1C (R345): A W1C write clears sticky fault sources, ends their episodes and retests their causes. -/
  | faultStickyW1c (loc : FaultLoc) (v : Word)
  /-- FAULTN_RELEASE (R343): A RELEASE write releases FAULTn when the pulse has elapsed and no asserting case holds. -/
  | faultnRelease
  /-- LSO_DRIVE_WRITE (R344): A write of LSO_DRIVE drives LSO outputs, or is ignored and sets LSO_REFUSED. -/
  | lsoDriveWrite (v : BitVec 8)
  /-- CLKOUT_WRITE (R363): A CLKOUT register write changes the clock output at the next falling edge, or is ignored above 125 MHz. -/
  | clkoutWrite (v : Word)
  /-- RETURN (R360): A RETURN write moves the PLL back from the reed to REFCLK, or is refused with RETURN_REFUSED. -/
  | returnWrite
  /-- WAKE (R370): A WAKE write takes the package out of STANDBY. -/
  | wakeWrite
  /-- BOOT_GO (R379): In HOST_WAIT, BOOT_GO makes the ROM read and check an image from host memory. -/
  | bootGo
  /-- MOVER_SET_WRITE (R311): A write to a channel register set goes to the active or shadow set, or is discarded with SHADOW_FULL. -/
  | moverSetWrite (m ofs : Nat) (v : Word)
  /-- GO (R311): A CTRL write with GO starts the active transfer in IDLE or arms the shadow otherwise. -/
  | moverGo (m : Nat) (ctrl : Word)
  /-- ABORT (R319): CMD.ABORT in RUN stops new bursts and moves the channel to ABORTING. -/
  | moverAbort (m : Nat)
  /-- CLEAR (R320): CMD.CLEAR moves a HALTED channel to IDLE and discards its shadow. -/
  | moverClear (m : Nat)
  /-- RING_CFG_WRITE (R324): A write to CR_BASE or ring word 0x08 sets up a completion ring, or is ignored with RING_CFG_IGNORED. -/
  | ringCfgWrite (d r ofs : Nat) (v : Word)
  /-- CR_RD_WRITE (R324): Software advances CR_RD, freeing completion ring space. -/
  | crRdWrite (d r : Nat) (v : BitVec 17)
  /-- MOVER_BURST_ISSUE (R317): The read engine issues a burst or list fetch for a channel once buffer room and rate credit allow. -/
  | moverBurstIssue (d : Nat)
  /-- MOVER_BURST_COMPLETE (R320): A burst completes and its data are written, or it fails and is retried or ends the transfer. -/
  | moverBurstComplete (m : Nat) (ok : Bool) (data : List Byte)
  /-- MOVER_LIST_FETCH (R316): A scatter-gather entry fetch completes and the entry is checked. -/
  | moverListFetch (m : Nat) (dst ok : Bool) (entry : List Word)
  /-- MOVER_RECORD_WRITE (R318): An ended transfer's completion record is written once the ring has space. -/
  | moverRecordWrite (m : Nat)
  /-- MOVER_HANDOVER (R312): In the cycle after a transfer ends, the shadow set is copied and started, or the channel goes IDLE or HALTED. -/
  | moverHandover (m : Nat)
  /-- TIME_WORD_SEND (R61): At each 1,024 ns slot a Hyith link sends its TIME word and ECHO, and EPOCH, ROOT and CREDIT blocks where due. -/
  | timeWordSend (u : Nat)
  /-- TIME_WORD_RECEIVE (R62): A TIME word arrives and is timestamped toward an offset sample. -/
  | timeWordReceive (u : Nat) (blk : List Byte) (t16 : Nat)
  /-- ECHO_RECEIVE (R62): A delay echo arrives, completing an offset sample when a new time word has also arrived. -/
  | echoReceive (u : Nat) (blk : List Byte)
  /-- EPOCH_RECEIVE (R62): An EPOCH block supplies SEC to a child. -/
  | epochReceive (u : Nat) (blk : List Byte)
  /-- MARK_RECEIVE (R272): A MARK block is timestamped for reed trimming. -/
  | markReceive (u : Nat) (blk : List Byte) (reedEdges : Nat)
  /-- ROOT_RECEIVE (R274): A ROOT block sets depth and root knowledge, or raises DEVNO_CLASH or DEPTH_EXCEEDED. -/
  | rootReceive (u : Nat) (blk : List Byte)
  /-- OFFSET_SAMPLE (R52): A filtered offset sample updates the servo and the time base state. -/
  | offsetSample (ext : Int) (utc : Option (BitVec 16))
  /-- DEFERRED_STEP_APPLY (R58): In the first TIME cycle after the last course stops, a deferred initial time is loaded as a step. -/
  | deferredStepApply
  /-- HOLDOVER (R52): With no valid sample for HOLD_TO, the time base enters HOLDOVER with RATE frozen. -/
  | holdover
  /-- CAPTURE_EDGE (R70): A selected edge on a TC input records its long time in the capture FIFO, or increments LOST when the FIFO is full. -/
  | captureEdge (c : Nat) (falling : Bool) (t16 : Nat)
  /-- PULSE_EDGE (R65): A pulse unit drives its leading or trailing edge at the programmed time and raises its end event when due. -/
  | pulseEdge (u : Nat)
  /-- LINE_BASE_BOUNDARY (R80): At each line base cycle boundary the claim toggles, breath and MARK are sent, silence counts advance and fail-over is tested. -/
  | lineBaseBoundary (n : Nat)
  /-- SNAPSHOT_PUBLISH (R85): The axis image snapshot of a line base cycle is published and SNAP_CYCLE is set. -/
  | snapshotPublish (n : Nat)
  /-- DIGEST_PUBLISH (R141): A region's setpoint digest for a line base cycle is published. -/
  | digestPublish (r n : Nat)
  /-- COURSE_BOUNDARY (R80): At a port cycle boundary pending starts, swaps, resumes and stops take effect and the TAKEN bits clear. -/
  | courseBoundary (p n : Nat)
  /-- COURSE_BUILD_START (R97): At LAUNCH minus 200 ns a port fixes the bank and header of an outbound course frame. -/
  | courseBuildStart (p f n : Nat)
  /-- COURSE_LAUNCH (R98): A course frame launches with its bricks read at their read instants, or is counted in OUT_MISSED. -/
  | courseLaunch (p f n : Nat)
  /-- BRICK_RECEIVE (R103): A brick completes and is checked, merged, written to the in half, and its reflex rules are evaluated. -/
  | brickReceive (p j : Nat)
  /-- REFLEX_ACTION_APPLY (R139): At A + 1,000 ns the actions of a fired reflex rule take effect. -/
  | reflexActionApply
  /-- ARR_CLOSE (R102): At ARR_CLOSE untaken entries age, and staleness raises STALE and applies STALE_ACT. -/
  | arrClose (p f n : Nat)
  /-- AXIS_DECISION_INSTANT (R116): At B minus 2,000 ns an axis's state is fixed, the staging copy is taken and the segment lead and underrun tests run. -/
  | axisDecisionInstant (a n : Nat)
  /-- AXIS_BOUNDARY (R83): At an axis boundary the computed fields enter the out half and state transitions take effect. -/
  | axisBoundary (a n : Nat)
  /-- SEGMENT_FETCH (R128): A segment fetch completes and the segment is checked, or becomes a segment fault. -/
  | segmentFetch (a : Nat) (ok : Bool)
  /-- VALVE_ENTRY_BOUNDARY (R149): A valve list entry begins and sets gates and hold, cutting preemptible frames as needed. -/
  | valveEntryBoundary (p k i : Nat)
  /-- VALVE_SWAP_INSTANT (R153): At its instant a valve start or swap makes the new list working and raises VSWAP_DONE. -/
  | valveSwapInstant (p : Nat)
  /-- VALVE_STOP_INSTANT (R155): At its instant a valve stop sets the valve OFF. -/
  | valveStopInstant (p : Nat)
  /-- VERIFY_TIMEOUT (R163): VERIFY_TIME elapses without a respond mPacket and verify is retried or fails. -/
  | verifyTimeout (p : Nat)
  /-- MPACKET_RECEIVE (R167): A verify, respond or fragment mPacket is received and reassembled or discarded. -/
  | mpacketReceive (p t16 : Nat) (m : MPacket)
  /-- FRAME_RECEIVE (R179): An arriving frame passes the ingress steps through identification, policing, recovery, generation and admission. -/
  | frameReceive (p t16 : Nat) (bytes : List Byte) (symErr : Bool)
  /-- CUT_THROUGH_DECISION (R168): At the end of its identification fields a frame is cut through or stored. -/
  | cutThroughDecision (p t16 : Nat) (head : List Byte)
  /-- EGRESS_SELECT (R213): When the line is free a port picks the next frame or fragment to start. -/
  | egressSelect (p : Nat)
  /-- FRAME_TRANSMIT_END (R72): A transmitted frame ends and a timestamp record is written when requested. -/
  | frameTransmitEnd (p : Nat)
  /-- SPILL_READBACK (R220): A spilled frame is read back into shared cells once the shared pool has room. -/
  | spillReadback (q : Nat)
  /-- SWEEP_VISIT (R178): The background sweep refreshes a policer or shaper and applies the recovery reset timer. -/
  | sweepVisit (v : SweepTarget)
  /-- SWEEP_PASS_END (R199): At the end of a sweep pass latent error tests and latent resets fall due. -/
  | sweepPassEnd (d : Nat)
  /-- PAUSE_RECEIVE (R240): A received PAUSE frame sets the pause timer of the affected classes. -/
  | pauseReceive (p : Nat)
  /-- PFC_RECEIVE (R241): A received PFC frame sets the timers of the enabled priorities. -/
  | pfcReceive (p : Nat)
  /-- PAUSE_TIMER_EXPIRE (R240): A pause timer expires and the class resumes. -/
  | pauseTimerExpire (p c : Nat)
  /-- PAUSE_WD (R242): A class paused without a break for PAUSE_WD resumes, and pause frames are then ignored for a time. -/
  | pauseWd (p c : Nat)
  /-- PAUSE_REFRESH (R222): Half of PAUSE_TIME elapses with an account above LO and the pause is sent again. -/
  | pauseRefresh (p c : Nat)
  /-- LINK_STATE_CHANGE (R232): A port's link goes up or down, and on down its pause timers expire. -/
  | linkStateChange (p : Nat) (up remote : Bool)
  /-- IN_BAND_CONTROL_WORD (R429): A PHY control word sets speed, duplex and link, or holds the link down on a mismatch. -/
  | inBandControlWord (p speed : Nat) (fullDuplex link : Bool)
  /-- LANE_ALIGN_LOSS (R228): A lane loses code-group alignment and its four ports go down. -/
  | laneAlignLoss (q : Nat)
  /-- RECAL_DONE (R246): A lane recalibration ends, latencies are remeasured and RECAL_DONE or RECAL_FAIL is raised. -/
  | recalDone (lane : Nat) (ok : Bool)
  /-- RECAL_RETRY (R246): After 100 ms a failed full recalibration is retried. -/
  | recalRetry (lane : Nat)
  /-- PCS_RESTART_DONE (R245): A sub-channel or PCS restart completes and the link may come up. -/
  | pcsRestartDone (p : Nat)
  /-- DDR_ALERT (R414): A parity or CRC alert makes the DDR4 controller retry the command. -/
  | ddrAlert (d : Nat) (persists : Bool)
  /-- DDR_EVENTN (R414): DDRd_EVENTn low doubles the refresh rate. -/
  | ddrEventn (d : Nat) (low : Bool)
  /-- FAULT_SOURCE_FIRE (R331): A fault source is captured, escalates and takes its reaction. -/
  | faultSourceFire (loc : FaultLoc) (src pair : Nat) (standing : Bool)
  /-- FAULT_WINDOW_CLOSE (R333): A fault threshold window closes and its count is discarded. -/
  | faultWindowClose (loc : FaultLoc) (src : Nat)
  /-- QUARANTINE_SQUELCH (R337): A quarantined port is squelched after 16 cycles of bank S frames, and a reaction 5 PORT reset follows. -/
  | quarantineSquelch (p : Nat)
  /-- REACTION_REGION_RESET (R341): Reaction 6 issues a REGION reset after 16 cycles of bank S frames. -/
  | reactionRegionReset (r : Nat)
  /-- FAULTN_PULSE_END (R343): The FAULTn minimum pulse ends, and FAULTn is held or a pending release takes effect. -/
  | faultnPulseEnd
  /-- RESET_MASK_END (R342): A detector mask ends 16 SLOW cycles after reset release, and standing conditions fire. -/
  | resetMaskEnd (k : ResetKind)
  /-- CLOCK_TRIP (R360): A clock monitor trip stops domains, takes clock-loss safe and moves the clock state machine. -/
  | clockTrip (clk : Nat)
  /-- OSC_WAIT_END (R359): The OSC_WAIT window ends and the clock machine moves to LOCK or CLOCK_WAIT. -/
  | oscWaitEnd
  /-- PLL_LOCK (R359): The root PLL locks and the divider ramp begins. -/
  | pllLock
  /-- PLL_LOCK_TIMEOUT (R359): No lock within 200 us tries the other reference or enters CLOCK_WAIT. -/
  | pllLockTimeout
  /-- RAMP_STEP (R353): Every 2 us the divider halves until the ramp completes and RUN is entered. -/
  | rampStep
  /-- REED_QUAL (R356): The reed qualifies or loses qualification. -/
  | reedQual (q : Bool)
  /-- REFCLK_QUALIFIED (R359): REFCLK qualifies against the reed and SLOW moves to it. -/
  | refclkQualified
  /-- METER_GATE_END (R362): A frequency meter gate ends, the count updates and the digital monitor is evaluated. -/
  | meterGateEnd (counts : List Nat)
  /-- REED_TRIM_ROUND (R355): A reed trim measurement round ends and the trim completes, repeats or fails. -/
  | reedTrimRound (edges : Nat)
  /-- POR (R364): A supply below threshold holds POR, and release restarts clocks and boot. -/
  | por (oscDly : BitVec 3) (bootSrc : BitVec 2)
  /-- PIN_RESET (R364): RSTn low for at least 1 us applies a PIN reset. -/
  | pinReset (low : Bool) (oscDly : BitVec 3) (bootSrc : BitVec 2)
  /-- PERSTN (R406): PERSTn low resets only the PCIe endpoint and rewinds a BAR2 packet in filling. -/
  | perstn (low : Bool)
  /-- RESET_BEGIN (R365): An issued reset begins at its boundary and proceeds through masking, stopping and clearing. -/
  | resetBegin (k : ResetKind)
  /-- RESET_RELEASE (R365): A reset's hold time ends and its scope is released and ramps. -/
  | resetRelease (k : ResetKind)
  /-- CONTROL_HANDOVER (R28): At a line base cycle boundary command execution passes to the other control-core pair. -/
  | controlHandover
  /-- LOCKSTEP_REJOIN (R28): The die 0 pair rejoins lockstep and control returns at the next boundary. -/
  | lockstepRejoin
  /-- CORE_MEMORY_ERROR (R388): An uncorrectable error in die 0 control-core memory causes a takeover by the die 1 pair. -/
  | coreMemoryError
  /-- LOCKSTEP_MISMATCH (R388): A lockstep mismatch takes the die 1 pair out of lockstep without a takeover. -/
  | lockstepMismatch
  /-- GATE_HANDSHAKE_DONE (R368): Every idle handshake arrives and the gate closes for PARK or DIE-PARK. -/
  | gateHandshakeDone
  /-- GATE_HANDSHAKE_TIMEOUT (R368): A handshake missing at 64 CTRL cycles refuses the gate. -/
  | gateHandshakeTimeout
  /-- UNPARK_DONE (R370): A region, die or package finishes leaving its low-power state and WAKE_DONE is raised. -/
  | unparkDone (k : ResetKind)
  /-- BOOT_START (R377): The boot ROM starts when clocks first enter RUN after a package reset and selects its source. -/
  | bootStart
  /-- IMAGE_LOAD_DONE (R378): A boot image has been loaded and checked, and the firmware starts or the ROM enters HOST_WAIT. slot0 and
  slot1 are what the two flash slots hold, or slot0 what host memory holds from BOOT_ADDR on; none where it reads with an error. -/
  | imageLoadDone (slot0 slot1 : Option (List Byte))
  /-- FIRMWARE_RUNNING (R380): The running firmware trains DDR4 and copies its image to the active staging slot. -/
  | firmwareRunning
  /-- STAGE_DONE (R381): IMAGE_STAGE ends and the slot is STAGED. bytes is what host memory holds; none where it reads with an error. -/
  | stageDone (bytes : Option (List Byte))
  /-- VERIFY_DONE (R381): IMAGE_VERIFY ends and the slot is VERIFIED or FAILED. -/
  | verifyDone
  /-- ACTIVATION_FLIP (R382): At the activation boundary the control cores flip their code bank. -/
  | activationFlip
  /-- ACTIVATION_RESUME (R382): The new image resumes command service, replies to IMAGE_ACTIVATE and sets TRIAL. -/
  | activationResume
  /-- FIRMWARE_READY (R384): The new image declares itself ready, TRIAL clears and revocation bits are burned. -/
  | firmwareReady
  /-- FALLBACK (R384): A new image not ready by B + 500 ms is flipped back at the next boundary. -/
  | fallback
  /-- LEAD_IN_EDGE (R254): An edge on LEAD_INn makes the partner's claim live and may refuse or yield a claim. -/
  | leadInEdge (t : Nat)
  /-- CLAIM_DEAD (R254): 3 x BASE_CT without an edge on LEAD_INn makes the partner's claim dead. -/
  | claimDead
  /-- BREATH_IN_EDGE (R257): A rising edge of BREATH_IN marks the cycle not silent on the pin path. -/
  | breathInEdge (t : Nat)
  /-- BREATH_WORD_RECEIVE (R257): A breath word marks the cycle not silent on the link path and carries the partner's state. -/
  | breathWordReceive (u : Nat) (blk : List Byte) (t : Nat)
  /-- LONE (R259): With no breath word by B_m + 2,000 ns the FOLLOWER goes lone. -/
  | lone (m : Nat)
  /-- TWIN_FRAME_RECEIVE (R268): A twin frame on a twin-link lane goes to the twin engine, or is discarded and counted in REC_BAD. -/
  | twinFrameReceive (u t16 : Nat) (bytes : List Byte)
  /-- TWIN_FRAME_SEND (R261): A twin frame is closed and sent after records wait at most 100 ns. -/
  | twinFrameSend (u : Nat)
  /-- BRICK_RECORD_RECEIVE (R260): A BRICK record is merged by the LEADER, or written and acted on by the FOLLOWER. -/
  | brickRecordReceive
  /-- DIRECT_RECORD_RECEIVE (R266): A DIRECT record becomes the FOLLOWER's staging copy for a direct-mode axis. -/
  | directRecordReceive
  /-- COMMAND_RECORD_RECEIVE (R264): A forwarded command is prepared on the FOLLOWER for commit at T_c. -/
  | commandRecordReceive
  /-- AXSYNC_RECORD_RECEIVE (R270): An AXSYNC record loads an axis state on the FOLLOWER. -/
  | axsyncRecordReceive
  /-- DIGEST_BLOCK_RECEIVE (R262): A received digest is compared with the FOLLOWER's own, and MIRROR_OK and MISMATCH are updated. -/
  | digestBlockReceive (u : Nat) (blk : List Byte)
  /-- DIGEST_DEADLINE (R262): At B_n + 6,000 ns a missing digest makes the cycle unverified. -/
  | digestDeadline (n : Nat)
  /-- FOLLOWER_ARR_CLOSE (R260): At ARR_CLOSE + 1,000 ns the FOLLOWER evaluates its in-entries. -/
  | followerArrClose (p f n : Nat)
  /-- HANDOVER_RECEIVE (R269): A HANDOVER block tells the partner the handover boundary. -/
  | handoverReceive (u : Nat) (blk : List Byte)
  /-- HANDOVER_BOUNDARY (R269): At B_h merge authority passes, the old LEADER follows and the partner begins its claim test. -/
  | handoverBoundary
  /-- MASTER_TIMEOUT (R276): MASTER_TO without valid time words or a lower-position root makes a backup the acting root. -/
  | masterTimeout
  /-- TRACE_RECORD_WRITE (R394): A trace record from a die queue is written to the trace ring. -/
  | traceRecordWrite (d : Nat)
  /-- TRACE_GAP (R393): Once the die queue has space, a GAP record carrying the pending lost count is enqueued. -/
  | traceGap (d : Nat)
  /-- BELL_RECORD_SEND (R396): A trace record is sent on the Bell port. -/
  | bellRecordSend
  /-- BELL_GAP (R397): Once the Bell queue has space, a Bell GAP record is sent. -/
  | bellGap
  /-- ARCHIVE_LATCH (R398): At an archive instant every archived counter is latched and a record write begins, or the latch is skipped. -/
  | archiveLatch
  /-- ARCHIVE_RECORD_DONE (R398): An archive record is whole and ARCH_WR advances. -/
  | archiveRecordDone
  /-- TAP_INSTRUCTION (R400): A boundary-scan instruction is loaded while TEST_EN is high and RSTn is low. testEn is the level at the
  TEST_EN ball. -/
  | tapInstruction (testEn : Bool) (i : TapInstr)
  /-- COURSE_HOLD_START (R165): At L - 8b - W(n) before each outbound course frame, while preemption is active, the course hold comes into force: HOLD_CNT counts and a preemptible frame in transmission is cut by R166. -/
  | courseHoldStart (p f n : Nat)
  /-- FORWARDED_COMMAND_COMMIT (R264): On twins, a forwarded command of configuration class commits on both twins at T_c, its acceptance at the LEADER plus 2,000 ns, or at the time it states. -/
  | forwardedCommandCommit
  /-- COMPLETER_ABORT_READ (R369): A BAR0, BAR2 or BAR4 read that breaks the access rules, reaches a gated, parked or reset scope, or finds CTRL stopped completes with Completer Abort and increments ACCESS_BAD_CNT or ACCESS_ERR_CNT, raising ACCESS_ERR where R369 applies. -/
  | completerAbortRead (bar addr dwords : Nat)
  /-- FUNCTION_LEVEL_RESET (R364): A PCIe function level reset of PF0 or PF1 resets only that function's configuration state and MSI-X table. -/
  | functionLevelReset (pf1 : Bool)
  /-- RAIL_RESTORED (R329): After a RAIL firing, a dual-rail pair whose rails have differed for 16 consecutive samples is watched again by its collector. -/
  | railRestored (loc : FaultLoc) (pair : Nat)
  deriving DecidableEq, Repr

end Sys2Proof
end

