-- ==== Sys2Proof/Decode.lean ====
section
/-! DEFINITION. The decoder the host asks about: the opcode table gives no row any bits, so no word spells a command. Beside it, the
commands that the opcodes of R306 name: a packet's words are read by Machine/Packet.lean, as R282 to R285 say. -/

namespace Sys2Proof

/-- The command a word spells by the table's bits: none, since the table gives no row bits. -/
def decodeTableWord (_nbits _w : Nat) : Option Instr := none

/-- Commands 0x01xx. -/
def commandRows01 : List (Nat × (CmdHdr → List Word → Instr)) :=
  [(0x0101, .idQuery),
   (0x0102, .echo)]

/-- Commands 0x02xx. -/
def commandRows02 : List (Nat × (CmdHdr → List Word → Instr)) :=
  [(0x0201, .clockQuery),
   (0x0202, .reedTrim),
   (0x0203, .clkoutSet),
   (0x0204, .parkSet),
   (0x0205, .resetIssue),
   (0x0206, .standbyEnter)]

/-- Commands 0x03xx. -/
def commandRows03 : List (Nat × (CmdHdr → List Word → Instr)) :=
  [(0x0301, .portQuery),
   (0x0302, .portSet),
   (0x0303, .portSleep),
   (0x0304, .portWake),
   (0x0305, .laneSet),
   (0x0306, .laneRecal),
   (0x0307, .portCountRead),
   (0x0308, .portReset)]

/-- Commands 0x04xx. -/
def commandRows04 : List (Nat × (CmdHdr → List Word → Instr)) :=
  [(0x0401, .timeQuery),
   (0x0402, .timeSourceSet),
   (0x0403, .timeStepPermit),
   (0x0404, .timeRateSet),
   (0x0405, .timeLinkSet),
   (0x0406, .timePortSet),
   (0x0407, .pulseSet),
   (0x0408, .pulseStop),
   (0x0409, .pinRouteSet),
   (0x040A, .captureSet),
   (0x040B, .tsringSet)]

/-- Commands 0x05xx. -/
def commandRows05 : List (Nat × (CmdHdr → List Word → Instr)) :=
  [(0x0501, .valveQuery),
   (0x0502, .valveSet),
   (0x0503, .valveWrite),
   (0x0504, .valveRead),
   (0x0505, .valveStart),
   (0x0506, .valveSwap),
   (0x0507, .valveStop),
   (0x0508, .preemptSet),
   (0x0509, .preemptQuery)]

/-- Commands 0x06xx. -/
def commandRows06 : List (Nat × (CmdHdr → List Word → Instr)) :=
  [(0x0601, .courseQuery),
   (0x0602, .courseSet),
   (0x0603, .bondWrite),
   (0x0604, .frameSet),
   (0x0605, .safeImageWrite),
   (0x0606, .courseStart),
   (0x0607, .courseSwap),
   (0x0608, .courseSafe),
   (0x0609, .courseResume),
   (0x060A, .courseStop),
   (0x060B, .courseLineSet)]

/-- Commands 0x07xx. -/
def commandRows07 : List (Nat × (CmdHdr → List Word → Instr)) :=
  [(0x0701, .axisQuery),
   (0x0702, .axisSet),
   (0x0703, .reflexSet),
   (0x0704, .reflexArm),
   (0x0705, .axisStart),
   (0x0706, .axisQstop),
   (0x0707, .axisOff),
   (0x0708, .segWrite),
   (0x0709, .digestQuery)]

/-- Commands 0x08xx. -/
def commandRows08 : List (Nat × (CmdHdr → List Word → Instr)) :=
  [(0x0801, .flowQuery),
   (0x0802, .flowAdd),
   (0x0803, .flowWrite),
   (0x0804, .flowDelete),
   (0x0805, .flowPortSet),
   (0x0806, .flowLatentSet),
   (0x0807, .flowRecovReset),
   (0x0808, .flowCountRead),
   (0x0809, .flowTableQuery)]

/-- Commands 0x09xx. -/
def commandRows09 : List (Nat × (CmdHdr → List Word → Instr)) :=
  [(0x0901, .queueQuery),
   (0x0902, .queueWrite),
   (0x0903, .queueFlush),
   (0x0904, .serviceSet),
   (0x0905, .portShapeSet),
   (0x0906, .bufferSet),
   (0x0907, .ingressSet),
   (0x0908, .bufferQuery)]

/-- Commands 0x0Axx. -/
def commandRows0A : List (Nat × (CmdHdr → List Word → Instr)) :=
  [(0x0A01, .twinQuery),
   (0x0A02, .twinSet),
   (0x0A03, .twinLead),
   (0x0A04, .twinFollow),
   (0x0A05, .twinHandover),
   (0x0A06, .twinSync),
   (0x0A07, .twinOff)]

/-- Commands 0x0Bxx. -/
def commandRows0B : List (Nat × (CmdHdr → List Word → Instr)) :=
  [(0x0B01, .faultQuery),
   (0x0B02, .faultSet),
   (0x0B03, .faultClear),
   (0x0B04, .faultnSet),
   (0x0B05, .lsoSet)]

/-- Commands 0x0Cxx. -/
def commandRows0C : List (Nat × (CmdHdr → List Word → Instr)) :=
  [(0x0C01, .secQuery),
   (0x0C02, .imageStage),
   (0x0C03, .imageVerify),
   (0x0C04, .imageActivate),
   (0x0C05, .attest),
   (0x0C06, .rollbackAdvance)]

/-- Commands 0x0Dxx. -/
def commandRows0D : List (Nat × (CmdHdr → List Word → Instr)) :=
  [(0x0D01, .traceSet),
   (0x0D02, .traceQuery),
   (0x0D03, .archiveSet),
   (0x0D04, .archiveQuery)]

/-- Commands 0x0Exx. -/
def commandRows0E : List (Nat × (CmdHdr → List Word → Instr)) :=
  [(0x0E01, .sysQuery),
   (0x0E02, .sysSet),
   (0x0E03, .sysRouteSet),
   (0x0E04, .sysRootReturn),
   (0x0E05, .hyithQuery),
   (0x0E10, .txnOpen),
   (0x0E11, .txnCommit),
   (0x0E12, .txnAbort),
   (0x0E13, .txnQuery)]

/-- The command opcodes of R306 with the commands they name. -/
def commandRows : List (Nat × (CmdHdr → List Word → Instr)) :=
  commandRows01 ++ commandRows02 ++ commandRows03 ++ commandRows04 ++ commandRows05 ++ commandRows06 ++ commandRows07 ++ commandRows08 ++ commandRows09 ++ commandRows0A ++ commandRows0B ++ commandRows0C ++ commandRows0D ++ commandRows0E

/-- The command of an opcode with a header and parameter words; none where R306 defines no such command. -/
def commandOf (op : Nat) (h : CmdHdr) (w : List Word) : Option Instr := (commandRows.lookup op).map fun f => f h w

/-- The opcode, header and parameter words of a command of R306; none for every other row of the table. -/
def Instr.command : Instr → Option (Nat × CmdHdr × List Word)
  | .idQuery h w => some (0x0101, h, w)
  | .echo h w => some (0x0102, h, w)
  | .clockQuery h w => some (0x0201, h, w)
  | .reedTrim h w => some (0x0202, h, w)
  | .clkoutSet h w => some (0x0203, h, w)
  | .parkSet h w => some (0x0204, h, w)
  | .resetIssue h w => some (0x0205, h, w)
  | .standbyEnter h w => some (0x0206, h, w)
  | .portQuery h w => some (0x0301, h, w)
  | .portSet h w => some (0x0302, h, w)
  | .portSleep h w => some (0x0303, h, w)
  | .portWake h w => some (0x0304, h, w)
  | .laneSet h w => some (0x0305, h, w)
  | .laneRecal h w => some (0x0306, h, w)
  | .portCountRead h w => some (0x0307, h, w)
  | .portReset h w => some (0x0308, h, w)
  | .timeQuery h w => some (0x0401, h, w)
  | .timeSourceSet h w => some (0x0402, h, w)
  | .timeStepPermit h w => some (0x0403, h, w)
  | .timeRateSet h w => some (0x0404, h, w)
  | .timeLinkSet h w => some (0x0405, h, w)
  | .timePortSet h w => some (0x0406, h, w)
  | .pulseSet h w => some (0x0407, h, w)
  | .pulseStop h w => some (0x0408, h, w)
  | .pinRouteSet h w => some (0x0409, h, w)
  | .captureSet h w => some (0x040A, h, w)
  | .tsringSet h w => some (0x040B, h, w)
  | .valveQuery h w => some (0x0501, h, w)
  | .valveSet h w => some (0x0502, h, w)
  | .valveWrite h w => some (0x0503, h, w)
  | .valveRead h w => some (0x0504, h, w)
  | .valveStart h w => some (0x0505, h, w)
  | .valveSwap h w => some (0x0506, h, w)
  | .valveStop h w => some (0x0507, h, w)
  | .preemptSet h w => some (0x0508, h, w)
  | .preemptQuery h w => some (0x0509, h, w)
  | .courseQuery h w => some (0x0601, h, w)
  | .courseSet h w => some (0x0602, h, w)
  | .bondWrite h w => some (0x0603, h, w)
  | .frameSet h w => some (0x0604, h, w)
  | .safeImageWrite h w => some (0x0605, h, w)
  | .courseStart h w => some (0x0606, h, w)
  | .courseSwap h w => some (0x0607, h, w)
  | .courseSafe h w => some (0x0608, h, w)
  | .courseResume h w => some (0x0609, h, w)
  | .courseStop h w => some (0x060A, h, w)
  | .courseLineSet h w => some (0x060B, h, w)
  | .axisQuery h w => some (0x0701, h, w)
  | .axisSet h w => some (0x0702, h, w)
  | .reflexSet h w => some (0x0703, h, w)
  | .reflexArm h w => some (0x0704, h, w)
  | .axisStart h w => some (0x0705, h, w)
  | .axisQstop h w => some (0x0706, h, w)
  | .axisOff h w => some (0x0707, h, w)
  | .segWrite h w => some (0x0708, h, w)
  | .digestQuery h w => some (0x0709, h, w)
  | .flowQuery h w => some (0x0801, h, w)
  | .flowAdd h w => some (0x0802, h, w)
  | .flowWrite h w => some (0x0803, h, w)
  | .flowDelete h w => some (0x0804, h, w)
  | .flowPortSet h w => some (0x0805, h, w)
  | .flowLatentSet h w => some (0x0806, h, w)
  | .flowRecovReset h w => some (0x0807, h, w)
  | .flowCountRead h w => some (0x0808, h, w)
  | .flowTableQuery h w => some (0x0809, h, w)
  | .queueQuery h w => some (0x0901, h, w)
  | .queueWrite h w => some (0x0902, h, w)
  | .queueFlush h w => some (0x0903, h, w)
  | .serviceSet h w => some (0x0904, h, w)
  | .portShapeSet h w => some (0x0905, h, w)
  | .bufferSet h w => some (0x0906, h, w)
  | .ingressSet h w => some (0x0907, h, w)
  | .bufferQuery h w => some (0x0908, h, w)
  | .twinQuery h w => some (0x0A01, h, w)
  | .twinSet h w => some (0x0A02, h, w)
  | .twinLead h w => some (0x0A03, h, w)
  | .twinFollow h w => some (0x0A04, h, w)
  | .twinHandover h w => some (0x0A05, h, w)
  | .twinSync h w => some (0x0A06, h, w)
  | .twinOff h w => some (0x0A07, h, w)
  | .faultQuery h w => some (0x0B01, h, w)
  | .faultSet h w => some (0x0B02, h, w)
  | .faultClear h w => some (0x0B03, h, w)
  | .faultnSet h w => some (0x0B04, h, w)
  | .lsoSet h w => some (0x0B05, h, w)
  | .secQuery h w => some (0x0C01, h, w)
  | .imageStage h w => some (0x0C02, h, w)
  | .imageVerify h w => some (0x0C03, h, w)
  | .imageActivate h w => some (0x0C04, h, w)
  | .attest h w => some (0x0C05, h, w)
  | .rollbackAdvance h w => some (0x0C06, h, w)
  | .traceSet h w => some (0x0D01, h, w)
  | .traceQuery h w => some (0x0D02, h, w)
  | .archiveSet h w => some (0x0D03, h, w)
  | .archiveQuery h w => some (0x0D04, h, w)
  | .sysQuery h w => some (0x0E01, h, w)
  | .sysSet h w => some (0x0E02, h, w)
  | .sysRouteSet h w => some (0x0E03, h, w)
  | .sysRootReturn h w => some (0x0E04, h, w)
  | .hyithQuery h w => some (0x0E05, h, w)
  | .txnOpen h w => some (0x0E10, h, w)
  | .txnCommit h w => some (0x0E11, h, w)
  | .txnAbort h w => some (0x0E12, h, w)
  | .txnQuery h w => some (0x0E13, h, w)
  | _ => none

end Sys2Proof
end

