-- ==== Sys2Proof/Machine/Operands.lean ====
section
/-! DEFINITION. Tables, bit fields, byte order, containment of numbers (R12) and the places of BAR0 (R420 to R423). -/

namespace Sys2Proof

/-- The value a table holds at k; d where it lists none. -/
def Tbl.look {α : Type} (t : Tbl α) (k : Nat) (d : α) : α :=
  match t with
  | [] => d
  | (a, v) :: r => if a = k then v else Tbl.look r k d

/-- The table with v at k. Keys stay rising, and an entry equal to d is left out. -/
def Tbl.put {α : Type} [DecidableEq α] (t : Tbl α) (k : Nat) (v d : α) : Tbl α :=
  match t with
  | [] => if v = d then [] else [(k, v)]
  | (a, x) :: r =>
    if k < a then (if v = d then (a, x) :: r else (k, v) :: (a, x) :: r)
    else if k = a then (if v = d then r else (k, v) :: r)
    else (a, x) :: Tbl.put r k v d

/-- The table with f over its values; entries that become d are left out. -/
def Tbl.mapVals {α : Type} [DecidableEq α] (t : Tbl α) (f : α → α) (d : α) : Tbl α :=
  match t with
  | [] => []
  | (a, x) :: r => if f x = d then Tbl.mapVals r f d else (a, f x) :: Tbl.mapVals r f d

/-- Canonical form of a table: keys strictly rising from lo, no entry equal to d. -/
def Tbl.wfFrom {α : Type} [DecidableEq α] (d : α) : Nat → Tbl α → Bool
  | _, [] => true
  | lo, (a, v) :: r => decide (lo ≤ a) && !decide (v = d) && Tbl.wfFrom d (a + 1) r

/-- Canonical form of a table whose unlisted keys read as d. -/
def Tbl.wf {α : Type} [DecidableEq α] (t : Tbl α) (d : α) : Bool := Tbl.wfFrom d 0 t

/-- The table without the keys p holds of. -/
def Tbl.drop {α : Type} (t : Tbl α) (p : Nat → Bool) : Tbl α := t.filter (fun e => !p e.1)

namespace Machine

/-! ### Bit fields and words -/

/-- Bits [hi:lo] of x. -/
def bits (x hi lo : Nat) : Nat := x / 2 ^ lo % 2 ^ (hi - lo + 1)

/-- Bit i of x. -/
def bit (x i : Nat) : Bool := x / 2 ^ i % 2 == 1

/-- 1 for true. -/
def b2n (b : Bool) : Nat := if b then 1 else 0

/-- A word of a number, mod 2^32. -/
def wd (n : Nat) : Word := BitVec.ofNat 32 n

/-- Parameter word i of a command, as a number. -/
def prm (w : List Word) (i : Nat) : Nat := (w.getD i 0).toNat

/-- Bits [hi:lo] of parameter word i. -/
def fld (w : List Word) (i hi lo : Nat) : Nat := bits (prm w i) hi lo

/-- x, read as a signed number of n bits. -/
def sgn (n x : Nat) : Int := if x % 2 ^ n < 2 ^ (n - 1) then (x % 2 ^ n : Nat) else (x % 2 ^ n : Nat) - (2 ^ n : Nat)

/-- A signed number in n bits of two's complement. -/
def uns (n : Nat) (x : Int) : Nat := (x % (2 ^ n : Nat)).toNat

/-- x held within [lo, hi]. -/
def clamp (lo hi x : Int) : Int := if x < lo then lo else if hi < x then hi else x

/-- A byte of a number. -/
def by8 (n : Nat) : Byte := BitVec.ofNat 8 n

/-- n bytes of x, least significant first (R4: memory). -/
def le (n x : Nat) : List Byte := (List.range n).map fun i => by8 (x / 2 ^ (8 * i))

/-- n bytes of x, most significant first (R4: the wire). -/
def be (n x : Nat) : List Byte := (le n x).reverse

/-- The number whose bytes are l, least significant first. -/
def ofLe (l : List Byte) : Nat := l.foldr (fun b a => b.toNat + 256 * a) 0

/-- The number whose bytes are l, most significant first. -/
def ofBe (l : List Byte) : Nat := l.foldl (fun a b => 256 * a + b.toNat) 0

/-- The n bytes of l from offset o, as a number, most significant first. -/
def beAt (l : List Byte) (o n : Nat) : Nat := ofBe ((l.drop o).take n)

/-- The n bytes of l from offset o, as a number, least significant first. -/
def leAt (l : List Byte) (o n : Nat) : Nat := ofLe ((l.drop o).take n)

/-- Words, each most significant byte first. -/
def wordsBe (l : List Word) : List Byte := l.flatMap fun x => be 4 x.toNat

/-- Words, each least significant byte first. -/
def wordsLe (l : List Word) : List Byte := l.flatMap fun x => le 4 x.toNat

/-- The words spelt by bytes, most significant byte first; fuel bounds their number. -/
def toWordsBe : Nat → List Byte → List Word
  | 0, _ => []
  | _, [] => []
  | n + 1, l => wd (ofBe (l.take 4)) :: toWordsBe n (l.drop 4)

/-- The words spelt by bytes, least significant byte first. -/
def toWordsLe : Nat → List Byte → List Word
  | 0, _ => []
  | _, [] => []
  | n + 1, l => wd (ofLe (l.take 4)) :: toWordsLe n (l.drop 4)

/-- LT@i of R306 as (SEC x 10^9 + NS, FRAC). -/
def ltAt (w : List Word) (i : Nat) : Nat × Nat :=
  ((fld w i 15 0 * 2 ^ 32 + prm w (i + 1)) * 1000000000 + prm w (i + 2), fld w i 31 16)

/-- The seconds of LT@i. -/
def secAt (w : List Word) (i : Nat) : Nat := fld w i 15 0 * 2 ^ 32 + prm w (i + 1)

/-- The instant at LT@i, where the word spells one: FRAC zero and NS below 10^9; its first offending parameter word plus 1
otherwise (R306, R43). -/
def instantAt (w : List Word) (i : Nat) : Except Nat Nat :=
  if fld w i 31 16 ≠ 0 then .error (i + 1)
  else if 1000000000 ≤ prm w (i + 2) then .error (i + 3)
  else .ok (ltAt w i).1

/-- Three words of a long time (R306) from ns and FRAC. -/
def ltWords (ns frac : Nat) : List Word :=
  let sec := ns / 1000000000
  [wd (bits sec 47 32 + frac * 65536), wd sec, wd (ns % 1000000000)]

/-- RT@i of R306: a 40-bit rate. -/
def rtAt (w : List Word) (i : Nat) : Nat := fld w i 7 0 * 2 ^ 32 + prm w (i + 1)

/-- A 64-bit value in two words, low word first (R306). -/
def w64 (w : List Word) (i : Nat) : Nat := prm w i + prm w (i + 1) * 2 ^ 32

/-- Two words of a 64-bit value, low word first. -/
def lo64 (x : Nat) : List Word := [wd x, wd (x / 2 ^ 32)]

/-! ### Containment (R12) -/

/-- The die of a port or uplink number. -/
def dieOfPort (p : Nat) : Nat := if p < 512 then p / 256 else (p - 512) / 4

/-- The region of a drive port. -/
def regionOfPort (p : Nat) : Nat := p / 64

/-- The region of an axis. -/
def regionOfAxis (a : Nat) : Nat := a / 2048

/-- The die of an axis. -/
def dieOfAxis (a : Nat) : Nat := a / 8192

/-- The die of a flow ID (bit 19). -/
def dieOfFlow (f : Nat) : Nat := f / 524288

/-- The die of a queue ID (bit 17). -/
def dieOfQueue (q : Nat) : Nat := q / 131072

/-- The die of a mover channel. -/
def dieOfMover (m : Nat) : Nat := m / 32

/-- Whether a port number names an uplink (R182). -/
def isUplink (p : Nat) : Bool := decide (512 ≤ p)

/-! ### The places of BAR0 (R420 to R423) -/

/-- G: the base of die d. -/
def dieBase (d : Nat) : Nat := 0x1000000 * (d + 1)

/-- The base of region r's window. -/
def regionBase (r : Nat) : Nat := dieBase (r / 4) + 0x100000 * (r % 4 + 1)

/-- The base of a port's or uplink's register block. -/
def portBase (p : Nat) : Nat :=
  if p < 512 then regionBase (p / 64) + 0x10000 * (p / 16 % 4 + 1) + 0x1000 * (p % 16)
  else dieBase ((p - 512) / 4) + 0x4000 + 0x1000 * ((p - 512) % 4)

/-- A register's block and its offset there. -/
inductive Blk where
  /-- Package block b (0 identity, 1 clocks, 2 power, 3 faults, 4 time, 5 pulse, 6 twin, 7 FIFO, 8 security, 9 observation,
  10 Hyith). -/
  | pkg (b o : Nat)
  | port (p o : Nat)
  | flow (d o : Nat)
  | tm (d o : Nat)
  | dstat (d o : Nat)
  | dcoll (d o : Nat)
  | mover (d o : Nat)
  | ddr (d o : Nat)
  | bridge (d o : Nat)
  | traj (r o : Nat)
  | rstat (r o : Nat)
  | coll (c o : Nat)
  | die (d : Nat)
  | region (r : Nat)
  | reserved
  deriving DecidableEq, Repr

/-- The block that BAR0 offset a lies in. -/
def blkOf (a : Nat) : Blk :=
  if a < 0xB0000 then .pkg (a / 0x10000) (a % 0x10000)
  else if a < 0x1000000 then .reserved
  else if 0x3000000 ≤ a then .reserved
  else
    let d := a / 0x1000000 - 1
    let o := a % 0x1000000
    if o < 0x10000 then
      if o < 0x4000 then .die d
      else if o < 0x8000 then .port (512 + 4 * d + (o - 0x4000) / 0x1000) (o % 0x1000)
      else if o < 0x9000 then .flow d (o - 0x8000)
      else if o < 0xA000 then .tm d (o - 0x9000)
      else if o < 0xA100 then .dstat d (o - 0xA000)
      else if o < 0xA200 then .dcoll d (o - 0xA100)
      else .die d
    else if o < 0x20000 then .mover d (o - 0x10000)
    else if o < 0x30000 then .ddr d (o - 0x20000)
    else if o < 0x40000 then .bridge d (o - 0x30000)
    else if o < 0x100000 ∨ 0x500000 ≤ o then .die d
    else
      let r := 4 * d + o / 0x100000 - 1
      let q := o % 0x100000
      if q < 0xC000 then .region r
      else if q < 0xD000 then .traj r (q - 0xC000)
      else if q < 0xD100 then .rstat r (q - 0xD000)
      else if q < 0xD500 then .coll (4 * r + (q - 0xD100) / 0x100) (q % 0x100)
      else if q < 0x10000 ∨ 0x50000 ≤ q then .region r
      else .port (64 * r + 16 * (q / 0x10000 - 1) + q % 0x10000 / 0x1000) (q % 0x1000)

/-- The die whose window holds a block; none for the package blocks and reserved space. -/
def Blk.dieOf : Blk → Option Nat
  | .pkg _ _ => none
  | .port p _ => some (dieOfPort p)
  | .flow d _ | .tm d _ | .dstat d _ | .dcoll d _ | .mover d _ | .ddr d _ | .bridge d _ | .die d => some d
  | .traj r _ | .rstat r _ | .region r => some (r / 4)
  | .coll c _ => some (c / 16)
  | .reserved => none

/-- The region whose window holds a block. -/
def Blk.regionOf : Blk → Option Nat
  | .port p _ => if p < 512 then some (p / 64) else none
  | .traj r _ | .rstat r _ | .region r => some r
  | .coll c _ => some (c / 4)
  | _ => none

end Machine
end Sys2Proof
end

