-- ==== Sys2Proof/Machine/Crc.lean ====
section
/-! DEFINITION. The check sums of the spec: CRC-16 of a brick (Glossary), the Ethernet FCS, the CRC-32C of packets and buckets
(R283, R175) and the CRC-64 of digests (R141). -/

namespace Sys2Proof.Machine

/-- One bit of a left-shifting CRC register of n bits with polynomial poly. -/
def crcBitL (n poly r : Nat) (b : Bool) : Nat :=
  let top := xor (r / 2 ^ (n - 1) % 2 == 1) b
  let r' := r * 2 % 2 ^ n
  if top then r' ^^^ poly else r'

/-- One byte, most significant bit first. -/
def crcByteL (n poly r : Nat) (b : Byte) : Nat :=
  [7, 6, 5, 4, 3, 2, 1, 0].foldl (fun a i => crcBitL n poly a (b.getLsbD i)) r

/-- The CRC-16 of a brick: polynomial 0x1021, initial value 0xFFFF. -/
def crc16 (l : List Byte) : Nat := l.foldl (crcByteL 16 0x1021) 0xFFFF

/-- The CRC-64 of ECMA-182: polynomial 0x42F0E1EBA9EA3693, from a given register. -/
def crc64From (r : Nat) (l : List Byte) : Nat := l.foldl (crcByteL 64 0x42F0E1EBA9EA3693) r

/-- One byte of a right-shifting CRC register with reflected polynomial poly. -/
def crcByteR (poly r : Nat) (b : Byte) : Nat :=
  [0, 1, 2, 3, 4, 5, 6, 7].foldl
    (fun a _ => if a % 2 = 1 then a / 2 ^^^ poly else a / 2) (r ^^^ b.toNat)

/-- The CRC-32 of an Ethernet frame. -/
def crc32 (l : List Byte) : Nat := l.foldl (crcByteR 0xEDB88320) 0xFFFFFFFF ^^^ 0xFFFFFFFF

/-- CRC-32C. -/
def crc32c (l : List Byte) : Nat := l.foldl (crcByteR 0x82F63B78) 0xFFFFFFFF ^^^ 0xFFFFFFFF

/-- The FCS of a frame as its four bytes on the wire. -/
def fcs (l : List Byte) : List Byte := le 4 (crc32 l)

/-- Whether a frame with its FCS is good. -/
def fcsOk (l : List Byte) : Bool :=
  decide (4 ≤ l.length) && l.drop (l.length - 4) == fcs (l.take (l.length - 4))

end Sys2Proof.Machine
end

