-- ==== Sys2Proof/Machine/Flags.lean ====
section
/-! DEFINITION. Status and REPORT codes (R287, R288), replies, the fault source tables (R328) and the fault source of each
event bit. -/

namespace Sys2Proof.Machine

/-- What a command answers: status, REPORT, DETAIL and the parameter words after the status word (R286). -/
structure Reply where
  st : Nat := 0
  report : Nat := 0
  detail : Nat := 0
  w : List Word := []
  deriving DecidableEq, Repr

/-- Status codes of R287. -/
def stPrepared : Nat := 0x02
def stBadCrc : Nat := 0x10
def stBadVersion : Nat := 0x11
def stBadLength : Nat := 0x12
def stUnknownOpcode : Nat := 0x13
def stInvalid : Nat := 0x14
def stAbsent : Nat := 0x15
def stWrongDie : Nat := 0x16
def stWrongState : Nat := 0x17
def stNoSpace : Nat := 0x18
def stTooLate : Nat := 0x19
def stOrigin : Nat := 0x1A
def stBusy : Nat := 0x1B
def stTxnUnknown : Nat := 0x1C
def stTxnFailed : Nat := 0x1D
def stTxnPartial : Nat := 0x1E
def stRefused : Nat := 0x1F
def stStopped : Nat := 0x20
def stAuth : Nat := 0x21

/-- Status OK with reply words. -/
def Reply.ok (w : List Word := []) : Reply := { w := w }

/-- A reply whose status is not OK: the status word alone (R286). -/
def Reply.err (st : Nat) (detail : Nat := 0) : Reply := { st := st, detail := detail }

/-- OK, or OK_REPORT when REPORT is nonzero (R287). -/
def Reply.rep (report : Nat) (w : List Word) : Reply :=
  { st := if report = 0 then 0 else 1, report := report, w := w }

/-- The status word (R286). -/
def Reply.status (r : Reply) : Word := wd (r.st * 2 ^ 24 + r.report % 256 * 2 ^ 16 + r.detail % 65536)

/-- A value held to 32 bits by saturation. -/
def sat32 (n : Nat) : Nat := min n 0xFFFFFFFF

/-! ### Fault sources (R328) -/

/-- Number of sources of a place. -/
def nSources : FaultLoc → Nat
  | .port _ => 8 | .region _ => 6 | .die _ => 14 | .package => 17

/-- Base levels, source 0 first. -/
def baseLevels : FaultLoc → List Nat
  | .port _ => [0, 0, 0, 1, 0, 1, 2, 2]
  | .region _ => [0, 1, 2, 2, 0, 0]
  | .die _ => [0, 1, 0, 1, 0, 1, 0, 1, 2, 0, 2, 0, 2, 0]
  | .package => [3, 3, 2, 3, 2, 1, 0, 1, 0, 1, 2, 0, 1, 2, 0, 2, 0]

/-- Default reactions, source 0 first. -/
def baseReactions : FaultLoc → List Nat
  | .port _ => [1, 0, 1, 1, 1, 1, 2, 2]
  | .region _ => [1, 1, 3, 3, 0, 0]
  | .die _ => [0, 1, 0, 1, 0, 1, 0, 1, 1, 0, 1, 0, 1, 0]
  | .package => [4, 4, 1, 4, 1, 1, 1, 1, 1, 1, 1, 0, 1, 1, 1, 1, 0]

/-- The base level of a source. -/
def baseLevel (l : FaultLoc) (s : Nat) : Nat := (baseLevels l).getD s 0

/-- Whether a source is of kind C. -/
def isCond : FaultLoc → Nat → Bool
  | .port _, s => s == 7
  | .region _, _ => false
  | .die _, s => s == 8 || s == 12
  | .package, s => s ≤ 5

/-- Whether a source is of kind B. -/
def isBlock : FaultLoc → Nat → Bool
  | .port _, s => s ≤ 5
  | .region _, s => s ≤ 1 || s == 5
  | .die _, s => s ≤ 5 || s == 13
  | .package, s => 6 ≤ s

/-- Whether a source's reaction is fixed at package safe: CLOCK_LOSS, THERM_CRIT, SUPPLY. -/
def fixedReaction : FaultLoc → Nat → Bool
  | .package, s => s == 0 || s == 1 || s == 3
  | _, _ => false

/-- Whether R335 allows a reaction code for a source. -/
def reactionOk (l : FaultLoc) (s r : Nat) : Bool :=
  if fixedReaction l s then r == 4
  else match r with
    | 0 | 1 | 4 => true
    | 2 | 5 => match l with | .port _ => true | _ => false
    | 3 | 6 => match l with | .port p => p < 512 | .region _ => true | _ => false
    | _ => false

/-- The key of a source in the fault table. -/
def locKey : FaultLoc → Nat
  | .port p => p
  | .region r => 600 + r
  | .die d => 610 + d
  | .package => 620

/-- The key of source s of place l. -/
def srcKey (l : FaultLoc) (s : Nat) : Nat := locKey l * 32 + s

/-- The base of the status set of a region, die or the package, and the PSTAT word of a port or uplink (R347, R348). -/
def statusAddr : FaultLoc → Nat
  | .port p =>
    if p < 512 then regionBase (p / 64) + 0xD100 + 0x100 * (p / 16 % 4) + 4 * (p % 16)
    else dieBase ((p - 512) / 4) + 0xA100 + 4 * ((p - 512) % 4)
  | .region r => regionBase r + 0xD000
  | .die d => dieBase d + 0xA000
  | .package => 0x30000

/-- The collector that holds a port's sources. -/
def collBase (p : Nat) : Nat :=
  if p < 512 then regionBase (p / 64) + 0xD100 + 0x100 * (p / 16 % 4) else dieBase ((p - 512) / 4) + 0xA100

/-- The SUPPRESSED counter of the status or collector that holds a source (R342). -/
def suppressedAddr : FaultLoc → Nat
  | .port p => collBase p + 0x44
  | l => statusAddr l + 0x14

/-- The place whose vector an interrupt of a place's source uses (R335): the region's, or the die's for uplinks. -/
def vecLoc : FaultLoc → FaultLoc
  | .port p => if p < 512 then .region (p / 64) else .die ((p - 512) / 4)
  | l => l

/-- The reset value of a status set's VEC (R347). -/
def vecReset : FaultLoc → Nat
  | .region r => 8 + r
  | .die d => 3 + d
  | _ => 2

/-- The fault source that bit i of the event register of a block fires (R328); none for a bit that is no fault source. -/
def bitSource (b : Blk) (i : Nat) : Option (FaultLoc × Nat) :=
  match b with
  | .port p 0x024 => match i with
    | 0 | 1 | 5 | 7 => some (.port p, 0)
    | 2 | 6 => some (.port p, 1)
    | _ => none
  | .port p 0x408 => match i with
    | 1 => some (.port p, 4)
    | 2 | 4 | 6 => some (.port p, 2)
    | 3 => some (.port p, 3)
    | _ => none
  | .port p 0x588 => match i with
    | 0 | 2 => some (.port p, 1)
    | _ => none
  | .port p 0x608 => match i with
    | 0 | 5 => some (.port p, 5)
    | 1 | 3 | 4 => some (.port p, 4)
    | _ => none
  | .traj r 0x010 => if i ≤ 1 then some (.region r, 1) else if i ≤ 8 then some (.region r, 0) else none
  | .flow d 0x000 => if i = 1 then some (.die d, 1) else if i ≤ 4 then some (.die d, 0) else none
  | .tm d 0x00C => match i with
    | 0 | 1 | 4 => some (.die d, 2)
    | 2 | 3 => some (.die d, 3)
    | _ => none
  | .mover d 0x2100 => if i = 0 then some (.die d, 5) else if i ≤ 6 then some (.die d, 4) else none
  | .pkg 4 0x01C => match i with
    | 1 | 5 => some (.package, 6)
    | 3 | 4 => some (.package, 7)
    | _ => none
  | .pkg 6 0x004 => match i with
    | 0 | 1 | 7 | 10 | 11 => some (.package, 8)
    | 2 => some (.package, 10)
    | 3 | 4 | 5 | 6 | 8 | 9 => some (.package, 9)
    | _ => none
  | .pkg 7 0x038 => if i ≤ 3 then some (.package, 14) else none
  | .pkg 8 0x018 => if i ≤ 5 then some (.package, 15) else none
  | .pkg 10 o =>
    if o = 0x804 then (if i = 0 then some (.package, 11) else if i ≤ 2 then some (.package, 12) else none)
    else if o < 0x800 ∧ o % 0x100 = 0x0C then
      match i with
      | 0 | 1 | 4 => some (.package, 11)
      | 2 => some (.package, 13)
      | 3 => some (.package, 12)
      | _ => none
    else none
  | _ => none

/-- The event registers whose bits a B source listens to, with the offset of each from BAR0, for the retest of R345. -/
def sourceRegs : FaultLoc → List Nat
  | .port p => [portBase p + 0x024, portBase p + 0x408, portBase p + 0x588, portBase p + 0x608]
  | .region r => [regionBase r + 0xC010]
  | .die d => [dieBase d + 0x8000, dieBase d + 0x900C, dieBase d + 0x12100]
  | .package => [0x4001C, 0x60004, 0x70038, 0x80018, 0xA0804] ++ (List.range 8).map fun u => 0xA000C + 0x100 * u

/-- Where an event register's EVENT_EN stands: its address, for the event registers that have one (R294). -/
def enableAddr (a : Nat) : Option Nat :=
  match blkOf a with
  | .port _ o => if o = 0x024 ∨ o = 0x408 ∨ o = 0x588 ∨ o = 0x608 then some (a + 4) else none
  | .traj _ o => if o = 0x010 then some (a + 4) else none
  | .flow _ o => if o = 0x000 then some (a + 4) else none
  | .tm _ o => if o = 0x00C then some (a + 4) else none
  | .mover _ o => if o = 0x2100 then some (a + 4) else none
  | .pkg 1 o | .pkg 6 o => if o = 0x004 then some (a + 4) else none
  | .pkg 2 o => if o = 0x00C then some (a + 4) else none
  | .pkg 4 o => if o = 0x01C then some (a + 4) else none
  | .pkg 5 o => if o = 0x000 then some (a + 4) else none
  | .pkg 7 o => if o = 0x038 then some (a + 4) else none
  | .pkg 8 o => if o = 0x018 ∨ o = 0x100 then some (a + 4) else none
  | .pkg 9 o => if o = 0x030 then some (a + 4) else none
  | .pkg 10 o => if o = 0x804 ∨ (o < 0x800 ∧ o % 0x100 = 0x0C) then some (a + 4) else none
  | _ => none

/-- The target words (SCOPE, DIE, REGION, PORT) of the block an event register lies in (R294, R284). -/
def blkTarget (b : Blk) : Nat × Nat × Nat × Nat :=
  match b with
  | .port p _ => if p < 512 then (3, p / 256, p / 64, p) else (3, (p - 512) / 4, 0, p)
  | .traj r _ | .rstat r _ | .region r => (2, r / 4, r, 0)
  | .coll c _ => (2, c / 16, c / 4, 0)
  | b => match b.dieOf with
    | some d => (1, d, 0, 0)
    | none => (0, 0, 0, 0)

end Sys2Proof.Machine
end

