-- ==== Sys2Proof/Config.lean ====
section
/-! DEFINITION. What the spec leaves open: free values, constants without a body, applied to plain data. No proof can see
what one of them is. -/

namespace Sys2Proof

/-- The filtered offset (2^-16 ns) of the last 2^n samples, n > 0: R52 and R57 name a filter and give its length, not its
arithmetic. Log entry 10. -/
opaque Config.freeFilter : List Int → Int

/-- The proportional term of a servo update and what it adds to the integral term, in units of RATE, for a bandwidth code and a
filtered offset: R57 gives the servo's kind, its damping factor 1 and the bandwidth of each code, not its discretisation. Log entry 11. -/
opaque Config.freeProp : Nat → Int → Int
opaque Config.freeInt : Nat → Int → Int

/-- The frame, without its FCS, with which the control cores answer a delay request taken with a receive timestamp: R59 names the
standards that give it. Log entry 137. -/
opaque Config.freePtp : List Byte → Nat → List Byte

/-- A measured receive or transmit latency of a lane (R246): a physical measurement. Log entry 12. -/
opaque Config.freeLatency : Nat → Word

/-- The SEQ byte of a GAP record that the Bell port makes of its own (R397): the record has no place in the trace stream, and the spec
states no number for it. Log entry 13. -/
opaque Config.freeByte : Nat → Byte

/-- Whether the other twin has prepared, or has kept at C, its share of a transaction (R304): an event in another package, which no record
of R268 reports. Log entry 40. -/
opaque Config.freePartner : Nat → Bool

/-- The PCIe maximum payload size in bytes (R315): the host's configuration, which the spec leaves to it. Log entry 175. -/
opaque Config.maxPayload : Nat

/-- What cell n of the boundary chain holds: what a tester has shifted in, which no row carries (R400). Log entry 178. -/
opaque Config.freeCell : Nat → Nat → Bool

/-- Whether a fuse reads back burned (R385): a physical event. Log entry 45. -/
opaque Config.freeFuse : Nat → Bool

end Sys2Proof
end

