-- ==== Sys2Proof/Machine/State.lean ====
section
/-! DEFINITION. The state of an MHV-5124 package: everything the spec gives it, as plain data, the reasons a step may stop,
and the state after reset. Instants are ns of line time (SEC x 10^9 + NS) unless a field says otherwise; the default value of
each field is its value after the resets it does not survive. Tables (Tbl) hold only what differs from that default. -/

namespace Sys2Proof.Machine

/-- Why a step stops with a fault. No step of this block does: every command and event has an effect the spec states. The one
constructor is reserved for a register access outside BAR0 that reaches no endpoint; no meaning raises it (safe). -/
inductive Fault where
  /-- Raised by no meaning (safe). -/
  | none
  deriving DecidableEq, Repr

/-- Why a step is refused. -/
inductive Refusal where
  /-- An instruction the model has no meaning for; raised by exec's arms only (safe). -/
  | notModelled (mnemonic : String)
  deriving DecidableEq, Repr

/-- What leaves the package: the model's own record, newest first, of what pins, PCIe and links show. -/
inductive Output where
  /-- A frame on port p whose preamble passes the port's reference plane (R60) from t16 (2^-16 ns) on. -/
  | frame (p t16 : Nat) (bytes : List Byte)
  /-- An mPacket on port p: a verify or respond, or a fragment of a preempted frame with its data bytes. -/
  | mpacket (p t16 : Nat) (m : MPacket)
  /-- A Gelren control block on uplink u. -/
  | block (u : Nat) (bytes : List Byte)
  /-- An MSI-X message on a vector of PF0. -/
  | msix (vec : Nat)
  /-- A leading edge of pulse unit u at line time ns t. -/
  | pulse (u t : Nat)
  /-- 34 bytes of the Bell port. -/
  | bell (bytes : List Byte)
  /-- A write to host memory (mover data, completion records). -/
  | hostWrite (addr : Nat) (bytes : List Byte)
  /-- The words a register read returns. -/
  | read (w : List Word)
  /-- A completion with Completer Abort status (R369, R426). -/
  | completerAbort (bar addr : Nat)
  /-- What the TAP's IDCODE register shifts out on TDO. -/
  | idcode (w : Word)
  /-- A rising edge of the breath pin at t. -/
  | breath (t : Nat)
  /-- A falling edge of the breath pin at t. -/
  | breathLow (t : Nat)
  /-- A rising edge of CLKOUT with code 10 selected, at t (R363). -/
  | clkout (t : Nat)
  /-- A toggle of LEAD_OUTn at t. -/
  | lead (t : Nat)
  /-- Pin TP[k] takes a level (true: high) at t (R69). -/
  | tp (k : Nat) (high : Bool) (t : Nat)
  deriving DecidableEq, Repr

/-! ### Line time (02_time.md) -/

/-- Time base states, R52. -/
inductive TState where
  | free | acquire | step | track | locked | holdover
  deriving DecidableEq, Repr

/-- Lock parameters, R57. HOLD_TO in µs; the reset values are the HYITH column, in use when no source is set. -/
structure TimeParams where
  filtN : Nat := 6
  stepTh : Nat := 1000
  lockTh : Nat := 8
  bw : Nat := 14
  holdTo : Nat := 64
  maxSlew : Nat := 100
  deriving DecidableEq, Repr

/-- A sample being formed from the words of a Hyith link (R61, R62): the last time word received and echo, and our own. -/
structure TimeLink where
  a : Int := 0
  d : Int := 0
  /-- SEQ of the next time word, and those sent last, newest first, with their send times (2^-16 ns, mod 2^48). -/
  txSeq : Nat := 0
  tx : List (Nat × Nat) := []
  rxSeq : Option Nat := none
  rxT3 : Nat := 0
  rxT4 : Nat := 0
  rxNew : Bool := false
  echoSeq : Option Nat := none
  /-- The next 1,024 ns slot whose words have not been sent, and the slots since the last CREDIT block. -/
  wordDue : Nat := 0
  slots : Nat := 0
  deriving DecidableEq, Repr

structure TimeBase where
  /-- Line time in 2^-41 ns (R47). -/
  units : Nat := 0
  rate : Int := 0
  state : TState := .free
  source : Nat := 0
  srcIdx : Nat := 0
  permit : Bool := true
  permitSeq : Bool := true
  params : TimeParams := {}
  samples : List Int := []
  secKnown : Bool := false
  epochSec : Option Nat := none
  epochAt : Nat := 0
  goodRun : Nat := 0
  rateHist : List Int := []
  /-- The servo's integral term, in units of RATE (R57). -/
  integ : Int := 0
  lastSample : Nat := 0
  /-- Last filtered offset, 2^-16 ns. -/
  offset : Int := 0
  offLarge : Bool := false
  stepDefRaised : Bool := false
  initPend : Option (Nat × Nat) := none
  nowSec : Nat := 0
  nowFrac : Nat := 0
  utcOfs : Nat := 0
  utcValid : Bool := false
  sampleQ : List Int := []
  links : Tbl TimeLink := []
  deriving DecidableEq, Repr

/-- One pulse unit's configuration (R65). -/
structure PulseCfg where
  start : Nat := 0
  period : Nat := 0
  width : Nat := 0
  count : Nat := 0
  pol : Bool := false
  late : Bool := false
  endEv : Bool := false
  deriving DecidableEq, Repr

/-- A pulse unit: its configuration, whether it runs, the next leading edge, the pulses emitted, the end of a pulse in
progress, and what waits for that end (R68): a stop, or a configuration with its first leading edge and whether it runs. -/
structure Pulse where
  cfg : PulseCfg := {}
  run : Bool := false
  next : Nat := 0
  emitted : Nat := 0
  busyTo : Option Nat := none
  waiting : Option (Option (PulseCfg × Nat × Bool)) := none
  deriving DecidableEq, Repr

/-- A capture input (R70, R71, R77): selected edges (bit 0 rise, bit 1 fall), entries oldest first as (time in 2^-16 ns,
falling), and the latched entry. -/
structure Capture where
  edges : Nat := 0
  fifo : List (Nat × Bool) := []
  lost : Nat := 0
  latSec : Nat := 0
  latFrac : Nat := 0
  latFall : Bool := false
  deriving DecidableEq, Repr

/-- A transmit timestamp record (R73), its four words. -/
structure TsRec where
  w0 : Word := 0
  w1 : Word := 0
  w2 : Word := 0
  w3 : Word := 0
  deriving DecidableEq, Repr

/-- A port's timestamp ring (R72, R78): HEAD and TAIL are 7 bits, index and wrap. -/
structure TsRing where
  on : Bool := false
  recs : Tbl TsRec := []
  head : Nat := 0
  tail : Nat := 0
  pending : Nat := 0
  deriving DecidableEq, Repr

/-! ### Commands (10_commands.md) -/

/-- The PCIe FIFOs (R289 to R294, R307). -/
structure Fifo where
  mode : Bool := false
  ring : Tbl Word := []
  front : Nat := 0
  head : Nat := 0
  rd : Nat := 0
  used : Nat := 0
  count : Nat := 0
  /-- Mode 1: bytes of packets in filling that are written, by ring byte, and end marks, by word. -/
  written : Tbl Bool := []
  ends : Tbl Bool := []
  why : Nat := 0
  rpl : Tbl Word := []
  rplWr : Nat := 0
  rplRd : Nat := 0
  evt : Tbl Word := []
  evtWr : Nat := 0
  evtRd : Nat := 0
  evtSeq : Nat := 0
  evtPend : Nat := 0
  /-- Words of the event ring that hold packets not yet read. -/
  evtUsed : Nat := 0
  /-- A CTRL cycle, and the event packets written in it: event register, its bits, ring position, TAG (R294). -/
  evtNow : Nat × List (Nat × Nat × Nat × Nat) := (0, [])
  rplVec : Nat := 0
  evtVec : Nat := 1
  deriving DecidableEq, Repr

/-- A command frame in the control cores' input queue (R236): arrival port, SA, VLAN tags, the bytes after the EtherType. -/
structure MgmtFrame where
  port : Nat
  sa : BitVec 48
  tags : List Byte
  bytes : List Byte
  /-- The receive timestamp at the port's reference plane, 2^-16 ns (R60). -/
  rx16 : Nat := 0
  deriving DecidableEq, Repr

/-- A command or reply frame from a Hyith link (R275): arrival uplink, origin device number, hop count, and the bytes after the
relay prefix. -/
structure HyithFrame where
  uplink : Nat
  origin : Nat
  hops : Nat
  bytes : List Byte
  rx16 : Nat := 0
  deriving DecidableEq, Repr

/-- What a transaction member holds (R299). -/
inductive Held where
  | port (p : Nat)
  | axis (a : Nat)
  | flow (f : Nat)
  | queue (q : Nat)
  | service (p s : Nat)
  | pulse (u : Nat)
  | buffer (d : Nat)
  | package
  deriving DecidableEq, Repr

/-! ### Observation (15_observation.md) -/

/-- A trace record before it has its place in the stream (R391): its type, line time in 2^-16 ns, ADDR and arguments. -/
structure TraceRec where
  type : Nat
  t16 : Nat
  addr : Nat
  args : List Nat
  deriving DecidableEq, Repr

/-- Trace and Bell port (R393 to R397, R401). -/
structure Trace where
  mask : Nat := 0
  bellOn : Bool := false
  base : Nat := 0
  size : Nat := 0
  queue : Tbl (List TraceRec) := []
  pend : Tbl Nat := []
  seq : Nat := 0
  bellQ : List (List Byte) := []
  bellPend : Nat := 0
  deriving DecidableEq, Repr

/-- Counter archive (R398): period ms, area, the next record index and instant, and the latched record being written. -/
structure Archive where
  period : Nat := 0
  base : Nat := 0
  size : Nat := 0
  k : Nat := 0
  next : Nat := 0
  busy : Option (Nat × Nat × List (Nat × Word)) := none
  last : Nat := 0
  deriving DecidableEq, Repr

/-! ### Faults (12_faults.md) -/

/-- One fault source's record and settings (R327, R333 to R336, R346). reaction none is the table's default. cond is the
condition of a C source. tookSafe: this episode took package safe (R339). took: the port quarantine this episode
has taken, 2 or 5, a 5 outlasting a later 2; due: its PORT reset is still to be issued (R341). slow: the SLOW cycle of the last capture (R331). -/
structure FaultSrc where
  sticky : Bool := false
  t : Bool := false
  u : Bool := false
  count : Nat := 0
  winEnd : Option Nat := none
  n : Nat := 0
  w : Nat := 0
  reaction : Option Nat := none
  tookSafe : Bool := false
  took : Nat := 0
  due : Bool := false
  cond : Bool := false
  slow : Option Nat := none
  deriving DecidableEq, Repr

/-- FAULTn and the line safety outputs (R343, R344, R349). pulseEnd: the end of the minimum pulse still running. regionDue: the
regions whose REGION reset of a reaction 6 is still to be issued (R341). told: a SLOW cycle, and the vectors of the status messages
sent in it (R336). -/
structure Safety where
  asserted : Bool := true
  pulseEnd : Option Nat := none
  relPend : Bool := false
  pulse : Nat := 10
  lsoDrive : BitVec 8 := 0
  lsoRefused : Bool := false
  safeLatch : Bool := false
  clockSafe : Bool := false
  regionDue : List Nat := []
  told : Nat × List Nat := (0, [])
  deriving DecidableEq, Repr

/-! ### Ports and lanes (08_ports.md) -/

/-- The settings words 0x000 to 0x014 of a port block (R249, Kept GTZ). -/
structure PortSet where
  w0 : Word := 0x1808
  w1 : Word := 0x5F2
  w2 : Word := 0x001
  w3 : Word := 0xAC0
  macLo : Word := 0
  macHi : Word := 0
  deriving DecidableEq, Repr

/-- The settings of TIME_PORT_SET (R60, Kept GTZ). -/
structure PortTime where
  egress : Word := 0
  ingress : Word := 0
  cfg : Word := 0
  deriving DecidableEq, Repr

/-- Live link state of a port: what the pins and the PHY show (R229 to R232, R244, R429). speed as SPEED_NOW; phySpeed and
fullDuplex are the last valid in-band control word, phyUp the link the PHY or partner offers. -/
structure Link where
  up : Bool := false
  speed : Nat := 0
  phySpeed : Option Nat := none
  fullDuplex : Bool := true
  phyUp : Bool := false
  localFault : Bool := false
  remoteFault : Bool := false
  sleeping : Bool := false
  restart : Bool := false
  squelched : Bool := false
  deriving DecidableEq, Repr

/-- A SerDes lane (R246, R249, R413). recal: the kind in progress. adaptEn is Kept GTZ; amp, pre and post as their own rule. -/
structure Lane where
  lock : Bool := true
  off : Bool := false
  recal : Option Nat := none
  /-- A full recalibration has failed and is to run again; when the last one began, in ns. -/
  retry : Bool := false
  recalAt : Nat := 0
  adaptEn : Bool := true
  /-- The LANE_SET codes (R413); none is the lane kind's default. -/
  xmit : Option Word := none
  latRx : Word := 0
  latTx : Word := 0
  deriving DecidableEq, Repr

/-! ### Valves and preemption (05_valves_preemption.md) -/

/-- Valve settings (R151, Kept GT). -/
structure ValveSet where
  courseClass : Nat := 7
  idleGates : Nat := 0xFF
  idleHold : Bool := false
  maxLen : List Nat := [1522, 1522, 1522, 1522, 1522, 1522, 1522, 1522]
  deriving DecidableEq, Repr

/-- A valve entry's two words (R147). -/
structure VEntry where
  w0 : Word := 0
  w1 : Word := 0
  deriving DecidableEq, Repr

/-- A valve list: LEN and the stored entries (R147, R170, Kept GT). -/
structure VList where
  len : Nat := 0
  entries : Tbl VEntry := []
  deriving DecidableEq, Repr

/-- A committed start or swap that waits for its instant (R153, R154): its list, base time, VCT, instant and kind. -/
structure VPend where
  list : Nat
  tb : Nat
  vct : Nat
  at_ : Nat
  start : Bool
  deriving DecidableEq, Repr

/-- The valve's state (R152, Kept with a dash). idle: after a step of line time, IDLE_GATES hold until this instant (R156). -/
structure Valve where
  state : Nat := 0
  list : Nat := 0
  vbase : Nat := 0
  vct : Nat := 0
  pend : Option VPend := none
  stopAt : Option Nat := none
  idle : Option Nat := none
  deriving DecidableEq, Repr

/-- Preemption (R162, R163): the PREEMPT_SET word (Kept GT), and the verify exchange: tries sent, the deadline of the one
outstanding, success and failure. -/
structure Preempt where
  cfg : Word := 0xA000
  tries : Nat := 0
  deadline : Option Nat := none
  okay : Bool := false
  failed : Bool := false
  deriving DecidableEq, Repr

/-! ### Courses (03_courses.md) -/

/-- A frame descriptor's four words (R93). -/
structure Desc where
  w0 : Word := 0
  w1 : Word := 0
  w2 : Word := 0
  w3 : Word := 0
  deriving DecidableEq, Repr

/-- A bond bank: entries and descriptors 0 to 7 (R93, R94). -/
structure Bank where
  entries : Tbl Word := []
  descs : Tbl Desc := []
  deriving DecidableEq, Repr

/-- Course settings and banks (R95, Kept GT). -/
structure CourseCfg where
  ct : Nat := 0
  id : Nat := 0
  stale : Nat := 0
  plane : Nat := 0
  partner : Nat := 0
  bankA : Bank := {}
  bankB : Bank := {}
  bankS : Bank := {}
  safeImg : Tbl Byte := []
  deriving DecidableEq, Repr

/-- What a build fixed for an outbound frame (R97, R263): its cycle and that cycle's start, whether from bank S, the working bank bit,
whether the frame is withheld, and the descriptor and entries it is built from (DESIGN CHOICE for what R97 does not list, log entry
141). -/
structure Build where
  n : Nat
  b : Nat
  /-- The ports that send the frame, each with its launch (R103). -/
  launches : List (Nat × Nat) := []
  safe : Bool
  bank : Bool
  skip : Bool := false
  desc : Desc := {}
  entries : List Nat := []
  deriving DecidableEq, Repr

/-- The course's state (R108 to R112, Kept Z). swaps: the boundaries of committed swaps that wait. -/
structure CourseDyn where
  state : Nat := 0
  bank : Bool := false
  swaps : List Nat := []
  /-- The k of each of those swaps, by its boundary, and of the start and resume that wait (R106, R391). -/
  swapKs : List (Nat × Nat) := []
  startK : Nat := 0
  resumeK : Nat := 0
  startAt : Option Nat := none
  resumeAt : Option Nat := none
  stopAt : Option Nat := none
  cause : Nat := 0
  safeAtStart : Option Nat := none
  foreign : Bool := false
  safeCycles : Nat := 0
  safeLast : Option Nat := none
  builds : Tbl (Option Build) := []
  missedA : Nat := 0
  missedB : Nat := 0
  gotA : Bool := false
  gotB : Bool := false
  /-- The plane (true: B) whose silence has been raised and not ended. -/
  silentEp : Option Bool := none
  /-- Safe images that SAFE_IMAGE_WRITE has replaced, newest first, with the instant (2^-16 ns) up to which each stood. -/
  safeOld : List (Nat × Tbl Byte) := []
  deriving DecidableEq, Repr

/-- The in-status (R95, R102, R103): TAKEN, AGE and KEPT of each bond entry, and its staleness episode. -/
structure InStatus where
  taken : Tbl Bool := []
  /-- Entries whose brick a FOLLOWER has offered to its LEADER in this cycle (R260). -/
  offered : Tbl Bool := []
  age : Tbl Nat := []
  kept : Tbl (List Byte) := []
  ep : Tbl Bool := []
  /-- By inbound frame: the instant after that of its last ARR_CLOSE. -/
  closed : Tbl Nat := []
  deriving DecidableEq, Repr

/-- An accepted inbound course frame being dissolved (R100, R101): frame index, cycle and its start, plane, arrival (2^-16 ns), the
offset of its bricks and its bytes. -/
structure InFrame where
  f : Nat
  n : Nat
  b : Nat
  planeB : Bool
  t16 : Nat
  hdr : Nat
  bytes : List Byte
  /-- The descriptor and entries of its frame at its acceptance. -/
  desc : Desc := {}
  entries : List Nat := []
  /-- Bricks below this one have completed. -/
  done : Nat := 0
  deriving DecidableEq, Repr

/-! ### Axes (04_trajectory.md) -/

/-- A segment's fields (R117). -/
structure Seg where
  dur : Nat := 0
  seq : Nat := 0
  last : Bool := false
  mark : Bool := false
  a : List Int := []
  deriving DecidableEq, Repr

/-- What a fetch put in the segment cache (R128): a segment or a segment fault. -/
inductive Cached where
  | seg (s : Seg)
  | bad
  deriving DecidableEq, Repr

/-- Axis settings of AXIS_SET (R113, R123, R126, R133, Kept GT). Those of an axis that no AXIS_SET has set since a reset that clears
them are all zero: trajectory mode, no cycle time, a ring of one place at 0 (DESIGN CHOICE: R113 and R143 give none; log entry 168). -/
structure AxisCfg where
  direct : Bool := false
  ct : Nat := 0
  ringBase : Nat := 0
  ringK : Nat := 0
  recipe : List (Word × Word) := []
  dec : Nat := 0
  cmdEn : Bool := false
  cmdW : Bool := false
  cmdOfs : Nat := 0
  cmdVal : Word := 0
  deriving DecidableEq, Repr

/-- A reflex rule's five words (R136). -/
structure Rule where
  w0 : Word := 0
  w1 : Word := 0
  w2 : Word := 0
  w3 : Word := 0
  w4 : Word := 0
  deriving DecidableEq, Repr

/-- A rule that REFLEX_SET has replaced, for bricks with A before the replacement (R136): its last instant's successor (2^-16 ns), index,
and whether it had fired. -/
structure OldRule where
  until16 : Nat
  idx : Nat
  rule : Rule
  fired : Bool
  deriving DecidableEq, Repr

/-- A quick-stop profile in progress (R135): its anchor, coefficients and T; start is the boundary it begins at. -/
structure QStop where
  start : Nat
  anchor : Nat := 0
  a0 : Int := 0
  a1 : Int := 0
  a2 : Int := 0
  t : Nat := 0
  capped : Bool := false
  set : Bool := false
  deriving DecidableEq, Repr

/-- What the engine decided for a boundary (R116): the boundary, the axis's next state, cause, P, V, A and run position, and
the bytes to write. -/
structure Decided where
  b : Nat
  /-- The state the decision was taken from. -/
  old : Nat
  state : Nat
  cause : Nat
  p : Int
  v : Int
  a : Int
  get : Nat
  segStart : Nat
  cache : List Cached
  lastSeq : Nat
  qstop : Option QStop
  writes : List (Nat × List Byte)
  sats : Nat
  marks : Nat
  fault : Option Nat
  deriving DecidableEq, Repr

/-- Axis state (R114, R145, Kept TZ; the cache with a dash). -/
structure AxisDyn where
  state : Nat := 0
  cause : Nat := 0
  get : Nat := 0
  put : Nat := 0
  segExp : Nat := 0
  p : Int := 0
  v : Int := 0
  a : Int := 0
  fired : Nat := 0
  discards : Nat := 0
  underruns : Nat := 0
  satCount : Nat := 0
  deriving DecidableEq, Repr

/-- The run in progress of an axis: start instants, the start of the segment at GET, the cache, a pending AXIS_OFF, the
quick-stop profile, the decided boundary, the SEG_SEQ of the last segment, and the LEAD_SHORT episode. -/
structure AxisRun where
  s0 : Nat := 0
  directAt : Option Nat := none
  offAt : Option Nat := none
  segStart : Nat := 0
  cache : List Cached := []
  lastSeq : Nat := 0
  qstop : Option QStop := none
  decided : Option Decided := none
  leadIdx : Option Nat := none
  lastB : Option Nat := none
  deriving DecidableEq, Repr

structure Axis where
  cfg : AxisCfg := {}
  rules : Tbl Rule := []
  /-- Replaced rules, newest first. -/
  oldRules : List OldRule := []
  dyn : AxisDyn := {}
  run : AxisRun := {}
  deriving DecidableEq, Repr

/-- A reflex action waiting for A + 1,000 ns (R139): its instant, source axis and rule, target, and the firing rule's words;
port: the port that delivered the brick. -/
structure ReflexAct where
  t16 : Nat
  src : Nat
  idx : Nat
  rule : Rule
  port : Nat
  /-- The target axis or the port has been reset since A (R139). -/
  lost : Bool := false
  lostSafe : Bool := false
  deriving DecidableEq, Repr

/-- Digest values of a region (R141, R146): published, latched by a read of DIGEST_LO, and captured for publication. -/
structure Digest where
  val : Nat := 0
  cycle : Nat := 0
  latHi : Nat := 0
  latCycle : Nat := 0
  cap : Option (Nat × Nat) := none
  lastAxis : Nat := 0
  lastKind : Nat := 0
  deriving DecidableEq, Repr

/-- Axis image, its recent writes (so that it can be read as at an instant, R98, R137), staging and snapshots (R82 to R87).
Keys: axis x 128 + byte; staging axis x 64 + byte. A logged write of the image stands at twice its instant, one more where a read at that
very instant does not see it. sets: the last instant of reflex SETs and those SETs (R140). -/
structure Image where
  bytes : Tbl Byte := []
  log : List (Nat × Nat × Byte) := []
  staging : Tbl Byte := []
  stagingLog : List (Nat × Nat × Byte) := []
  sets : Nat × List Rule := (0, [])
  snap0 : Tbl Byte := []
  snap1 : Tbl Byte := []
  snapCycle : Nat := 0
  snapWriting : Nat := 0
  /-- The snapshot being written has been published; PUBLISHED: some snapshot has been since the last reset. -/
  published : Bool := false
  ever : Bool := false
  deriving DecidableEq, Repr

/-! ### Flows (06_streams_redundancy.md) -/

/-- A flow context: its eight words (R173). All zero is FREE. -/
structure Ctx where
  w0 : Word := 0
  w1 : Word := 0
  w2 : Word := 0
  w3 : Word := 0
  w4 : Word := 0
  w5 : Word := 0
  w6 : Word := 0
  w7 : Word := 0
  deriving DecidableEq, Repr

/-- A latent profile (R199). -/
structure Latent where
  paths : Nat := 2
  diff : Nat := 0
  test : Nat := 2
  reset : Nat := 30
  deriving DecidableEq, Repr

/-- Per die: SWEEP_NO and the context of the most recent event (R205); skew: RECOVERYs in a skew episode (R197). -/
structure FlowDie where
  sweepNo : Nat := 0
  lastFlow : Nat := 0
  lastKind : Nat := 0
  skew : Tbl Bool := []
  deriving DecidableEq, Repr

/-! ### Queues (07_queues_shaping.md) -/

/-- Configuration of a queue context (R206). -/
structure QCfg where
  port : Nat := 0x3FF
  service : Nat := 0
  en : Bool := false
  shape : Bool := false
  spill : Bool := false
  weight : Nat := 1
  credit : Nat := 0
  burst : Nat := 0
  limit : Nat := 0
  deriving DecidableEq, Repr

/-- A shaper's or bucket's state (R208): TOKENS and LAST. -/
structure Bucket where
  tokens : Int := 0
  last : Nat := 0
  deriving DecidableEq, Repr

/-- Dynamic state of a queue (R206): shaper, DEFICIT, and its place in the deficit round (visited: it has had its quantum). -/
structure QDyn where
  b : Bucket := {}
  deficit : Nat := 0
  /-- Its visit in the round is under way: it has its quantum. -/
  visited : Bool := false
  /-- It was passed over and keeps its place before the others (R214). -/
  owed : Bool := false
  noWindow : Bool := false
  deriving DecidableEq, Repr

/-- Settings of a service (R213, R217). -/
structure SvcCfg where
  weighted : Bool := false
  sweight : Nat := 1
  sched : Bool := false
  meter : Nat := 0
  markDei : Bool := false
  on : Bool := false
  credit : Nat := 0
  burst : Nat := 0
  cir : Nat := 0
  pir : Nat := 0
  cbs : Nat := 0
  pbs : Nat := 0
  maxG : Nat := 0
  maxY : Nat := 0
  deriving DecidableEq, Repr

/-- Dynamic state of a service: shaper, deficit, meter buckets, and the deficit round of its subscribers. -/
structure SvcDyn where
  b : Bucket := {}
  deficit : Nat := 0
  visited : Bool := false
  tc : Bucket := {}
  tp : Bucket := {}
  /-- The queue whose turn it is (R214). -/
  turn : Nat := 0
  deriving DecidableEq, Repr

/-- A port shaper (R208): settings, then state. -/
structure PShape where
  on : Bool := false
  credit : Nat := 0
  burst : Nat := 0
  deriving DecidableEq, Repr

/-- Ingress account settings (R221, R222). -/
structure Ingress where
  mode : Nat := 0
  mask : Nat := 0
  pauseTime : Nat := 0
  hi : Nat := 0
  lo : Nat := 0
  max : Nat := 0
  deriving DecidableEq, Repr

/-- Die buffer settings (R218, R220, R223). -/
structure BufCfg where
  schedRes : Nat := 131072
  spillOn : Nat := 196608
  spillOff : Nat := 163840
  spillBase : Nat := 0
  spillSize : Nat := 0
  deriving DecidableEq, Repr

/-- A frame held on a die (R218, R37): its bytes as held, arrival port and account class, sequence number, flow, receive
timestamp, its reserve and shared cells, and the number of its copies on chip. -/
structure Frame where
  bytes : List Byte := []
  port : Nat := 0
  pcp : Option Nat := none
  num : Option Nat := none
  flow : Nat := 0
  tsTag : Nat := 0
  rx16 : Nat := 0
  res : Nat := 0
  shared : Nat := 0
  copies : Nat := 0
  deriving DecidableEq, Repr

/-- A copy of a frame in a queue (R185, R217, R220): the frame's key, whether it carries an R-TAG, its timestamp request,
its colour, and whether its bytes lie in the spill buffer. -/
structure Copy where
  frame : Nat
  rtag : Bool := false
  ts : Bool := false
  yellow : Bool := false
  spilled : Bool := false
  /-- The place of a stored copy of a CUT STREAM's frame that is still arriving (R179). -/
  wait : Bool := false
  deriving DecidableEq, Repr

/-- What a port is sending (R157, R166): the whole frame's bytes, the instant its preamble started (2^-16 ns), its class,
whether it is preemptible, the bytes already sent in earlier fragments and the bytes this fragment carries (none yet for a cut-through frame still
arriving). -/
structure Tx where
  /-- Those of a course frame are read while it is sent (R98) and stand here at its end. -/
  bytes : List Byte
  t16 : Nat
  cls : Nat
  pre : Bool := false
  sent : Nat := 0
  now : Nat
  /-- Fragments of the frame sent before this one. -/
  frags : Nat := 0
  cut : Bool := false
  /-- An outbound course frame: its index and its build. -/
  course : Option (Nat × Build) := none
  /-- Timestamp request: by the control cores, flow, tag. -/
  tsReq : Option (Bool × Nat × Nat) := none
  /-- The queue's copy that is being sent, with its queue. -/
  copy : Option (Nat × Copy) := none
  /-- A cut-through frame: the queue and service shapers its length is charged to at its end (R216). -/
  cutThrough : Option Nat := none
  /-- The start as it was timestamped, where line time has been stepped since (R55). -/
  stamp : Option Nat := none
  /-- The port's settings when the frame began, which hold to its end (R245). -/
  set : PortSet := {}
  /-- A cut-through frame: the length at which it is ended at the latest (R169), and the key of its arrival (R218). -/
  lim : Nat := 0
  key : Nat := 0
  /-- It has counted in OVERRUN (R160). -/
  overran : Bool := false
  deriving DecidableEq, Repr

/-- A frame of a STREAM with CUT set, from its decision instant to its end (R168, R179, R188): arrival, STREAM, number, the
charge taken, whether it was discarded, the copies cut through (queue, egress port) and those stored (queue, R-TAG). -/
structure CutIn where
  t16 : Nat
  flow : Nat
  /-- The STREAM as it was read at the decision (R176). -/
  ctx : Ctx := {}
  /-- The key of the stored copies' frame, whose places they hold. -/
  key : Nat := 0
  /-- Its transmitted-frame count at the decision, the TAG of its copies without a number (R73, R176). -/
  tag : Nat := 0
  num : Option Nat := none
  charge : Option Nat := none
  drop : Bool := false
  strip : Bool := false
  cuts : List (Nat × Nat × Bool) := []
  stores : List (Nat × Bool) := []
  deriving DecidableEq, Repr

/-- A frame of the control cores in a control slot (R215), with the tag of its timestamp request (R73). -/
structure CtlFrame where
  bytes : List Byte
  ts : Option Nat := none
  /-- A reply: the arguments of the COMMAND record that is written as it leaves (R296, R392). -/
  cmd : Option (List Nat) := none
  deriving DecidableEq, Repr

/-- A pause being timed for a class (R240 to R242): when it ends, since when the class has been paused without a break, and
until when pause frames are ignored after the watchdog. -/
structure Pause where
  until_ : Nat := 0
  since : Option Nat := none
  ignore : Nat := 0
  deriving DecidableEq, Repr

/-- Dynamic state of a port's transmitter and receiver: the frame on the line, the pending cut frame (R166), control slots by
class (R215), the flow control slot (R243), frames under reassembly (R167: bytes, arrival, fragment, symbol errors), received pause and PFC frames waiting for t_p
(R240), pauses by class, the XOFF accounts and when each is next refreshed (R222), and the cut-through frame arriving. -/
structure TxDyn where
  tx : Option Tx := none
  pend : Option Tx := none
  /-- Cut-through frames that have been ended at their limit while their arrival goes on (R169). -/
  ended : List Tx := []
  lineFree : Nat := 0
  /-- By class: the frame in the control slot, then those that wait for it. -/
  ctl : Tbl (List CtlFrame) := []
  mac : Option (List Byte) := none
  asm : Option (List Byte × Nat × Nat × Bool) := none
  rxPause : List (Nat × Nat) := []
  rxPfc : List (Nat × List Byte) := []
  pauses : Tbl Pause := []
  xoff : Nat := 0
  refresh : Tbl Nat := []
  cutIn : Option CutIn := none
  /-- The weighted service whose turn it is, in the group of express services and in the preemptible one (R213). -/
  deficitTurn : Nat := 0
  turnPre : Nat := 0
  deriving DecidableEq, Repr

/-- The time protocol messages of a port (R59): the last one taken with its receive timestamp (2^-16 ns), and those discarded. -/
structure Ptp where
  rx : Option (List Byte × Nat) := none
  discards : Nat := 0
  deriving DecidableEq, Repr

/-- Identification settings of a port (R181, R204, Kept GTZ): registers 0x320 and 0x324. -/
structure PortIdent where
  w0 : Word := 0
  dflt : Nat := 0
  deriving DecidableEq, Repr

/-- A port unit. -/
structure Port where
  set : PortSet := {}
  /-- Settings that a PORT_SET replaced, each with the instant (2^-16 ns) until which it was in force, newest first: frames that began
  to arrive before it are judged by it (R245). -/
  oldSets : List (Nat × PortSet) := []
  time : PortTime := {}
  ptp : Ptp := {}
  ident : PortIdent := {}
  link : Link := {}
  vset : ValveSet := {}
  list0 : VList := {}
  list1 : VList := {}
  valve : Valve := {}
  pre : Preempt := {}
  ccfg : CourseCfg := {}
  course : CourseDyn := {}
  inStat : InStatus := {}
  inFrame : Option InFrame := none
  ring : TsRing := {}
  shape : PShape := {}
  shapeB : Bucket := {}
  ing : Ingress := {}
  txd : TxDyn := {}
  deriving DecidableEq, Repr

/-! ### The mover (11_mover.md) -/

/-- A register set of a channel (R311, R325). ctrl holds word 0x14 without GO; its reset carries BURST 2 and SHARE 0xFF. -/
structure MSet where
  src : Nat := 0
  dst : Nat := 0
  count : Nat := 0
  ctrl : Word := 0x7F810000
  tag : Nat := 0
  deriving DecidableEq, Repr

/-- A scatter-gather entry fetched ahead (R316): its index, address and length, whether it ends the list, and the ending that an entry which
cannot be used brings: 6 for a bad one, 2 for one whose fetch has failed beyond RETRY; 0 for a good one. -/
structure SgEnt where
  idx : Nat
  addr : Nat := 0
  len : Nat := 0
  last : Bool := false
  err : Nat := 0
  deriving DecidableEq, Repr

/-- One side's scatter-gather list being consumed (R316): the next entry's address and index, whether nothing more is to be fetched, the
tries of the fetch in progress, the entries ahead, the entry in use (address, length, offset consumed, index), and whether it ends the
list. -/
structure SgSide where
  next : Nat := 0
  idx : Nat := 0
  done : Bool := false
  tries : Nat := 0
  ahead : List SgEnt := []
  addr : Nat := 0
  len : Nat := 0
  ofs : Nat := 0
  cur : Nat := 0
  last : Bool := false
  /-- The entries with bytes whose bytes are not all written: start position in the stream, index, length; newest first. -/
  used : List (Nat × Nat × Nat) := []
  deriving DecidableEq, Repr

/-- A transfer's progress (R314 to R321): bytes read and written, the bursts in flight (source address, length, tries), bytes
read and not yet written, retries, and how it ends once its bursts are done. -/
structure MXfer where
  read : Nat := 0
  written : Nat := 0
  flight : List (Nat × Nat × Nat) := []
  hold : List Byte := []
  retries : Nat := 0
  src : SgSide := {}
  dst : SgSide := {}
  ending : Option Nat := none
  fromShadow : Bool := false
  dropped : Bool := false
  fullRaised : Bool := false
  /-- It ended in a start check (R313). -/
  atStart : Bool := false
  deriving DecidableEq, Repr

/-- A mover channel (R310, R325). -/
structure Chan where
  act : MSet := {}
  shd : MSet := { ctrl := 0 }
  armed : Bool := false
  state : Nat := 0
  lastStatus : Nat := 0
  /-- ALLOW, and the CORE cycle it stands for (R317). -/
  allow : Nat := 0
  allowAt : Nat := 0
  x : MXfer := {}
  handover : Bool := false
  deriving DecidableEq, Repr

/-- A completion ring (R324). -/
structure MRing where
  baseLo : Word := 0
  baseHi : Word := 0
  cfg : Word := 0
  wr : Nat := 0
  rd : Nat := 0
  rseq : Nat := 0
  deriving DecidableEq, Repr

/-- Mover state of a die: the channels that the read and the write engine served last, and the most recent event's channel and kind (R314,
R326). -/
structure MDie where
  lastServed : Nat := 31
  lastWritten : Nat := 31
  lastCh : Nat := 0
  lastKind : Nat := 0
  deriving DecidableEq, Repr

/-! ### Twins and Hyith (09_twins_cascade.md) -/

/-- Twin roles, R253. -/
inductive Role where
  | off | follower | claiming | leader
  deriving DecidableEq, Repr

/-- A record of a twin frame (R268), its bytes without interpretation. -/
structure TwinRec where
  lane : Nat
  /-- Arrival of its last byte, or its queueing, in 2^-16 ns. -/
  t : Nat
  bytes : List Byte
  deriving DecidableEq, Repr

/-- A forwarded command waiting for its commit (R264): the packet's header target, words, opcode and instant. -/
structure Fwd where
  op : Nat
  h : CmdHdr
  w : List Word
  at_ : Nat
  deriving DecidableEq, Repr

/-- What a rollback puts back for a member (R301). -/
inductive Undo where
  | flow (f : Nat) (c : Ctx)
  | queue (q : Nat) (c : QCfg)
  | service (p s : Nat) (c : SvcCfg)
  | pshape (p : Nat) (c : PShape)
  | skew (f : Nat)
  | valve (p : Nat) (v : Valve)
  | latent (k : Nat) (l : Latent)
  deriving DecidableEq, Repr

/-- A member of a transaction. -/
structure Member where
  op : Nat
  h : CmdHdr
  w : List Word
  st : Nat
  held : List Held
  result : Nat := 4
  outcome : Nat := 0
  k : Nat := 0
  at_ : Nat := 0
  undo : List Undo := []
  applied : Bool := false
  /-- A reset, park or gate has ended a hold of this member (R299). -/
  lost : Bool := false
  deriving DecidableEq, Repr

/-- Twin state (R251 to R270, R279). -/
structure Twin where
  role : Role := .off
  sideB : Bool := false
  k : Nat := 4
  partnerDev : Nat := 0
  partnerMac : Tbl (Word × Word) := []
  claimEdge : Option Nat := none
  claimOut : Bool := false
  /-- BREATH_OUT is high, and the midpoint, in whole ns, at which it falls (R256). -/
  breathHigh : Option Nat := none
  breathIn : Option Nat := none
  pinSilent : Nat := 0
  linkSilent : Nat := 0
  pinSeen : Bool := false
  linkSeen : Bool := false
  pinLast : Bool := false
  linkLast : Bool := false
  lone : Bool := false
  wordSeen : Option Nat := none
  partner : Nat := 0
  fwRefresh : Nat := 0
  /-- TWIN_SET has been accepted since the last reset of the package. -/
  set : Bool := false
  /-- After a handover: the fail-over test of R258 with the claim as its only condition (R269). -/
  failover : Bool := false
  /-- The claim in progress is a fail-over, and the boundary CLAIMING was entered at. -/
  viaLoss : Bool := false
  claimAt : Nat := 0
  /-- This package has taken the merge authority at a handover and does not lead yet (R269). -/
  auth : Bool := false
  deriving DecidableEq, Repr

/-- Mirroring (R260 to R262): per die the run of matched cycles and MIRROR_OK; own and received digests of regions by cycle;
UNVERIFIED; records waiting to be used and to be sent; forwarded commands; handover boundary; axes still to be synchronised. -/
structure Mirror where
  okRun : Tbl Nat := []
  ok : Tbl Bool := []
  own : Tbl (Nat × Nat) := []
  got : Tbl (Nat × Nat) := []
  /-- By region: the line base cycle whose digests matched last, plus 1. -/
  matched : Tbl Nat := []
  /-- UNVERIFIED, its value up to the cycle before the last one judged, and that cycle; a cycle with a late taken record that has
  not been judged. -/
  lateCycle : Option Nat := none
  unverified : Nat := 0
  unvBase : Nat := 0
  judged : Option Nat := none
  recQ : List TwinRec := []
  txQ : List TwinRec := []
  /-- Record bytes queued for each lane in the line base cycle in progress. -/
  load : Tbl Nat := []
  fseq : Tbl Nat := []
  fwd : List Fwd := []
  /-- Forwarded commands of class Transaction done at their C, with what a rollback needs; none for one that failed (R304). -/
  fwdDone : List (Nat × Option Member) := []
  /-- The instant of the last AXSYNC record taken (R270). -/
  syncAt : Nat := 0
  handover : Option Nat := none
  syncing : Bool := false
  syncQ : List Nat := []
  withheld : Tbl Bool := []
  /-- Twin courses whose bank differs from the LEADER's, each from its swap's boundary on (R264). -/
  withholdAt : Tbl Nat := []
  deriving DecidableEq, Repr

/-- A Hyith link (R273 to R276, R280). -/
structure HLink where
  peerDev : Nat := 0
  peerDepth : Nat := 0
  rootPos : Nat := 0xFF
  rootDev : Nat := 0
  /-- Arrival of the last ROOT block with a position below this backup's (R276). -/
  belowAt : Option Nat := none
  wordAt : Option Nat := none
  sent : Nat := 0
  limit : Nat := 16
  rxLimit : Nat := 16
  /-- LIMIT as the last CREDIT block carried it. -/
  limitSent : Nat := 16
  ranges : List (Nat × Nat) := []
  /-- A ROOT block has arrived. -/
  heard : Bool := false
  /-- Command and reply frames waiting for credit, oldest first (R273). -/
  outQ : List CtlFrame := []
  deriving DecidableEq, Repr

/-- System settings and root state (R274, R276, R280). -/
structure Sys where
  devno : Nat := 0
  parent : Nat := 15
  standby : Nat := 15
  backups : List (Option Nat) := [none, none, none, none]
  masterTo : Nat := 20
  acting : Bool := false
  depthEp : Bool := false
  lostEp : Bool := false
  returnAt : Option Nat := none
  /-- The root of the time source as last heard: position x 2^18 + device number + 1. -/
  lastRoot : Nat := 0
  /-- The instant of the last SYS_SET, from which MASTER_TO counts where nothing has arrived. -/
  setAt : Nat := 0
  deriving DecidableEq, Repr

/-! ### Clocks, resets and power (13_clocks_resets_power.md) -/

/-- Clock states, R359. -/
inductive CState where
  | off | oscWait | lock | ramp | run | clockWait
  deriving DecidableEq, Repr

/-- The clock block and the clock state machine (R350 to R363, R372). -/
structure Clock where
  state : CState := .run
  refReed : Bool := false
  reedQual : Bool := true
  refOk : Bool := true
  sdsOk : Bool := true
  pciOk : Bool := true
  pllLock : Bool := true
  trimmed : Bool := false
  oscDly : Nat := 0
  tripped : Nat := 0
  freqWin : Nat := 0x14
  trim : Int := 0
  resid : Int := 0
  clkout : Word := 0
  meters : List Nat := [0, 0, 0, 0, 0, 0, 0, 0]
  meterSeq : Nat := 0
  outside : Tbl Nat := []
  rampDiv : Nat := 1
  /-- The PLL domains whose trip stands, as bits of MON_TRIPPED, until the PLL starts anew. -/
  domBad : Nat := 0
  /-- The reed's stop detector has tripped and the reed has not qualified since. -/
  reedStop : Bool := false
  fromTrip : Bool := false
  triedOther : Bool := false
  due : Nat := 0
  deriving DecidableEq, Repr

/-- A reed trim in progress (R355): the reference (none REFCLK, some uplink for marks), rounds done, the first mark (cycle number,
OFFSET, reed edges), the best code with its residual in 2^-20 ppm, and the line base cycles since the round began. -/
structure TrimRun where
  port : Option Nat
  rounds : Nat := 0
  mark : Option (Nat × Nat × Nat) := none
  best : Option (Int × Int) := none
  cycles : Nat := 0
  deriving DecidableEq, Repr

/-- An access of the host that a gate handshake holds at its region's boundary (R367). -/
inductive HeldAcc where
  | write (addr : Nat) (v : Word) (be : BitVec 4)
  | readLo (addr : Nat)
  | read (bar addr dwords : Nat)
  | staging (ofs : Nat) (data : List Word) (whole : Bool)
  | segPut (r : Nat) (v : Word)
  | tsTail (p : Nat) (v : BitVec 7)
  | w1c (loc : FaultLoc) (v : Word)
  deriving DecidableEq, Repr

/-- Region and die power states (R373): 0 running, 1 PARK or DIE-PARK, 2 reset, 3 handshake or entering or leaving. held: a
PKG or PIN reset or STANDBY of the package (R364, R370). gate: the handshake in progress, its deadline and the command (R368).
resetAt: issued resets and their instants. handover: the boundary at which command execution passes to the other pair, and the
reset (false) or DIE-PARK (true) of a die that waits for it (R28). ends: resets in progress and when their hold time ends (none
while RSTn is low). masks: detector masks and their ends (R342). leaving: scopes on their way out of a low-power state. -/
structure Power where
  rstCause : Nat := 0
  region : Tbl Nat := []
  die : Tbl Nat := []
  held : Option ResetKind := none
  active1 : Bool := false
  lockstep : Bool := true
  memError : Bool := false
  lastTarget : Nat := 0
  lastReason : Nat := 0
  lastPort : Nat := 0x3FF
  gate : Option (ResetKind × Nat × CmdHdr) := none
  /-- Bus accesses held at the boundary of a region in that handshake, in arrival order (R367). -/
  heldAcc : List HeldAcc := []
  resetAt : List (ResetKind × Nat) := []
  handover : Option (Nat × Option (Nat × Bool)) := none
  rejoin : Bool := false
  ends : List (ResetKind × Option Nat) := []
  masks : List (ResetKind × Option Nat) := []
  pinHeld : Bool := false
  leaving : List (ResetKind × Nat) := []
  deriving DecidableEq, Repr

/-! ### Security and update (14_security_update.md) -/

/-- One-time-programmable memory (R374). -/
structure Otp where
  part5124 : Bool := true
  siliconRev : Nat := 0
  serial : Nat := 0
  deviceKey : Nat := 0
  idValid : Bool := false
  keyHash : List Nat := [0, 0, 0, 0]
  keyProg : Nat := 0
  keyRevoked : Nat := 0
  rollback : Nat := 0
  deriving DecidableEq, Repr

/-- A staging slot (R381): state 0 empty, 1 STAGED, 2 VERIFIED, 3 FAILED, and its bytes. The slots lie in a part of die 0's
DDR4 whose place the spec does not give; they are held apart from it. -/
structure Slot where
  state : Nat := 0
  bytes : List Byte := []
  deriving DecidableEq, Repr

/-- Boot and update state (R377 to R389). image: the running image; bank: what the inactive code bank holds. ran: the running
firmware has done the work of R380. actPending: slot, B and k; flipped: between B and the resumption; trial: B; oldSlot: ACTIVE_SLOT
before the activation. staging: slot, bytes and host address; verifying: slot. -/
structure Sec where
  bootSrc : Nat := 1
  activeSlot : Nat := 0
  bootState : Nat := 5
  ran : Bool := true
  image : List Byte := []
  bank : List Byte := []
  bankLoaded : Bool := false
  bankSlot : Nat := 0
  actPending : Option (Nat × Nat × Nat) := none
  actReply : Option CmdHdr := none
  flipped : Bool := false
  oldSlot : Nat := 0
  trial : Option Nat := none
  slot0 : Slot := {}
  slot1 : Slot := {}
  bootErr : Nat := 0
  rptSeq : Nat := 0
  staging : Option (Nat × Nat × Nat) := none
  verifying : Option Nat := none
  /-- BOOT_STATE 4: the images loaded, by slot, in the order they are checked in. -/
  checking : List (Nat × Option (List Byte)) := []
  /-- Protocol answers that fell due between B and the resumption, by port and class (R383). -/
  due : List (Nat × Nat × CtlFrame) := []
  deriving DecidableEq, Repr

/-! ### Transactions (10_commands.md, R298 to R304) -/

/-- An open transaction: its path, timeout, members, and once accepted its commit instant and the commit's header. -/
structure Txn where
  id : Nat
  pcie : Bool
  path : Path
  opened : Nat
  expires : Nat
  members : List Member := []
  commit : Option (Nat × CmdHdr) := none
  failedAt : Option Nat := none
  rollback : Option Nat := none
  /-- The FOLLOWER has failed (R304). -/
  partnerFail : Bool := false
  deriving DecidableEq, Repr

/-! ### Board level -/

/-- The boundary-scan TAP (R400): the instruction in force. -/
structure Tap where
  inst : TapInstr := .idcode
  reset : Bool := true
  /-- The number of the free value that the cells of the chain hold. -/
  cells : Nat := 0
  deriving DecidableEq, Repr

/-- The levels of pins the model keeps (16_pins_electrical.md): TEST_EN, RSTn, PERSTn (true: high), TP routing is in pulse. -/
structure Pins where
  testEn : Bool := false
  rstn : Bool := true
  perstn : Bool := true
  deriving DecidableEq, Repr

/-- The DDR4 channel of a die (R425): trained, fitted size in GiB, doubled refresh, and the level of DDRd_RESET_n, high from
training until the next reset of the die (R410). -/
structure DdrChan where
  trained : Bool := true
  gib : Nat := 32
  hot : Bool := false
  resetN : Bool := true
  deriving DecidableEq, Repr

/-- PCIe endpoint (R364, R406): link up, and per function whether its configuration has been set since its last reset. -/
structure Pcie where
  up : Bool := true
  flr0 : Nat := 0
  flr1 : Nat := 0
  deriving DecidableEq, Repr

/-- The line base cycle (R79, Kept WK). -/
structure Line where
  baseCt : Nat := 62500
  anchor : Nat := 0
  /-- The last boundary whose work has been done; none after a step. -/
  last : Option Nat := none
  deriving DecidableEq, Repr

/-- The time-and-pulse part of a package. -/
structure Pulses where
  units : Tbl Pulse := []
  routes : Tbl Nat := []
  caps : Tbl Capture := []
  deriving DecidableEq, Repr

/-- The traffic memories of the dies: flow contexts, latent profiles (die x 8 + profile), queues, services (port x 8 + service),
frames held by key, the copies each queue holds, and the copies' next key. -/
structure Traffic where
  flows : Tbl Ctx := []
  latent : Tbl Latent := []
  fdie : Tbl FlowDie := []
  qcfg : Tbl QCfg := []
  qdyn : Tbl QDyn := []
  svc : Tbl (Option SvcCfg) := []
  svcDyn : Tbl SvcDyn := []
  buf : Tbl BufCfg := []
  frames : Tbl Frame := []
  held : Tbl (List Copy) := []
  nextKey : Nat := 0
  spilling : Tbl Bool := []
  lastQueue : Tbl Nat := []
  deriving DecidableEq, Repr

/-- The W1C and RC bits that events have set in the CTRL cycle in progress (R7): the cycle, and by register address the bits set in
it, or the events counted in it for a counter that clears on a read. -/
structure Fresh where
  cycle : Nat := 0
  bits : Tbl Word := []
  deriving DecidableEq, Repr

/-- The state of the package. -/
structure State where
  time : TimeBase := {}
  line : Line := {}
  pulse : Pulses := {}
  ports : Tbl Port := []
  lanes : Tbl Lane := []
  axes : Tbl Axis := []
  digests : Tbl Digest := []
  image : Image := {}
  reflex : List ReflexAct := []
  traffic : Traffic := {}
  /-- DDR4 bytes: key die x 2^36 + address. -/
  ddr : List Host.Cell := []
  ddrc : Tbl DdrChan := []
  chans : Tbl Chan := []
  rings : Tbl MRing := []
  mdies : Tbl MDie := []
  twin : Twin := {}
  mirror : Mirror := {}
  hlinks : Tbl HLink := []
  sys : Sys := {}
  fifo : Fifo := {}
  mgmtQ : List MgmtFrame := []
  hyithQ : List HyithFrame := []
  /-- Commands of a local path that were routed to another device and whose reply has not come back: header and opcode (R275). -/
  relayed : List (CmdHdr × Nat) := []
  txns : List Txn := []
  faults : Tbl FaultSrc := []
  vecs : Tbl Nat := []
  /-- By port: the dual-rail pairs its collector ignores (R329). -/
  rails : Tbl Nat := []
  /-- Sources whose event has occurred and awaits capture (R331). -/
  faultPend : List (FaultLoc × Nat) := []
  safety : Safety := {}
  clock : Clock := {}
  trimRun : Option TrimRun := none
  power : Power := {}
  otp : Otp := {}
  sec : Sec := {}
  trace : Trace := {}
  arch : Archive := {}
  tap : Tap := {}
  pins : Pins := {}
  pcie : Pcie := {}
  /-- Event registers, EVENT_EN registers and counters, by BAR0 offset; all reset to zero. -/
  regs : Tbl Word := []
  /-- HI words of 64-bit counters latched by a read of their LO word, by the LO word's offset (R238). -/
  hiLatch : Tbl Word := []
  fresh : Fresh := {}
  /-- The path the control cores served last (R295): 0 PCIe, 1 management ports, 2 Hyith links. -/
  served : Nat := 2
  /-- The model's own counter: each free value takes the next number. -/
  free : Nat := 0
  /-- The commands waiting, first in first out. -/
  pending : List Instr := []
  out : List Output := []
  deriving DecidableEq, Repr

/-- The package after POR and its boot flow: every field at its reset value, clocks running, the control cores executing. -/
def State.reset : State := {}

end Sys2Proof.Machine
end

