-- ==== Sys2Proof/Machine/Ops.lean ====
section
/-! DEFINITION. The named operations over the state: time, the tables, registers, counters, events and trace. -/

namespace Sys2Proof.Machine

/-! ### Line time -/

/-- The counter in 2^-41 ns wraps with its 48-bit seconds field (R43, R47). -/
def unitsWrap : Nat := 2 ^ 48 * 1000000000 * 2 ^ 41

/-- Line time in whole ns: SEC x 10^9 + NS. Die 1's copy of the counter, which R29 holds within 1 ns of it, is taken as equal to it
(DESIGN CHOICE, log entry 123). -/
def nowNs (s : State) : Nat := s.time.units / 2 ^ 41

/-- Line time in 2^-16 ns, the visible resolution (R47), on both dies (DESIGN CHOICE, log entry 123). -/
def now16 (s : State) : Nat := s.time.units / 2 ^ 25

/-- The first whole ns that line time has not passed: an instant of whole ns is earlier than now + x if and only if it is below this
+ x. -/
def nowUp (s : State) : Nat := (now16 s + 65535) / 65536

/-- FRAC of line time: bits [40:25] of the internal fraction. -/
def nowFrac (s : State) : Nat := now16 s % 65536

/-- Short time (R44). -/
def shortNs (s : State) : Nat := nowNs s % 2 ^ 32

/-- Line time runs on to ns t where it has not reached it: an event whose instant the spec fixes takes place at it (DESIGN
CHOICE, log entry 2). -/
def atNs (s : State) (t : Nat) : State :=
  { s with time := { s.time with units := max s.time.units (t * 2 ^ 41) } }

/-- The same for an instant in 2^-16 ns. -/
def at16 (s : State) (t : Nat) : State :=
  { s with time := { s.time with units := max s.time.units (t * 2 ^ 25) } }

/-! ### The parts of the package -/

def port (s : State) (p : Nat) : Port := s.ports.look p {}
def setPort (s : State) (p : Nat) (v : Port) : State := { s with ports := s.ports.put p v {} }
def modPort (s : State) (p : Nat) (f : Port → Port) : State := setPort s p (f (port s p))

def axis (s : State) (a : Nat) : Axis := s.axes.look a {}
def setAxis (s : State) (a : Nat) (v : Axis) : State := { s with axes := s.axes.put a v {} }
def modAxis (s : State) (a : Nat) (f : Axis → Axis) : State := setAxis s a (f (axis s a))

def lane (s : State) (q : Nat) : Lane := s.lanes.look q {}
def modLane (s : State) (q : Nat) (f : Lane → Lane) : State := { s with lanes := s.lanes.put q (f (lane s q)) {} }

def hlink (s : State) (u : Nat) : HLink := s.hlinks.look u {}
def modHlink (s : State) (u : Nat) (f : HLink → HLink) : State :=
  { s with hlinks := s.hlinks.put u (f (hlink s u)) {} }

def digest (s : State) (r : Nat) : Digest := s.digests.look r {}
def modDigest (s : State) (r : Nat) (f : Digest → Digest) : State :=
  { s with digests := s.digests.put r (f (digest s r)) {} }

/-- What leaves the package, newest first. -/
def emit (s : State) (o : Output) : State := { s with out := o :: s.out }

/-- The next free value's number, and the state that has used it. -/
def useFree (s : State) : State := { s with free := s.free + 1 }

/-! ### The part (R1, R2) -/

def nDies (s : State) : Nat := if s.otp.part5124 then 2 else 1
def hasDie (s : State) (d : Nat) : Bool := d < nDies s
def hasRegion (s : State) (r : Nat) : Bool := r < 4 * nDies s
def hasPort (s : State) (p : Nat) : Bool := if p < 512 then p < 256 * nDies s else p < 512 + 4 * nDies s
def hasAxis (s : State) (a : Nat) : Bool := a < 8192 * nDies s
def hasFlow (s : State) (f : Nat) : Bool := f < 524288 * nDies s
def hasQueue (s : State) (q : Nat) : Bool := q < 131072 * nDies s
def partNumber (s : State) : Nat := if s.otp.part5124 then 0x5124 else 0x2562

/-- The DDR4 channel of a die; a die the part lacks has none (R1). -/
def ddrChan (s : State) (d : Nat) : DdrChan := if hasDie s d then s.ddrc.look d {} else { trained := false, gib := 0, resetN := false }
def modDdrChan (s : State) (d : Nat) (f : DdrChan → DdrChan) : State :=
  { s with ddrc := s.ddrc.put d (f (ddrChan s d)) {} }

/-- SIZE_GIB in bytes (R425): 0 while the channel is not trained. -/
def ddrBytes (s : State) (d : Nat) : Nat := if (ddrChan s d).trained then (ddrChan s d).gib * 2 ^ 30 else 0

/-- Whether the part has a lane: QL0 to QL127, then the uplinks' lanes. -/
def hasLane (s : State) (q : Nat) : Bool := if q < 128 then q < 64 * nDies s else q < 128 + 4 * nDies s

/-- The ports and uplinks of the part. -/
def allPorts (s : State) : List Nat := (List.range (256 * nDies s)) ++ ((List.range (4 * nDies s)).map (512 + ·))

/-- The ports of a region. -/
def portsOf (r : Nat) : List Nat := (List.range 64).map (64 * r + ·)

/-- The keys a table lists. -/
def keys {α : Type} (t : Tbl α) : List Nat := t.map (·.1)

/-! ### Power states (R373) -/

def regionState (s : State) (r : Nat) : Nat := s.power.region.look r 0
def dieState (s : State) (d : Nat) : Nat := s.power.die.look d 0

/-- Whether a die is running: not in reset, DIE-PARK or on its way in or out, and no package reset or STANDBY held. -/
def dieRuns (s : State) (d : Nat) : Bool := dieState s d == 0 && s.power.held.isNone && !s.power.pinHeld

/-- Whether a region is running, the handshake of R368 included, on a running die. -/
def regionRuns (s : State) (r : Nat) : Bool :=
  dieRuns s (r / 4) && (regionState s r == 0 || regionState s r == 3)

/-- Whether a port's logic runs: its region, or its die for an uplink, runs and no PORT reset of it is held. -/
def portRuns (s : State) (p : Nat) : Bool :=
  (if p < 512 then regionRuns s (p / 64) else dieRuns s (dieOfPort p)) && !(s.power.ends.any fun e => e.1 == .port p)

/-- Whether the clock state machine is in RUN, so that CTRL and CORE run at full rate (R359). -/
def clocksRun (s : State) : Bool := s.clock.state == .run

/-- Whether a port can send anything of its own: link up, running, not squelched, transmitters not idle under clock-loss safe. -/
def canSend (s : State) (p : Nat) : Bool :=
  let x := port s p
  x.link.up && !x.link.squelched && !s.safety.clockSafe && portRuns s p && clocksRun s

/-- Whether CTRL runs, at full rate or in the divider ramp (R351, R353). -/
def ctrlRuns (s : State) : Bool := s.clock.state == .run || s.clock.state == .ramp

/-- Whether the die 0 FIFOs are lost or out of service: die 0 held or the package held (R28, R297). -/
def fifoDead (s : State) : Bool := !(dieRuns s 0)

/-- Whether firmware runs on the control cores, or the hardware paths that need no core run on between B and the resumption of an
activation (R377, R383, R364). -/
def coresUp (s : State) : Bool :=
  clocksRun s && s.power.held.isNone && !s.power.pinHeld && s.sec.bootState == 5

/-- Whether the control cores start commands and send messages (R295, R383). -/
def coresRun (s : State) : Bool := coresUp s && !s.sec.flipped

/-! ### Registers and counters (R237, R238) -/

def reg (s : State) (a : Nat) : Nat := (s.regs.look a 0).toNat
def setReg (s : State) (a v : Nat) : State := { s with regs := s.regs.put a (wd v) 0 }

/-- The register file with a counter raised by n. -/
def bump (r : Tbl Word) (a n : Nat) : Tbl Word := r.put a (wd ((r.look a 0).toNat + n)) 0

/-- Whether adding n to a 32-bit counter changes bit 31. -/
def crosses (r : Tbl Word) (a n : Nat) : Bool :=
  let o := (r.look a 0).toNat
  bit o 31 != bit ((o + n) % 2 ^ 32) 31

/-- The record and settings of a source. -/
def faultSrc (s : State) (l : FaultLoc) (i : Nat) : FaultSrc := s.faults.look (srcKey l i) {}

/-- The current level of a source (R334); its base level while its sticky bit is clear. -/
def curLevel (s : State) (l : FaultLoc) (i : Nat) : Nat :=
  let f := faultSrc s l i
  if f.sticky then min 3 (baseLevel l i + b2n f.t + b2n f.u) else baseLevel l i

/-- Whether the die bridge carries traffic: no BRIDGE_S condition stands (R27, R328). -/
def bridgeUp (s : State) : Bool := !((faultSrc s (.die 0) 12).cond || (faultSrc s (.die 1) 12).cond)

/-- The die whose control cores execute commands. -/
def coreDie (s : State) : Nat := if s.power.active1 then 1 else 0

/-! ### Bits set and cleared in one CTRL cycle (R7) -/

/-- The CTRL cycle in progress, of 5 ns (R350), counted on line time (DESIGN CHOICE, log entry 124). -/
def ctrlCycle (s : State) : Nat := nowNs s / 5

/-- What events have set at address a in the CTRL cycle in progress. -/
def freshAt (s : State) (a : Nat) : Nat := if s.fresh.cycle = ctrlCycle s then (s.fresh.bits.look a 0).toNat else 0

/-- The note that the value v at address a comes from this CTRL cycle. -/
def setFresh (s : State) (a v : Nat) : State :=
  let old := if s.fresh.cycle = ctrlCycle s then s.fresh.bits else []
  { s with fresh := { cycle := ctrlCycle s, bits := old.put a (wd v) 0 } }

/-- Bits at address a that an event sets now. -/
def markFresh (s : State) (a bs : Nat) : State := setFresh s a (freshAt s a ||| bs)

/-- The bits of v that a write in this CTRL cycle clears at address a. -/
def clears (s : State) (a v : Nat) : Nat := v &&& (0xFFFFFFFF ^^^ freshAt s a)

/-- An event that some B or E source will be captured for (R331). -/
def pendFault (s : State) (l : FaultLoc) (i : Nat) : State := { s with faultPend := s.faultPend ++ [(l, i)] }

/-! ### Trace (R391 to R395) -/

/-- Whether every trace record is dropped: die 0 in DIE reset or DIE-PARK, or its DDR4 reports DDR_FAIL (R395). -/
def traceDead (s : State) : Bool :=
  !(dieRuns s 0) || (faultSrc s (.die 0) 8).cond || (s.trace.size ≠ 0 && !(ddrChan s 0).trained)

/-- A record for the trace queue of die d, when its type is enabled and the ring or the Bell port is on (R392, R393). -/
def traceRec (s : State) (d ty addr : Nat) (args : List Nat) : State :=
  let t := s.trace
  let q := t.queue.look d []
  let on := bit t.mask (ty - 1) && (t.size ≠ 0 || t.bellOn)
  let lost := on && (512 ≤ q.length || traceDead s)
  { s with
    trace := if !on then t
      else if lost then { t with pend := t.pend.put d (sat32 (t.pend.look d 0 + 1)) 0 }
      else { t with queue := t.queue.put d (q ++ [{ type := ty, t16 := now16 s, addr := addr, args := args }]) [] }
    regs := if lost then bump s.regs 0x90014 1 else s.regs
    faultPend := if lost && crosses s.regs 0x90014 1 then s.faultPend ++ [(.package, 16)] else s.faultPend }

/-! ### Packets (R282, R283) -/

/-- A packet's words: header, parameters and CRC-32C. -/
def packet (flags op tag scope die region txid devno pt : Nat) (w : List Word) : List Word :=
  let hd := [wd (0x474D * 65536 + 0x0100 + flags), wd (op * 65536 + tag % 65536),
    wd ((w.length + 5) * 65536 + scope * 16384 + die * 4096 + region * 512 + txid * 2),
    wd (devno * 16384 + pt * 16)]
  let body := hd ++ w
  body ++ [wd (crc32c (wordsBe body))]

/-- Words stored in a ring of n words from position i on. -/
def ringStore (t : Tbl Word) (n i : Nat) (w : List Word) : Tbl Word :=
  (w.zipIdx).foldl (fun t e => t.put ((i + e.2) % n) e.1 0) t

/-! ### Event packets (R294) -/

/-- One packet of 9 words at EVT_WR, and its MSI-X message. -/
def evtPut (s : State) (op : Nat) (tg : Nat × Nat × Nat × Nat) (w : List Word) : State :=
  let f := s.fifo
  let p := packet 2 op f.evtSeq tg.1 tg.2.1 tg.2.2.1 0 s.sys.devno tg.2.2.2 w
  { s with
    fifo := { f with
      evt := ringStore f.evt 16384 f.evtWr p
      evtWr := (f.evtWr + 9) % 16384
      evtUsed := f.evtUsed + 9
      evtSeq := (f.evtSeq + 1) % 65536 }
    out := .msix f.evtVec :: s.out }

/-- Whether the event ring has 9 words free. -/
def evtRoom (f : Fifo) : Bool := f.evtUsed + 9 ≤ 16384

/-- The gap packet, as soon as 9 words free (R294). -/
def evtGap (s : State) : State :=
  if s.fifo.evtPend ≠ 0 && evtRoom s.fifo && !fifoDead s then
    let n := s.fifo.evtPend
    let s1 := evtPut s 0x0B11 (0, 0, 0, 0) [wd n, 0, wd (shortNs s), 0]
    { s1 with fifo := { s1.fifo with evtPend := 0 } }
  else s

/-- The bits of an event register that an event sets anew. -/
def newBits (s : State) (a bs : Nat) : Nat := bs &&& (0xFFFFFFFF ^^^ reg s a)

/-- The sources that newly set bits of an event register fire (R328). LINK fires on LINK_CHANGE only with LINK now down. -/
def bitSources (s : State) (a nb : Nat) : List (FaultLoc × Nat) :=
  ((List.range 32).filterMap fun i =>
    if bit nb i then
      match blkOf a, i with
      | .port p 0x024, 0 => if (port s p).link.up then none else bitSource (blkOf a) i
      | b, i => bitSource b i
    else none).eraseDups

/-- Event bits set in a register, with their trace record and the sources they fire; no event packet. -/
def raiseBits (s : State) (a bs : Nat) : State :=
  let s := markFresh s a bs
  let nb := newBits s a bs
  if nb = 0 then s
  else traceRec { s with
      regs := s.regs.put a (wd (reg s a ||| bs)) 0
      faultPend := s.faultPend ++ bitSources s a nb }
    (((blkOf a).dieOf).getD 0) 0x01 a [nb, reg s a ||| bs]

/-- A counter of a package block raised without an event of its own. -/
def countPkg (s : State) (a n : Nat) : State :=
  { s with
    regs := bump s.regs a n
    faultPend := if crosses s.regs a n then s.faultPend ++ [(.package, 16)] else s.faultPend }

/-- Parameters of the event packet of bits nb of register a. The level is the highest current level among the sources the bits fire, 0
where they fire none (DEDUCED, log entry 7). -/
def evtParams (s : State) (a nb : Nat) : List Word :=
  let lv := ((bitSources s a nb).map fun x => curLevel s x.1 x.2).foldl max 0
  [wd a, wd nb, wd (shortNs s), wd (nowFrac s + lv * 65536)]

/-- The event packets written in the CTRL cycle in progress. -/
def evtsNow (s : State) : List (Nat × Nat × Nat × Nat) := if s.fifo.evtNow.1 = ctrlCycle s then s.fifo.evtNow.2 else []

/-- The unread packet of register a from this CTRL cycle, which further bits of the cycle join (R294). -/
def evtJoin (s : State) (a : Nat) : Option (Nat × Nat × Nat × Nat) :=
  (evtsNow s).find? fun e => e.1 == a && decide ((s.fifo.evtWr + 16384 - e.2.2.1) % 16384 ≤ s.fifo.evtUsed)

/-- Bits nb joined to the packet e. -/
def evtGrow (s : State) (e : Nat × Nat × Nat × Nat) (nb : Nat) : State :=
  let bs := e.2.1 ||| nb
  let tg := blkTarget (blkOf e.1)
  let p := packet 2 0x0B10 e.2.2.2 tg.1 tg.2.1 tg.2.2.1 0 s.sys.devno tg.2.2.2 (evtParams s e.1 bs)
  { s with fifo := { s.fifo with
      evt := ringStore s.fifo.evt 16384 e.2.2.1 p
      evtNow := (ctrlCycle s, (e.1, bs, e.2.2) :: (evtsNow s).erase e) } }

/-- The event packet of newly set enabled bits, or its loss: one packet for the bits of one register and CTRL cycle (R294). -/
def eventPacket (s : State) (a nb : Nat) : State :=
  let s := evtGap s
  if fifoDead s then s
  else if let some e := evtJoin s a then evtGrow s e nb
  else if s.fifo.evtPend = 0 && evtRoom s.fifo then
    let s1 := evtPut s 0x0B10 (blkTarget (blkOf a)) (evtParams s a nb)
    { s1 with fifo := { s1.fifo with evtNow := (ctrlCycle s, (a, nb, s.fifo.evtWr, s.fifo.evtSeq) :: evtsNow s) } }
  else
    let s := { s with fifo := { s.fifo with evtPend := sat32 (s.fifo.evtPend + 1) } }
    let en := newBits s 0x70038 2 &&& reg s 0x7003C
    let s := raiseBits (countPkg s 0x70030 1) 0x70038 2
    if en = 0 then s else emit s (.msix s.fifo.evtVec)

/-- An event: its bits set, the record, the sources and, for enabled bits, the packet; those of the FIFO block write none and send its
interrupt alone (R294, R307; on EVT_VEC: DESIGN CHOICE, log entry 161). -/
def raise (s : State) (a bs : Nat) : State :=
  let nb := newBits s a bs
  let en := match enableAddr a with | some e => nb &&& reg s e | none => 0
  let s1 := raiseBits s a bs
  if en = 0 then s1
  else if a = 0x70038 then emit s1 (.msix s1.fifo.evtVec)
  else eventPacket s1 a en

/-- A half-range event of the counter at a, reported as R238 says. -/
def halfEvent (s : State) (a : Nat) : State :=
  match blkOf a with
  | .port p o =>
    let m := portBase p + 0x700 + 4 * (o / 128)
    raise (markFresh (setReg s m (reg s m ||| 2 ^ (o / 4 % 32))) m (2 ^ (o / 4 % 32))) (portBase p + 0x024) 8
  | .flow d _ => raise s (dieBase d + 0x8000) 16
  | .mover d _ => raise s (dieBase d + 0x12100) 64
  | .pkg 10 o => raise s (0xA000C + 0x100 * (o / 0x100)) 16
  | .traj r _ | .rstat r _ => pendFault s (.region r) 5
  | .coll c _ => pendFault s (.region (c / 4)) 5
  | .pkg _ _ => pendFault s .package 16
  | b => match b.dieOf with | some d => pendFault s (.die d) 13 | none => s

/-- A 32-bit counter raised by n (R237). -/
def count (s : State) (a n : Nat) : State :=
  let h := crosses s.regs a n
  let s1 := { s with regs := bump s.regs a n }
  if h then halfEvent s1 a else s1

/-- A 64-bit counter, LO word at a, raised by n; its half-range event is a change of bit 63 (R238). -/
def count64 (s : State) (a n : Nat) : State :=
  let o := reg s a + reg s (a + 4) * 2 ^ 32
  let v := (o + n) % 2 ^ 64
  let s1 := setReg (setReg s a v) (a + 4) (v / 2 ^ 32)
  if bit o 63 != bit v 63 then halfEvent s1 a else s1

/-- An event of port p's register at o. -/
def raisePort (s : State) (p o bs : Nat) : State := raise s (portBase p + o) bs

/-- A counter of port p at o. -/
def countPort (s : State) (p o n : Nat) : State := count s (portBase p + o) n

/-- A region event of axis a: the bit, and LAST_AXIS and LAST_KIND (R146). -/
def raiseTraj (s : State) (a k : Nat) : State :=
  let r := regionOfAxis a
  raise (modDigest s r fun d => { d with lastAxis := a % 2048, lastKind := k }) (regionBase r + 0xC010) (2 ^ k)

/-! ### DDR4 (R425, R4) -/

/-- A DDR4 byte of die d; zero where nothing has been written (DESIGN CHOICE, log entry 3). -/
def ddrGet (s : State) (d a : Nat) : Byte := Tbl.look s.ddr (d * 2 ^ 36 + a) 0
def ddrRead (s : State) (d a n : Nat) : List Byte := (List.range n).map fun i => ddrGet s d (a + i)

/-- The DDR4 cells with bytes l of die d stored from a on. -/
def ddrCells (m : List Host.Cell) (d a : Nat) (l : List Byte) : List Host.Cell :=
  l.zipIdx.foldl (fun m e => Tbl.put m (d * 2 ^ 36 + a + e.2) e.1 0) m

def ddrWrite (s : State) (d a : Nat) (l : List Byte) : State := { s with ddr := ddrCells s.ddr d a l }

/-- DDR4's canonical form: addresses strictly rising, no entry zero. -/
def Memory.wf (m : List Host.Cell) : Bool := Tbl.wf m 0

/-! ### The interface MSI-X of a status -/

/-- The vector of a status set (R347). -/
def vecOf (s : State) (l : FaultLoc) : Nat := s.vecs.look (locKey l) (vecReset l)

/-! ### Speed -/

/-- Sub-units of a ns in which every byte time is whole: 100 x 2^16. -/
def qPerNs : Nat := 6553600

/-- The byte time at SPEED_NOW code 1 to 5, in 1/6553600 ns (R147's b). -/
def byteQ (sp : Nat) : Nat :=
  match sp with
  | 1 => 800 * 6553600 | 2 => 80 * 6553600 | 3 => 8 * 6553600 | 4 => 5242880 | 5 => 2097152 | _ => 8 * 6553600

/-- MODE, SPEED and the other fields of word 0x000 of a port. -/
def pMode (p : Port) : Nat := bits p.set.w0.toNat 1 0
def pSpeed (p : Port) : Nat := bits p.set.w0.toNat 3 2
def pMgmt (p : Port) : Bool := bit p.set.w0.toNat 6
def pRxFc (p : Port) : Nat := bits p.set.w0.toNat 8 7
def pAdmin (p : Port) : Bool := bit p.set.w0.toNat 9
def pMgmtClass (p : Port) : Nat := bits p.set.w0.toNat 12 10
def pMaxFrame (p : Port) : Nat := bits p.set.w1.toNat 13 0
def pDefVid (p : Port) : Nat := bits p.set.w2.toNat 11 0
def pDefPcp (p : Port) : Nat := bits p.set.w2.toNat 14 12
def pExempt (p : Port) : Nat := bits p.set.w3.toNat 7 0
def pPauseWd (p : Port) : Nat := bits p.set.w3.toNat 17 8

/-- The port's MAC address, six bytes. -/
def pMac (p : Port) : List Byte := be 2 p.set.macHi.toNat ++ be 4 p.set.macLo.toNat

/-- The planned speed of a port, as a SPEED_NOW code (R429). -/
def plannedSpeed (n : Nat) (p : Port) : Nat :=
  if n < 512 then (if pMode p = 2 then 3 else pSpeed p + 1)
  else if pMode p = 1 then 4 else 5

/-- The byte time for configuration checks (R96, R170), in 1/6553600 ns. -/
def planQ (n : Nat) (p : Port) : Nat := byteQ (plannedSpeed n p)

/-- The byte time on the line now: that of the link's speed, or the planned one while the link is down. -/
def lineQ (n : Nat) (p : Port) : Nat := if p.link.speed = 0 then planQ n p else byteQ p.link.speed

/-- Whether a drive port launches course frames: its course is in RUN or SAFE (R54). -/
def launches (p : Port) : Bool := p.course.state == 2 || p.course.state == 3

/-- Whether any port of the package launches course frames (R54). -/
def anyCourse (s : State) : Bool := s.ports.any fun e => launches e.2

/-- The outcome of a step that goes on. -/
abbrev Out := Host.Outcome State Fault Refusal

end Sys2Proof.Machine
end

