-- ==== Sys2Proof/Machine/Command.lean ====
section
/-! DEFINITION. What every command goes through: the header tests of R285 from step 5 on, routing (R275), authority (R264,
R275, R387), holds (R299), and its reply (R286, R293, R236). -/

namespace Sys2Proof.Machine

/-- A command's effect: the state after it and its reply. -/
abbrev Body := CmdHdr → List Word → State → State × Reply

/-- The arrival port of a COMMAND record. -/
def pathPort : Path → Nat
  | .pcie => 0 | .mgmt p _ _ => p | .hyith u _ => 512 + u
def pathCode : Path → Nat
  | .pcie => 0 | .mgmt .. => 1 | .hyith .. => 2

/-- Scopes an opcode accepts, as the bits of a mask over SCOPE 0 to 3 (R306). -/
def opScopes (op : Nat) : Nat :=
  match op with
  | 0x0204 => 6 | 0x0205 => 7 | 0x0908 => 10
  | 0x0B01 | 0x0B02 | 0x0B03 => 15
  | 0x0709 => 4
  | 0x0405 | 0x0406 | 0x040B | 0x0805 | 0x0904 | 0x0905 | 0x0907 | 0x0E03 | 0x0E05 => 8
  | 0x060B => 1
  | op =>
    if op / 256 = 3 ∨ op / 256 = 5 ∨ op / 256 = 6 then 8
    else if op / 256 = 8 ∨ op / 256 = 9 then 2 else 1

/-- The kind of port an opcode requires: 1 a drive port, 2 an uplink, 0 either (R306). -/
def opPortKind (op : Nat) : Nat :=
  if op = 0x0405 ∨ op = 0x0E03 ∨ op = 0x0E05 then 2
  else if 0x0601 ≤ op ∧ op ≤ 0x060A then 1 else 0

/-- Opcodes of class Transaction that a command may be on its own (R303). -/
def opIsTxn (op : Nat) : Bool :=
  [0x0505, 0x0506, 0x0507, 0x0606, 0x0607, 0x0609, 0x060A, 0x0705, 0x0707, 0x0807, 0x0A05, 0x0E04].contains op

/-- Opcodes that may join a transaction (R298, R306). -/
def opJoins (op : Nat) : Bool :=
  opIsTxn op || [0x0802, 0x0803, 0x0804, 0x0902, 0x0904, 0x0905].contains op

/-- Query opcodes, on which QUIET has no effect (R286). -/
def opIsQuery (op : Nat) : Bool :=
  [0x0101, 0x0102, 0x0201, 0x0301, 0x0307, 0x0401, 0x0501, 0x0504, 0x0509, 0x0601, 0x0701, 0x0709, 0x0801, 0x0808,
   0x0809, 0x0901, 0x0908, 0x0A01, 0x0B01, 0x0C01, 0x0D02, 0x0D04, 0x0E01, 0x0E05, 0x0E10, 0x0E12, 0x0E13].contains op

/-- The number of set bits among the n low bits of x. -/
def popcount (n x : Nat) : Nat := ((List.range n).filter (bit x)).length

/-- Whether a packet's parameter words are as many as its opcode and count fields give (R285 step 10, R306). -/
def lenOk (s : State) (op : Nat) (w : List Word) : Bool :=
  let n := w.length
  match op with
  | 0x0102 => n ≤ 256
  | 0x0302 | 0x0402 | 0x0407 => n == 7
  | 0x0305 => n == 2
  | 0x0307 | 0x0406 | 0x0602 | 0x0607 | 0x0609 | 0x0A05 | 0x0E04 | 0x0B02 | 0x0806 => n == 3
  | 0x0202 | 0x0203 | 0x0204 | 0x0205 | 0x0206 | 0x0306 | 0x0403 | 0x0404 | 0x0405 | 0x0408 | 0x0409 | 0x040A | 0x040B
  | 0x0508 | 0x0701 | 0x0704 | 0x0706 | 0x0707 | 0x0B03 | 0x0B05 | 0x0C03 | 0x0C06 | 0x0E10 | 0x0E12 | 0x0E13 => n == 1
  | 0x0502 | 0x0505 | 0x0D01 => n == 5
  | 0x0503 => 2 ≤ n && n == 2 + 2 * fld w 1 23 13
  | 0x0504 | 0x0805 | 0x0B04 => n == 2
  | 0x0506 | 0x0606 | 0x060B | 0x0905 | 0x0907 | 0x0C02 | 0x0C04 | 0x0D03 => n == 4
  | 0x0601 => 1 ≤ n && n == 1 + (fld w 0 7 0 + 3) / 4
  | 0x0603 => 1 ≤ n && n == 1 + fld w 0 18 10
  | 0x0604 => 1 ≤ n && n == 1 + 4 * popcount 8 (fld w 0 9 2)
  | 0x0605 => 1 ≤ n && n == 1 + fld w 0 16 9
  | 0x0702 => n == 21
  | 0x0703 => 1 ≤ n && n == 1 + 5 * popcount 4 (fld w 0 17 14)
  | 0x0705 => if (axis s (fld w 0 13 0)).cfg.direct then n == 1 else n == 6
  | 0x0708 => 2 ≤ n && n == 2 + 16 * fld w 1 21 17
  | 0x0801 => if bit (prm w 0) 0 then n == 6 else n == 2
  | 0x0802 | 0x0803 => 1 ≤ n && n == 1 + 9 * fld w 0 4 0
  | 0x0804 | 0x0807 | 0x0808 | 0x0901 | 0x0903 => 1 ≤ n && n == 1 + fld w 0 4 0
  | 0x0809 => if bit (prm w 0) 0 then n == 6 else n == 1
  | 0x0902 => 1 ≤ n && n == 1 + 5 * fld w 0 4 0
  | 0x0904 => n == 12
  | 0x0906 | 0x0E02 | 0x0E11 => n == 6
  | 0x0A02 => n == 10
  | 0x0C05 => n == 8
  | 0x0E03 => 1 ≤ n && n == 1 + 2 * fld w 0 3 0
  | _ => n == 0

/-- R284: the target fields agree with SCOPE, and no field holds a value outside its range. -/
def targetAgrees (h : CmdHdr) : Bool :=
  match h.scope with
  | 0 => h.die == 0 && h.region == 0 && h.port == 0
  | 1 => h.die ≤ 1 && h.region == 0 && h.port == 0
  | 2 => h.region ≤ 7 && h.die == h.region / 4 && h.port == 0
  | 3 => h.port < 520 && h.die == dieOfPort h.port && h.region == (if h.port < 512 then h.port / 64 else 0)
  | _ => false

/-- Whether the part has a command's target (R2, R285 step 9). -/
def targetPresent (s : State) (h : CmdHdr) : Bool :=
  match h.scope with
  | 1 => hasDie s h.die | 2 => hasRegion s h.region | 3 => hasPort s h.port | _ => true

/-- The origin device number of a command: its own for the local paths (R275). -/
def originOf (s : State) (h : CmdHdr) : Nat :=
  match h.path with | .hyith _ o => o | _ => s.sys.devno

/-- The device number of an acting root this package has heard of (R276). -/
def actingRoot (s : State) : Option Nat :=
  if s.sys.acting then some s.sys.devno
  else (s.hlinks.find? fun e => 1 ≤ e.2.rootPos && e.2.rootPos ≤ 4).map (·.2.rootDev)

/-- Whether a relayed command's origin may command this package (R275): the master, the acting root or the twin. -/
def originOk (s : State) (o : Nat) : Bool :=
  o == 0 || actingRoot s == some o || (s.twin.role != .off && s.twin.partnerDev == o)

/-- The commands a LEADER forwards (R264): a FOLLOWER takes them as records of its twin link, which no header test meets, and from no
other path. -/
def forwarded (s : State) (op : Nat) (h : CmdHdr) : Bool :=
  s.twin.role != .off &&
  ([0x0705, 0x0706, 0x0707, 0x0703, 0x0704].contains op ||
   ([0x0607, 0x0608, 0x0609, 0x060A].contains op && (port s h.port).ccfg.plane == 3))

/-- R387: whether the path may give a security command. -/
def secPathOk (s : State) (op : Nat) (h : CmdHdr) : Bool :=
  match op, h.path with
  | 0x0C02, .pcie | 0x0C06, .pcie => true
  | 0x0C02, _ | 0x0C06, _ => false
  | 0x0C03, .mgmt .. | 0x0C04, .mgmt .. => false
  | 0x0C03, .hyith _ o | 0x0C04, .hyith _ o => o == 0 || actingRoot s == some o
  | _, _ => true

/-- What a command would change (R299). -/
def unitsOf (op : Nat) (h : CmdHdr) (w : List Word) : List Held :=
  let ids := (List.range (min 16 (fld w 0 4 0)))
  match op with
  | 0x0302 | 0x0303 | 0x0304 | 0x0308 | 0x0405 | 0x0406 | 0x040B | 0x0E03 | 0x0502 | 0x0503 | 0x0505 | 0x0506 | 0x0507 | 0x0508 | 0x0602
  | 0x0603 | 0x0604 | 0x0605 | 0x0606 | 0x0607 | 0x0608 | 0x0609 | 0x060A | 0x0805 | 0x0905 | 0x0907 => [.port h.port]
  | 0x0305 | 0x0306 => if h.port < 512 then (List.range 4).map fun i => .port (4 * (h.port / 4) + i) else [.port h.port]
  | 0x0A02 => [.port 514, .port 515, .port 518, .port 519]
  | 0x0307 => if bit (prm w 0) 0 then [.port h.port] else []
  | 0x0808 => if bit (prm w 0) 31 then ids.map fun i => .flow (fld w (1 + i) 19 0) else []
  | 0x0904 => [.service h.port (fld w 0 2 0)]
  | 0x0702 | 0x0703 | 0x0704 | 0x0705 | 0x0706 | 0x0707 => [.axis (fld w 0 13 0)]
  | 0x0708 => if bit (prm w 0) 14 then [.axis (fld w 0 13 0)] else []
  | 0x0407 | 0x0408 => [.pulse (fld w 0 4 0)]
  | 0x0803 => ids.map fun i => .flow (fld w (1 + 9 * i) 19 0)
  | 0x0804 | 0x0807 => ids.map fun i => .flow (fld w (1 + i) 19 0)
  | 0x0902 => ids.map fun i => .queue (fld w (1 + 5 * i) 17 0)
  | 0x0903 => ids.map fun i => .queue (fld w (1 + i) 17 0)
  | 0x0906 => [.buffer h.die]
  | 0x0A05 | 0x0E04 => [.package]
  | _ => []

/-- What a command would change: of a plane pair, the other plane's port too (R103, R299). -/
def unitsIn (s : State) (op : Nat) (h : CmdHdr) (w : List Word) : List Held :=
  let c := (port s h.port).ccfg
  unitsOf op h w ++
    (if 0x0606 ≤ op ∧ op ≤ 0x060A ∧ (c.plane = 1 ∨ c.plane = 2) then [.port c.partner] else [])

/-- The open transaction a TXID names on a command's path; with sched also one whose commit has been accepted (R298). -/
def findTxn (s : State) (h : CmdHdr) (id : Nat) (sched : Bool) : Option Txn :=
  s.txns.find? fun t => t.id == id && pathCode t.path == pathCode h.path && (sched || t.commit.isNone)

def modTxn (s : State) (id : Nat) (f : Txn → Txn) : State :=
  { s with txns := s.txns.map fun t => if t.id = id then f t else t }

/-- The number of members a transaction may hold (R298). -/
def txnLimit (t : Txn) : Nat := if t.pcie then 1024 else 160

/-- A member added to a transaction. A failed one bars its commit (R299). -/
def addMember (s : State) (id : Nat) (m : Member) (failed : Bool) : State :=
  modTxn s id fun t =>
    let n := t.members.length + 1
    { t with
      members := if txnLimit t < n then t.members else t.members ++ [m]
      failedAt := if failed then (match t.failedAt with | some x => some x | none => some n) else t.failedAt }

/-- A member that fails before its own checks (R299): recorded, with its status. -/
def failMember (s : State) (h : CmdHdr) (op : Nat) (w : List Word) (st : Nat) : State :=
  if h.txn then addMember s h.txid { op := op, h := h, w := w, st := st, held := [], result := 3, outcome := st } true else s

/-- Whether another open transaction holds something a command would change (R299). -/
def busy (s : State) (h : CmdHdr) (us : List Held) : Bool :=
  s.txns.any fun t => !(h.txn && t.id == h.txid) &&
    t.members.any fun m => m.held.any fun x => us.contains x

/-- A die, as LAST_TARGET numbers it, that is stopped, or that a down die bridge cuts off from die v (R27, R369). -/
def dieStop (s : State) (v d : Nat) : Option Nat := if dieRuns s d && (d == v || bridgeUp s) then none else some (8 + d)

/-- A region, or its die, that is stopped or cut off from die v. -/
def regionStop (s : State) (v r : Nat) : Option Nat :=
  match dieStop s v (r / 4) with
  | some x => some x
  | none => if regionRuns s r then none else some r

/-- The region or die, as LAST_TARGET numbers it, that holds a unit and is stopped or out of the control cores' reach (R27,
R369). -/
def unitStop (s : State) (u : Held) : Option Nat :=
  let v := coreDie s
  match u with
  | .port p | .service p _ => if p < 512 then regionStop s v (p / 64) else dieStop s v (dieOfPort p)
  | .axis a => regionStop s v (regionOfAxis a)
  | .flow f => dieStop s v (dieOfFlow f)
  | .queue q => dieStop s v (dieOfQueue q)
  | .buffer d => dieStop s v d
  | .pulse _ | .package => none

/-- What a query reads besides its target. -/
def readUnits (op : Nat) (w : List Word) : List Held := if op = 0x0701 ∨ op = 0x0708 then [.axis (fld w 0 13 0)] else []

/-- The region or die that a command reaches and that is stopped (R369). PARK_SET and RESET_ISSUE reach a stopped target;
bonds, descriptors and safe images are reached on their die (R95; DEDUCED, log entry 19). -/
def stoppedTarget (s : State) (op : Nat) (h : CmdHdr) (w : List Word) : Option Nat :=
  if op = 0x0204 ∨ op = 0x0205 then none
  else if 0x0602 ≤ op ∧ op ≤ 0x0605 then unitStop s (.buffer (dieOfPort h.port))
  else
    let t : List Held := match h.scope with
      | 1 => [.buffer h.die] | 2 => [.port (64 * h.region)] | 3 => [.port h.port] | _ => []
    (t ++ unitsIn s op h w ++ readUnits op w).findSome? (unitStop s)

/-- An access error (R369): counted, raised, its target in LAST_TARGET. -/
def accessErr (s : State) (target : Nat) : State :=
  let s1 := count s 0x20018 1
  raise { s1 with power := { s1.power with lastTarget := target, lastReason := 0, lastPort := 0x3FF } } 0x2000C 4

/-! ### Register accesses of the host (R23, R351, R369, R427) -/

/-- The region or die in whose window a block lies, where it is stopped, or out of the reach of the endpoint on die 0 (R27). -/
def busStop (s : State) (b : Blk) : Option Nat :=
  match b.regionOf with
  | some r => if hasRegion s r then regionStop s 0 r else none
  | none => match b.dieOf with
    | some d => if hasDie s d then dieStop s 0 d else none
    | none => none

/-- Whether a block is reached while CTRL is stopped: the SLOW domain's (R351, R424). -/
def inSlow : Blk → Bool
  | .pkg b _ => b ≤ 3
  | _ => false

/-- Whether the part has a block (R2). -/
def blkPresent (s : State) (b : Blk) : Bool :=
  match b with
  | .reserved => false
  | b => match b.dieOf with | some d => hasDie s d | none => true

/-- Whether a block answers while the control cores run no firmware: the SLOW blocks and the security block (R377). -/
def inBoot : Blk → Bool
  | .pkg b _ => b ≤ 3 || b == 8
  | _ => false

/-- What a host access to a block meets: none where it goes through, else the state after the error response. With the link down,
as in a PIN reset, none arrives (R364, R406). While die 0 is held the endpoint serves the SLOW blocks alone (R28; the target recorded
is die 0, DEDUCED, log entry 46); reserved space meets no later test (R427). -/
def busError (s : State) (b : Blk) : Option State :=
  if !s.pcie.up then some s
  else match busStop s b with
  | some t => some (accessErr s t)
  | none =>
    if !(inSlow b) && !(dieRuns s 0) then some (accessErr s 8)
    else if !(blkPresent s b) then none
    else if (!(inSlow b) && !(ctrlRuns s)) || (!(inBoot b) && s.sec.bootState != 5) then some (count s 0x20018 1)
    else none

/-- A posted write of the host to the register at a: effect f, unless the access meets an error response or reserved space. -/
def busWrite (s : State) (a : Nat) (f : State → State) : State :=
  match busError s (blkOf a) with
  | some e => e
  | none => if blkPresent s (blkOf a) then f s else s

/-- A read of the host of the register at a, with its side effects f; reserved space reads zero (R427). -/
def busRead (s : State) (a : Nat) (f : State → State) : State :=
  match busError s (blkOf a) with
  | some e => if s.pcie.up then emit e (.completerAbort 0 a) else e
  | none => if blkPresent s (blkOf a) then f s else emit s (.read [0])

/-! ### Replies -/

/-- An Ethernet frame of EtherType 0x88B5: addresses, tag, payload padded to 64 bytes, FCS. -/
def frame88B5 (da sa : List Byte) (tag : List Byte) (pl : List Byte) : List Byte :=
  let b := da ++ sa ++ tag ++ be 2 0x88B5 ++ pl
  let b := b ++ List.replicate (60 - b.length) 0
  b ++ fcs b

/-- The VLAN tags of a reply: the command's, with PCP of the outer one replaced by MGMT_CLASS (R236). -/
def replyTag (p : Port) (tags : List Byte) : List Byte :=
  if tags.isEmpty then [] else tags.take 2 ++ be 2 (pMgmtClass p * 8192 + beAt tags 2 2 % 8192) ++ tags.drop 4

/-- A frame put into a control slot of port p, behind those that wait for it (R73, R215). -/
def ctlAdd (s : State) (p c : Nat) (f : CtlFrame) : State :=
  modPort s p fun x => { x with txd := { x.txd with ctl := x.txd.ctl.put c (x.txd.ctl.look c [] ++ [f]) [] } }

/-- The same with the tag of its timestamp request. -/
def ctlPutTs (s : State) (p c : Nat) (f : List Byte) (ts : Option Nat) : State := ctlAdd s p c { bytes := f, ts := ts }

def ctlPut (s : State) (p c : Nat) (f : List Byte) : State := ctlPutTs s p c f none

/-- The relay prefix of R275. -/
def relayPrefix (origin hops : Nat) : List Byte := be 4 (hops % 16 * 2 ^ 18 + origin % 2 ^ 18)

/-- A packet with its relay prefix queued for an uplink, a reply of this package's with its COMMAND record (R273, R275). -/
def hyithPut (s : State) (u origin hops : Nat) (pk : List Byte) (cmd : Option (List Nat)) : State :=
  let f := frame88B5 (List.replicate 6 0xFF) (pMac (port s (512 + u))) [] (relayPrefix origin hops ++ pk)
  modHlink s u fun l => { l with outQ := l.outQ ++ [{ bytes := f, cmd := cmd }] }

def hyithSend (s : State) (u origin hops : Nat) (pk : List Byte) : State := hyithPut s u origin hops pk none

/-- The uplink toward a device number: the child link whose ranges hold it, else PARENT; none at an acting root (R275). Ranges given to an
uplink that runs as a twin lane route like any others (DESIGN CHOICE: R32 keeps such an uplink out of the tree and names no rejection;
log entry 166). -/
def routeTo (s : State) (dev : Nat) : Option Nat :=
  match s.hlinks.find? fun e => e.2.ranges.any fun r => r.1 ≤ dev && dev ≤ r.2 with
  | some e => some e.1
  | none => if s.sys.parent < 8 && !s.sys.acting then some s.sys.parent else none

/-- A reply written whole to the reply ring, RPL_WR moved past it, one MSI-X message (R293). -/
def rplPut (s : State) (pk : List Word) : State :=
  { s with
    fifo := { s.fifo with
      rpl := ringStore s.fifo.rpl 65536 s.fifo.rplWr pk
      rplWr := (s.fifo.rplWr + pk.length) % 65536 }
    out := .msix s.fifo.rplVec :: s.out }

/-- The reply packet of a command (R286). TXN_COMMIT's parameters follow every status of R302 (DEDUCED, log entry 17). -/
def replyPacket (s : State) (h : CmdHdr) (op : Nat) (r : Reply) : List Word :=
  packet 1 op h.tag.toNat h.scope h.die h.region 0 s.sys.devno h.port
    (r.status :: (if r.st ≤ 1 ∨ op = 0x0E11 then r.w else []))

/-- The arguments of a command's COMMAND record (R391). -/
def cmdArgs (s : State) (h : CmdHdr) (op : Nat) (r : Reply) : List Nat :=
  [op * 65536 + h.tag.toNat, r.st * 2 ^ 24 + pathCode h.path * 65536 + pathPort h.path, originOf s h]

/-- The COMMAND record of a reply that becomes visible (R296, R392). -/
def traceCmd (s : State) (a : List Nat) : State := traceRec s 0 0x07 0x70000 a

/-- The record of a frame's first byte, where the frame is a reply. -/
def traceFirst (s : State) (cmd : Option (List Nat)) : State := match cmd with | some a => traceCmd s a | none => s

/-- The reply sent on the command's path; the relay prefix of one that goes back over Hyith carries the origin it goes to
(DEDUCED, log entry 41). Its COMMAND record is written as it becomes visible: in the reply ring now, on a frame path when its first
byte leaves (R296, R392). QUIET suppresses an OK reply, except of a query or a member (R286). While die 0 is held its FIFOs carry no
reply (R28). -/
def deliver (s : State) (h : CmdHdr) (op : Nat) (r : Reply) : State :=
  if h.quiet && r.st == 0 && !(opIsQuery op) && !h.txn then s
  else
    let pk := replyPacket s h op r
    let a := cmdArgs s h op r
    match h.path with
    | .pcie => if fifoDead s then s else traceCmd (rplPut s pk) a
    | .mgmt p sa tags =>
      ctlAdd s p (pMgmtClass (port s p))
        { bytes := frame88B5 (be 6 sa.toNat) (pMac (port s p)) (replyTag (port s p) tags) (wordsBe pk), cmd := some a }
    | .hyith u o => hyithPut s ((routeTo s o).getD u) o 0 (wordsBe pk) (some a)

/-- Whether the control slot that command frames take on uplink u is free: none waits there, or for credit (R215, R273). -/
def hySlot (s : State) (u : Nat) : Bool :=
  (hlink s u).outQ.isEmpty && ((port s (512 + u)).txd.ctl.look (pMgmtClass (port s (512 + u))) []).isEmpty

/-- Whether the control cores may take a command from a path now: 4,096 words of the reply ring free (R293), or the control
slot of the reply free (R215). -/
def canTake (s : State) (h : CmdHdr) : Bool :=
  match h.path with
  | .pcie => !(fifoDead s) && 4096 ≤ 65536 - (s.fifo.rplWr + 65536 - s.fifo.rplRd) % 65536
  | .mgmt p _ _ => ((port s p).txd.ctl.look (pMgmtClass (port s p)) []).isEmpty
  | .hyith u o => hySlot s ((routeTo s o).getD u)

/-- The same for a packet: where it goes on to another device, that link's slot must be free too. -/
def hasRoom (s : State) (h : CmdHdr) : Bool :=
  canTake s h && (h.devno == s.sys.devno || (routeTo s h.devno).all (hySlot s))

/-- A packet whose DEVNO is another device's is routed, its own device number as origin, hop count 1 (R284, R275). At a root
with no matching range the root answers TARGET_ABSENT. -/
def routePacket (s : State) (h : CmdHdr) (op : Nat) (hops : Nat) (pk : List Byte) : State :=
  match routeTo s h.devno with
  | none => deliver s h op (.err stAbsent)
  | some u =>
    if 12 ≤ hops + 1 then count s (0xA0030 + 0x100 * u) 1
    else
      let s := match h.path with | .hyith _ _ => s | _ => { s with relayed := s.relayed ++ [(h, op)] }
      hyithSend s u (originOf s h) (hops + 1) pk

/-- Steps 5 and 8 to 11 of R285, in order: the reply of the first test that fails. -/
def headerTests (s : State) (h : CmdHdr) (op : Nat) (w : List Word) : Option Reply :=
  if !(targetAgrees h) || (!h.txn && h.txid != 0) then some (.err stInvalid)
  else if !(bit (opScopes op) h.scope) then some (.err stInvalid)
  else if (opPortKind op == 1 && isUplink h.port) || (opPortKind op == 2 && !(isUplink h.port)) then some (.err stInvalid)
  else if h.txn && !(opJoins op) then some (.err stInvalid)
  else if !(targetPresent s h) then some (.err stAbsent)
  else if !(lenOk s op w) then some (.err stBadLength)
  else if (match h.path with | .hyith _ o => !(originOk s o) | _ => false) then some (.err stOrigin)
  else if s.twin.role == .follower && forwarded s op h then some (.err stWrongState)
  else if !(secPathOk s op h) then some (.err stOrigin)
  else none

/-- A refusal of R387 also raises AUTH_REFUSED: of any update or security opcode whose path or origin may not give it. -/
def authEvent (s : State) (op : Nat) (r : Reply) : State :=
  if r.st == stOrigin && 0x0C01 ≤ op && op ≤ 0x0C06 then raise s 0x80018 32 else s

/-- A command's packet as bytes, for a packet that is routed on. -/
def cmdBytes (h : CmdHdr) (op : Nat) (w : List Word) : List Byte :=
  wordsBe (packet (b2n h.txn * 4 + b2n h.quiet * 8) op h.tag.toNat h.scope h.die h.region h.txid h.devno h.port w)

/-- The header fields of a packet's words, on a path (R282). -/
def pktHdr (path : Path) (l : List Word) : CmdHdr :=
  { path := path
    txn := bit (prm l 0) 2
    quiet := bit (prm l 0) 3
    tag := BitVec.ofNat 16 (prm l 1)
    scope := fld l 2 15 14
    die := fld l 2 13 12
    region := fld l 2 11 9
    port := fld l 3 13 4
    txid := fld l 2 8 1
    devno := fld l 3 31 14 }

/-- A packet's opcode and its parameter words. -/
def pktOp (l : List Word) : Nat := fld l 1 31 16
def pktParams (l : List Word) : List Word := (l.drop 4).take (l.length - 5)

/-- Whether a command of class Transaction that was sent without TXN waits for its commit instant (R303): its transaction has
TXID 0, which no TXN_OPEN gives. -/
def ownRuns (s : State) : Bool := s.txns.any fun t => t.id == 0

/-- Whether the control cores may start a command: no other is in execution (R295), and no handshake of a PARK_SET (R368). -/
def coresFree (s : State) : Bool := coresRun s && s.power.gate.isNone && !(ownRuns s)

/-- What a command meets before its own checks: routed, or refused by a test with its reply (false), or it goes on (true).
Nothing happens while the cores start no command, or its reply or the link it is routed to has no room (R273, R293). -/
def gateCmd (s : State) (h : CmdHdr) (op : Nat) (w : List Word) : State × Bool :=
  if !(coresFree s && canTake s h) then (s, false)
  else if targetAgrees h && h.devno != s.sys.devno then
    (if hasRoom s h then routePacket s h op 0 (cmdBytes h op w) else s, false)
  else match headerTests s h op w with
    | some r => (deliver (authEvent s op r) h op r, false)
    | none =>
      if h.txn && (findTxn s h h.txid false).isNone then (deliver s h op (.err stTxnUnknown), false)
      else if busy s h (unitsIn s op h w) then (deliver (failMember s h op w stBusy) h op (.err stBusy), false)
      else match stoppedTarget s op h w with
        | some t => (deliver (failMember (accessErr s t) h op w stStopped) h op (.err stStopped), false)
        | none => (s, true)

/-- A command executed by the control cores: its own effect b, then its reply. -/
def runCmd (s : State) (h : CmdHdr) (op : Nat) (w : List Word) (b : Body) : State :=
  let g := gateCmd s h op w
  if g.2 then let x := b h w g.1; deliver x.1 h op x.2 else g.1

/-- A command that may reply later than it ends: its own effect b, then its reply where b gives one. -/
def runLater (s : State) (h : CmdHdr) (op : Nat) (w : List Word) (b : CmdHdr → List Word → State → State × Option Reply) : State :=
  let g := gateCmd s h op w
  if g.2 then
    let x := b h w g.1
    match x.2 with
    | some r => deliver x.1 h op r
    | none => x.1
  else g.1

end Sys2Proof.Machine
end

