-- ==== Sys2Proof/Machine/Buffer.lean ====
section
/-! DEFINITION. Queues, services, the frame buffer, ingress accounts, meters and admission (R206 to R211, R217 to R222). -/

namespace Sys2Proof.Machine

/-! ### The tables -/

def qcfg (s : State) (q : Nat) : QCfg := s.traffic.qcfg.look q {}
def setQcfg (s : State) (q : Nat) (c : QCfg) : State :=
  { s with traffic := { s.traffic with qcfg := s.traffic.qcfg.put q c {} } }

def qdyn (s : State) (q : Nat) : QDyn := s.traffic.qdyn.look q {}
def setQdyn (s : State) (q : Nat) (d : QDyn) : State :=
  { s with traffic := { s.traffic with qdyn := s.traffic.qdyn.put q d {} } }

/-- The settings of service k of port p; the defaults of R223 where none are set. -/
def svcDefault (k : Nat) : SvcCfg := { sched := decide (6 ≤ k) }
def svc (s : State) (p k : Nat) : SvcCfg := (s.traffic.svc.look (8 * p + k) none).getD (svcDefault k)
def setSvc (s : State) (p k : Nat) (c : SvcCfg) : State :=
  let v := if c = svcDefault k then none else some c
  { s with traffic := { s.traffic with svc := s.traffic.svc.put (8 * p + k) v none } }

def svcDyn (s : State) (p k : Nat) : SvcDyn := s.traffic.svcDyn.look (8 * p + k) {}
def setSvcDyn (s : State) (p k : Nat) (d : SvcDyn) : State :=
  { s with traffic := { s.traffic with svcDyn := s.traffic.svcDyn.put (8 * p + k) d {} } }

def bufCfg (s : State) (d : Nat) : BufCfg := s.traffic.buf.look d {}

/-- The copies a queue holds, oldest first. -/
def copies (s : State) (q : Nat) : List Copy := s.traffic.held.look q []
def setCopies (s : State) (q : Nat) (l : List Copy) : State :=
  { s with traffic := { s.traffic with held := s.traffic.held.put q l [] } }

/-- A held frame; its key is even on die 0 and odd on die 1. -/
def frameAt (s : State) (k : Nat) : Frame := s.traffic.frames.look k {}
def setFrame (s : State) (k : Nat) (f : Frame) : State :=
  { s with traffic := { s.traffic with frames := s.traffic.frames.put k f {} } }

/-! ### Occupancy (R218, R219, R221) -/

/-- Cells of n bytes. -/
def cellsOf (n : Nat) : Nat := (n + 127) / 128

/-- The cells of a copy; a place that waits for its frame holds none. -/
def copyCells (s : State) (c : Copy) : Nat := if c.wait then 0 else cellsOf (frameAt s c.frame).bytes.length

/-- QCELLS. -/
def qCells (s : State) (q : Nat) : Nat := ((copies s q).map (copyCells s)).sum

/-- QFRAMES. -/
def qFrames (s : State) (q : Nat) : Nat := (copies s q).length

/-- The queues that hold frames and belong to service k of port p, in ascending queue ID. -/
def svcQueues (s : State) (p k : Nat) : List Nat :=
  (keys s.traffic.held).filter fun q => (qcfg s q).port == p && (qcfg s q).service == k

/-- Service occupancy. -/
def svcOcc (s : State) (p k : Nat) : Nat := ((svcQueues s p k).map (qCells s)).sum

def resUsed (s : State) (d : Nat) : Nat := ((s.traffic.frames.filter fun e => e.1 % 2 == d).map (·.2.res)).sum
def sharedUsed (s : State) (d : Nat) : Nat := ((s.traffic.frames.filter fun e => e.1 % 2 == d).map (·.2.shared)).sum

/-- Whether some queue holds a copy of the frame with key k of which f is true. -/
def someCopy (s : State) (k : Nat) (f : Nat → Copy → Bool) : Bool :=
  s.traffic.held.any fun e => e.2.any fun c => c.frame == k && f e.1 c

/-- Spilled cells of a frame: it is held there once, whether or not a copy of it is on chip too (R218; DEDUCED, log entry 155). -/
def spilledOf (s : State) (k : Nat) : Nat :=
  if someCopy s k fun _ c => c.spilled then cellsOf (frameAt s k).bytes.length else 0

def spillUsed (s : State) (d : Nat) : Nat :=
  ((keys s.traffic.frames).map fun k => if k % 2 == d then spilledOf s k else 0).sum

/-- The account class of a frame with PCP pcp that arrives on port p (R221). -/
def acctClass (x : Port) (pcp : Nat) : Option Nat :=
  if x.ing.mode = 1 then some 0 else if x.ing.mode = 2 ∧ bit x.ing.mask pcp then some pcp else none

/-- Whether some port is sending a copy of the frame with key k from a queue of which f is true, or holds one that has been cut. -/
def sending (s : State) (k : Nat) (f : Nat → Bool) : Bool :=
  s.ports.any fun e => [e.2.txd.tx, e.2.txd.pend].any fun t =>
    (t.bind (·.copy)).any fun c => c.2.frame == k && f c.1

/-- The ingress account of class c of port p (class 0 in mode PAUSE): the cells of frames that some service without SCHED holds or is
sending, each frame once (R218, R221). -/
def account (s : State) (p c : Nat) : Nat :=
  let best (q : Nat) : Bool := !(svc s (qcfg s q).port (qcfg s q).service).sched
  ((s.traffic.frames.filter fun e =>
    e.2.port == p && (e.2.pcp.bind (acctClass (port s p))) == some c &&
      (someCopy s e.1 (fun q c => !c.wait && best q) || sending s e.1 best)).map fun e =>
    cellsOf e.2.bytes.length).sum

/-! ### Shapers and meters (R208, R217) -/

/-- The quantum of now: bits [31:10] of the short time. -/
def curQ (s : State) : Nat := shortNs s / 1024

/-- The rate units of R187 and R208. -/
def creditOf (r : Nat) : Nat := (r * 2 ^ 15 + 500000000) / 1000000000

def refreshB (b : Bucket) (credit burst q : Nat) : Bucket :=
  { tokens := min (burst * 256 : Int) (b.tokens + credit * ((q + 2 ^ 22 - b.last) % 2 ^ 22 : Nat)), last := q }

/-- A bucket set anew (R210). -/
def freshB (fill : Bool) (burst q : Nat) : Bucket := { tokens := if fill then burst * 256 else 0, last := q }

/-- The meter of service k of port p, on a frame of len bytes: the state, and 0 green, 1 yellow, 2 red. -/
def meterSvc (s : State) (p k len : Nat) (dei : Bool) : State × Nat :=
  let c := svc s p k
  if c.meter = 0 then (s, 0)
  else
    let d := svcDyn s p k
    let tc := refreshB d.tc c.cir c.cbs (curQ s)
    let tp := refreshB d.tp c.pir c.pbs (curQ s)
    let l : Int := len * 256
    if tp.tokens < l then (setSvcDyn s p k { d with tc := tc, tp := tp }, 2)
    else if (c.meter = 2 ∧ dei) ∨ tc.tokens < l then
      (setSvcDyn s p k { d with tc := tc, tp := { tp with tokens := tp.tokens - l } }, 1)
    else
      (setSvcDyn s p k { d with tc := { tc with tokens := tc.tokens - l }, tp := { tp with tokens := tp.tokens - l } }, 0)

/-! ### Pause and PFC frames sent (R222, R243) -/

/-- n quanta of 512 bit times of a port, in 2^-16 ns. -/
def pauseQ16 (p : Nat) (x : Port) (n : Nat) : Nat := n * (lineQ p x * 64) / 100

/-- A MAC control frame of 64 bytes. -/
def macFrame (x : Port) (pl : List Byte) : List Byte :=
  let b := be 6 0x0180C2000001 ++ pMac x ++ pl
  let b := b ++ List.replicate (60 - b.length) 0
  b ++ fcs b

/-- The content of a PFC frame whose class c takes time t, on top of one already pending in the slot. -/
def pfcFrame (x : Port) (c t : Nat) : List Byte :=
  let old := match x.txd.mac with
    | some f => if beAt f 14 2 = 0x0101 then f else []
    | none => []
  let en := beAt old 16 2 ||| 2 ^ c
  let tm := (List.range 8).flatMap fun i => be 2 (if i = c then t else beAt old (18 + 2 * i) 2)
  macFrame x (be 2 0x8808 ++ be 2 0x0101 ++ be 2 en ++ tm)

/-- A pause, or a PFC frame for class c, with t quanta, put in the MAC control slot of port p. -/
def sendPause (s : State) (p c t : Nat) : State :=
  modPort s p fun x =>
    let f := if x.ing.mode = 2 then pfcFrame x c t else macFrame x (be 2 0x8808 ++ be 2 0x0001 ++ be 2 t)
    { x with txd := { x.txd with mac := some f } }

/-- The pause of class c sent again when half of PAUSE_TIME has elapsed, in 2^-16 ns. -/
def armRefresh (s : State) (p c : Nat) : State :=
  modPort s p fun x =>
    { x with txd := { x.txd with refresh := x.txd.refresh.put c (now16 s + pauseQ16 p x x.ing.pauseTime / 2) 0 } }

/-- R222 after an account changed. -/
def acctUpdate (s : State) (p c : Nat) : State :=
  let x := port s p
  let v := account s p c
  if x.ing.mode = 0 then s
  else if !(bit x.txd.xoff c) then
    if x.ing.hi ≤ v then
      let s := modPort s p fun x => { x with txd := { x.txd with xoff := x.txd.xoff ||| 2 ^ c } }
      let s := raisePort (countPort s p 0x594 1) p 0x588 2
      armRefresh (sendPause s p c x.ing.pauseTime) p c
    else s
  else if v ≤ x.ing.lo then
    let s := modPort s p fun x =>
      { x with txd := { x.txd with xoff := x.txd.xoff ^^^ 2 ^ c, refresh := x.txd.refresh.put c 0 0 } }
    sendPause s p c 0
  else s

/-- R222 after the cells of frame f may have changed. -/
def acctFrame (s : State) (f : Frame) : State :=
  match f.pcp.bind (acctClass (port s f.port)) with
  | some k => acctUpdate s f.port k
  | none => s

/-- R222 after the SCHED mark of a service may have changed: over all frames held. -/
def acctAll (s : State) : State := s.traffic.frames.foldl (fun s e => acctFrame s e.2) s

/-! ### Spilling (R220) -/

/-- Whether a die is spilling: from SPILL_ON until the shared pool falls to SPILL_OFF. -/
def updateSpilling (s : State) (d : Nat) : State :=
  let b := bufCfg s d
  let u := sharedUsed s d
  let o := s.traffic.spilling.look d false
  let n := if b.spillOn ≤ u then true else if u ≤ b.spillOff then false else o
  { s with traffic := { s.traffic with spilling := s.traffic.spilling.put d n false } }

/-! ### Release (R218) -/

/-- A queue or service that holds no frame has no deficit and no place in a round (R213, R214). -/
def clearService (s : State) (p k : Nat) : State :=
  if (svcQueues s p k).isEmpty && ((port s p).txd.ctl.look k []).isEmpty && ((svcDyn s p k).deficit ≠ 0 || (svcDyn s p k).visited) then
    setSvcDyn s p k { svcDyn s p k with deficit := 0, visited := false }
  else s

def clearQueue (s : State) (q : Nat) : State :=
  if (copies s q).isEmpty then
    let d := qdyn s q
    let s := if d.deficit ≠ 0 || d.visited || d.owed then setQdyn s q { d with deficit := 0, visited := false, owed := false } else s
    clearService s (qcfg s q).port (qcfg s q).service
  else s

/-- The frame of a copy that has left a queue: its cells are freed once no on-chip copy is left, its record once none is. -/
def releaseFrame (s : State) (c : Copy) : State :=
  let f := frameAt s c.frame
  let n := if c.spilled then f.copies else f.copies - 1
  let f' := if n = 0 then { f with copies := 0, res := 0, shared := 0 } else { f with copies := n }
  let gone := n = 0 && !(someCopy s c.frame fun _ _ => true)
  acctFrame (updateSpilling (setFrame s c.frame (if gone then {} else f')) (c.frame % 2)) f

/-- Copy c removed from queue q. -/
def dropCopy (s : State) (q : Nat) (c : Copy) : State :=
  clearQueue (releaseFrame (setCopies s q ((copies s q).erase c)) c) q

/-- Copy c put into queue q: in the place that waits for it, else at the end. -/
def putCopy (s : State) (q : Nat) (c : Copy) : State :=
  let l := copies s q
  setCopies s q (if l.any fun x => x.wait && x.frame == c.frame then l.map fun x => if x.wait && x.frame == c.frame then c else x
    else l ++ [c])

/-- Whether queue q holds a place for the frame with key k. -/
def waits (s : State) (q k : Nat) : Bool := (copies s q).any fun c => c.wait && c.frame == k

/-- The place for the frame with key k given up. -/
def unwait (s : State) (q k : Nat) : State :=
  if waits s q k then clearQueue (setCopies s q ((copies s q).filter fun c => !(c.wait && c.frame == k))) q else s

/-- Every frame of a queue discarded. -/
def flushQueue (s : State) (q : Nat) : State :=
  let l := copies s q
  clearQueue (l.foldl releaseFrame (setCopies s q [])) q

/-- A drop counted in a port's service registers at o (R226). -/
def dropAt (s : State) (p k o n : Nat) : State :=
  if n = 0 then s else raisePort (countPort s p (o + 0x10 * k) n) p 0x588 1

/-- A queue's frames discarded by a reset or low-power state: they count in DROP_FULL (R224). -/
def discardQueue (s : State) (q : Nat) : State :=
  let c := qcfg s q
  let n := qFrames s q
  let s := flushQueue s q
  if c.port = 0x3FF then s else dropAt s c.port c.service 0x508 n

/-- The queues whose egress is port p. -/
def queuesOf (s : State) (p : Nat) : List Nat := (keys s.traffic.qcfg).filter fun q => (qcfg s q).port == p

/-! ### Admission (R219, R220) -/

/-- An event of a die's traffic manager about queue q (R227). -/
def tmEvent (s : State) (d q b : Nat) : State :=
  raise { s with traffic := { s.traffic with lastQueue := s.traffic.lastQueue.put d q 0 } } (dieBase d + 0x900C) (2 ^ b)

/-- Whether an on shaper on the path of a queue has BURST 0 (R211). -/
def zeroBurst (s : State) (c : QCfg) : Bool :=
  (c.shape && c.burst == 0) || ((svc s c.port c.service).on && (svc s c.port c.service).burst == 0) ||
    ((port s c.port).shape.on && (port s c.port).shape.burst == 0)

/-- Whether new copies for a port's queues are turned away: a sleeping or squelched port (R244, R337). -/
def portOff (x : Port) : Bool := x.link.sleeping || x.link.squelched

/-- Step 7 and the copy's place: into queue q goes a copy of the frame with key k. -/
def placeCopy (s : State) (q k : Nat) (f : Frame) (c : Copy) : State :=
  let d := dieOfQueue q
  let cfg := qcfg s q
  let v := svc s cfg.port cfg.service
  let b := bufCfg s d
  let n := cellsOf f.bytes.length
  let s := updateSpilling s d
  let old := frameAt s k
  let chip := old.copies ≠ 0
  let hasSp := (copies s q).any (·.spilled)
  let spill := cfg.spill && !v.sched && b.spillSize ≠ 0 && (s.traffic.spilling.look d false || hasSp)
  let base := if old = {} then f else old
  let done (s : State) (g : Frame) (c : Copy) : State :=
    acctFrame (updateSpilling (putCopy (setFrame s k g) q c) d) g
  if spill then
    if spillUsed s d + (if spilledOf s k = 0 then n else 0) ≤ b.spillSize * 8192 then
      let s := if spillUsed s d = 0 then tmEvent s d q 1 else s
      count (done s base { c with frame := k, spilled := true }) (dieBase d + 0x9014) 1
    else tmEvent (dropAt s cfg.port cfg.service 0x508 1) d q 2
  else if chip then done s { base with copies := base.copies + 1 } { c with frame := k }
  else
    let r := if v.sched then min n (b.schedRes - resUsed s d) else 0
    let s := if v.sched && r < n then tmEvent s d q 3 else s
    if n - r ≤ 393216 - b.schedRes - sharedUsed s d then
      done s { base with copies := 1, res := r, shared := n - r } { c with frame := k }
    else tmEvent (dropAt s cfg.port cfg.service 0x508 1) d q 0

/-- A copy of frame f (key k on the queue's die, len bytes as received) offered to queue q (R219). -/
def admitCopy (s : State) (q k : Nat) (f : Frame) (c : Copy) (len : Nat) (dei : Bool) : State :=
  let d := dieOfQueue q
  let cfg := qcfg s q
  if cfg.port = 0x3FF then tmEvent (count s (dieBase d + 0x9018) 1) d q 4
  else if !cfg.en || zeroBurst s cfg || portOff (port s cfg.port) then dropAt s cfg.port cfg.service 0x50C 1
  else
    let m := meterSvc s cfg.port cfg.service len dei
    let s := m.1
    let v := svc s cfg.port cfg.service
    let n := cellsOf f.bytes.length
    let lim := if m.2 = 1 then v.maxY else v.maxG
    if m.2 = 2 then dropAt s cfg.port cfg.service 0x504 1
    else if 65535 + b2n (waits s q k) ≤ qFrames s q ∨ (cfg.limit ≠ 0 ∧ 16 * cfg.limit < qCells s q + n) then dropAt s cfg.port cfg.service 0x508 1
    else if lim ≠ 0 ∧ lim < svcOcc s cfg.port cfg.service + n then dropAt s cfg.port cfg.service 0x508 1
    else
      let i := (port s f.port).ing
      let a := if v.sched then none else f.pcp.bind (acctClass (port s f.port))
      if i.max ≠ 0 ∧ (a.any fun x => i.max < account s f.port x) then
        raisePort (countPort s f.port 0x590 1) f.port 0x588 4
      else placeCopy s q k f { c with yellow := decide (m.2 = 1) && v.markDei }

end Sys2Proof.Machine
end

