-- ==== Sys2Proof/Machine/TxnOp.lean ====
section
/-! DEFINITION. What a command of class Transaction is made of, and its run as a member or on its own (R299 to R303). -/

namespace Sys2Proof.Machine

/-- A transaction member that took effect: k, the instant it scheduled, and what a rollback puts back. -/
structure Applied where
  s : State
  k : Nat := 0
  at_ : Nat := 0
  undo : List Undo := []

/-- The parts of a transaction opcode: its checks when prepared; its tests at commit (over the members, with C as now); its
effect at C, or its failure; its reply words and REPORT; the units it holds beside those its words name; and its rollback at R_b,
with the result code of R302. -/
structure TxnOp where
  prep : CmdHdr → List Word → State → Option Reply
  test : CmdHdr → List Word → List Member → Nat → State → Option Reply := fun _ _ _ _ _ => none
  apply : CmdHdr → List Word → Nat → State → Except Reply Applied
  words : CmdHdr → List Word → Applied → List Word := fun _ _ _ => []
  report : CmdHdr → List Word → Nat → State → Nat := fun _ _ _ _ => 0
  holds : CmdHdr → List Word → State → List Held := fun _ _ _ => []
  undo : CmdHdr → List Word → Nat → Member → State → State × Nat := fun _ _ _ _ s => (s, 1)

/-- REPORT's LATE bit for a reported k (R288). -/
def lateBit (k : Nat) : Nat := if k = 0 then 0 else 16

/-- A prepared member of a transaction. -/
def newMember (s : State) (op : Nat) (h : CmdHdr) (w : List Word) : Member :=
  { op := op, h := h, w := w, st := stPrepared, held := unitsIn s op h w }

/-- A prepared member that also holds the units its opcode chooses (R299). -/
def heldMember (s : State) (op : Nat) (f : TxnOp) (h : CmdHdr) (w : List Word) : Member :=
  let m := newMember s op h w
  { m with held := m.held ++ f.holds h w s }

/-- R299: a member is checked, holds its units and replies PREPARED or its failure. -/
def prepareMember (op : Nat) (f : TxnOp) (h : CmdHdr) (w : List Word) (s : State) (t : Txn) : State × Reply :=
  if txnLimit t ≤ t.members.length then (failMember s h op w stNoSpace, .err stNoSpace)
  else match f.prep h w s with
    | some r => (failMember s h op w r.st, r)
    | none => (addMember s h.txid (heldMember s op f h w) false, { st := stPrepared, report := f.report h w 0 s })

/-- The transaction of its own that a command of class Transaction forms where it is sent without TXN: one member, committed at C
(R303). Its TXID is 0. -/
def ownTxn (s : State) (op : Nat) (f : TxnOp) (h : CmdHdr) (w : List Word) (c : Nat) : Txn :=
  { id := 0, pcie := (match h.path with | .pcie => true | _ => false), path := h.path, opened := nowNs s, expires := c,
    members := [heldMember s op f h w], commit := some (c, h) }

/-- R303: a command of class Transaction on its own: C is 20,000 ns after its preparation, and it replies once its effect at C is
known (TXN_COMMIT_APPLY with TXID 0); a failing test answers with its own status (DEDUCED, log entry 18). -/
def soloTxn (op : Nat) (f : TxnOp) (h : CmdHdr) (w : List Word) (s : State) : State × Option Reply :=
  match f.prep h w s with
  | some r => (s, some r)
  | none =>
    let c := nowNs s + 20000
    match f.test h w [newMember s op h w] c s with
    | some r => (s, some r)
    | none => ({ s with txns := s.txns ++ [ownTxn s op f h w c] }, none)

/-- The body of a command of class Transaction: its reply now, or none where it replies at its commit instant. -/
def bodyTxn (op : Nat) (f : TxnOp) (h : CmdHdr) (w : List Word) (s : State) : State × Option Reply :=
  if h.txn then
    match findTxn s h h.txid false with
    | none => (s, some (.err stTxnUnknown))
    | some t => let x := prepareMember op f h w s t; (x.1, some x.2)
  else soloTxn op f h w s

/-- The body of a command of class Configuration that may join a transaction (R298): on its own it is checked and takes effect
at once. -/
def bodyJoin (op : Nat) (f : TxnOp) : Body := fun h w s =>
  if h.txn then
    match findTxn s h h.txid false with
    | none => (s, .err stTxnUnknown)
    | some t => prepareMember op f h w s t
  else match f.prep h w s with
    | some r => (s, r)
    | none =>
      match f.test h w [newMember s op h w] (nowNs s) s with
      | some r => (s, r)
      | none =>
        match f.apply h w (nowNs s) s with
        | .error r => (s, r)
        | .ok a => (a.s, .rep (f.report h w a.k s) (f.words h w a))

end Sys2Proof.Machine
end

