-- ==== Sys2Proof/Machine/CourseCfg.lean ====
section
/-! DEFINITION. Cycles and boundaries, bonds and frame descriptors, the course configuration checks and the commands that
write a course's configuration (R79 to R81, R88 to R96, R111). -/

namespace Sys2Proof.Machine

/-! ### Boundaries (R79, R80) -/

/-- The first boundary anchor + n x ct at or after lim. -/
def nextB (anchor ct lim : Nat) : Nat := lim + (((anchor : Int) - lim) % ct).toNat

/-- The first line base cycle boundary at or after lim. -/
def nextLine (s : State) (lim : Nat) : Nat := nextB s.line.anchor s.line.baseCt lim

/-- The number of the cycle of length ct that holds t, mod 2^32. -/
def cycleNo (s : State) (ct t : Nat) : Nat := ((((t : Int) - s.line.anchor) / ct) % 2 ^ 32).toNat

/-- The start of cycle n. -/
def cycleStart (s : State) (ct n : Nat) : Nat := s.line.anchor + n * ct

/-- Whether t is a boundary of cycles of length ct. -/
def isBoundary (s : State) (ct t : Nat) : Bool := ((t : Int) - s.line.anchor) % ct == 0

/-! ### The planes of a course (R103, R112) -/

/-- The port whose course a port belongs to: the plane A port for the plane B port of a pair, else itself. -/
def own (s : State) (p : Nat) : Nat :=
  let c := (port s p).ccfg
  let a := (port s c.partner).ccfg
  if c.plane = 2 ∧ a.plane = 1 ∧ a.partner = p then c.partner else p

/-- The ports of the course that port o owns. -/
def sides (s : State) (o : Nat) : List Nat :=
  let c := (port s o).ccfg
  if c.plane = 1 ∧ own s c.partner = o then [o, c.partner] else [o]

/-- The course a port belongs to. -/
def courseOf (s : State) (p : Nat) : CourseDyn := (port s (own s p)).course

/-! ### Bonds and descriptors (R92 to R94) -/

/-- Bank 0 A, 1 B, 2 S of a port. -/
def bankSel (c : CourseCfg) (k : Nat) : Bank := match k with | 0 => c.bankA | 1 => c.bankB | _ => c.bankS
def setBank (c : CourseCfg) (k : Nat) (b : Bank) : CourseCfg :=
  match k with | 0 => { c with bankA := b } | 1 => { c with bankB := b } | _ => { c with bankS := b }

/-- Descriptor i of bank k as port p uses it: COUNT and FIRST from the course's owner. -/
def descOf (s : State) (p k i : Nat) : Desc := (bankSel (port s (own s p)).ccfg k).descs.look i {}
def ownDesc (s : State) (p k i : Nat) : Desc := (bankSel (port s p).ccfg k).descs.look i {}
def dCount (d : Desc) : Nat := bits d.w2.toNat 15 8
def dFirst (d : Desc) : Nat := bits d.w2.toNat 7 0
def dAddr (d : Desc) : Nat := bits d.w1.toNat 15 0 * 2 ^ 32 + d.w0.toNat

/-- Entry e of bank k of a port's course. -/
def entryOf (s : State) (p k e : Nat) : Nat := ((bankSel (port s (own s p)).ccfg k).entries.look e 0).toNat

def eAxis (e : Nat) : Nat := bits e 13 0
def eOfs (e : Nat) : Nat := 4 * bits e 17 14
def eLen (e : Nat) : Nat := 4 * bits e 22 18
def eAct (e : Nat) : Nat := bits e 24 23
def sOfs (e : Nat) : Nat := 4 * bits e 6 0
def sLen (e : Nat) : Nat := 4 * bits e 11 7

/-- The entries of descriptor i of bank k. -/
def entriesOf (s : State) (p k i : Nat) : List Nat :=
  let d := descOf s p k i
  (List.range (dCount d)).map fun j => entryOf s p k (dFirst d + j)

/-- The brick sizes of a frame, in bytes. -/
def sizesOf (s : State) (p k i : Nat) : List Nat := (entriesOf s p k i).map (if k = 2 then sLen else eLen)

/-- pos(j) of R88. -/
def posOf (l : List Nat) (j : Nat) : Nat := 28 + ((l.take j).map (· + 2)).sum

/-- N of R88. -/
def frameLen (l : List Nat) : Nat := let b := (l.map (· + 2)).sum; 28 + b + (32 - b) + 4

/-- The outbound frames in use of bank k, as (index, LAUNCH, N) of port p. -/
def outFrames (s : State) (p k : Nat) : List (Nat × Nat × Nat) :=
  (List.range 4).filterMap fun i =>
    if dCount (descOf s p k i) = 0 then none else some (i, (ownDesc s p k i).w3.toNat, frameLen (sizesOf s p k i))

/-- The inbound frames in use of bank k, as (index, ARR_CLOSE, N). -/
def inFrames (s : State) (p k : Nat) : List (Nat × Nat × Nat) :=
  (List.range 4).filterMap fun i =>
    if dCount (descOf s p k (4 + i)) = 0 then none
    else some (i, (descOf s p k (4 + i)).w3.toNat, frameLen (sizesOf s p k (4 + i)))

/-- The byte time of the checks, in ns (R96). -/
def planNs (s : State) (p : Nat) : Nat := planQ p (port s p) / qPerNs

/-! ### The checks of R96 -/

/-- Check 1 of bank A or B, and of the codes of bank S. -/
def check1 (s : State) (p k : Nat) : Bool :=
  (List.range (if k = 2 then 4 else 8)).all fun i =>
    dCount (descOf s p k i) ≤ 149 &&
    (entriesOf s p k i).all fun e =>
      if k = 2 then 8 ≤ sLen e && sLen e ≤ 64
      else 8 ≤ eLen e && eLen e ≤ 64 && (if i < 4 then eAct e == 0 else eAct e != 3)

/-- Check 2: every brick lies within its half; in bank S, within the safe image (R94). -/
def check2 (s : State) (p k : Nat) : Bool :=
  (List.range (if k = 2 then 4 else 8)).all fun i => (entriesOf s p k i).all fun e =>
    if k = 2 then sOfs e + sLen e ≤ 512 else eOfs e + eLen e ≤ 64

def check3 (s : State) (p k : Nat) : Bool :=
  (List.range 8).all fun i => (entriesOf s p k i).all fun e => dieOfAxis (eAxis e) == dieOfPort p

/-- Whether ranges (first, count) lie within n entries and do not overlap. -/
def rangesOk (n : Nat) (l : List (Nat × Nat)) : Bool :=
  l.all (fun x => x.1 + x.2 ≤ n) &&
  l.zipIdx.all fun x => l.zipIdx.all fun y =>
    x.2 == y.2 || x.1.1 + x.1.2 ≤ y.1.1 || y.1.1 + y.1.2 ≤ x.1.1

def check4 (s : State) (p k : Nat) : Bool :=
  rangesOk 256 ((List.range 8).filterMap fun i =>
    let d := descOf s p k i
    if dCount d = 0 then none else some (dFirst d, dCount d))

def check5 (s : State) (p k : Nat) : Bool :=
  (outFrames s p k).all (fun f => f.2.2 ≤ 1522) && (k == 2 || (inFrames s p k).all fun f => f.2.2 ≤ 1522)

def check6 (s : State) (p k : Nat) : Bool :=
  (outFrames s p k).all fun f => 200 ≤ f.2.1 && f.2.1 < (port s (own s p)).ccfg.ct

/-- The frames of a list follow each other with their gaps. -/
def spaced (b : Nat) : List (Nat × Nat × Nat) → Bool
  | x :: y :: r => x.2.1 + b * (x.2.2 + 20) ≤ y.2.1 && spaced b (y :: r)
  | _ => true

def check7 (s : State) (p k : Nat) : Bool :=
  let l := outFrames s p k
  let b := planNs s p
  spaced b l && match l, l.getLast? with
    | f :: _, some z => z.2.1 + b * (z.2.2 + 20) ≤ (port s (own s p)).ccfg.ct + f.2.1
    | _, _ => true

def check8 (s : State) (p k : Nat) : Bool :=
  (inFrames s p k).all fun f => 1 ≤ f.2.1 && f.2.1 + 1000 ≤ (port s (own s p)).ccfg.ct

/-- The in-bonds of bank k, as (axis, offset, length). -/
def inBonds (s : State) (p k : Nat) : List (Nat × Nat × Nat) :=
  (List.range 4).flatMap fun i => (entriesOf s p k (4 + i)).map fun e => (eAxis e, eOfs e, eLen e)

def bondsMeet (x y : Nat × Nat × Nat) : Bool := x.1 == y.1 && x.2.1 < y.2.1 + y.2.2 && y.2.1 < x.2.1 + x.2.2

def check9 (s : State) (p k : Nat) : Bool :=
  let l := inBonds s p k
  let o := own s p
  let others := (keys s.ports).flatMap fun q =>
    if own s q = q && q ≠ o && dieOfPort q = dieOfPort o && (port s q).course.state ≠ 0 then
      inBonds s q (b2n (port s q).course.bank) else []
  (l.zipIdx.all fun x => l.zipIdx.all fun y => x.2 == y.2 || !(bondsMeet x.1 y.1)) &&
    l.all fun x => others.all fun y => !(bondsMeet x y)

def check11 (s : State) (p : Nat) : Bool :=
  let o := own s p
  let in64 := (List.range 4).all fun i => let d := descOf s o 2 i; dCount d == 0 || dFirst d + dCount d ≤ 64
  !(outFrames s o 2).isEmpty && check1 s o 2 && check2 s o 2 && in64 && check5 s o 2 &&
    (sides s o).all fun q => check6 s q 2 && check7 s q 2

/-- Check 12: whether the partner is the other plane and names the port back with equal COUNTs, and whether it is on its die. -/
def check12 (s : State) (p : Nat) : Bool × Bool :=
  let c := (port s p).ccfg
  if c.plane ≠ 1 ∧ c.plane ≠ 2 then (true, true)
  else
    let q := c.partner
    let d := (port s q).ccfg
    let names := q ≠ p && d.partner == p && d.plane + c.plane == 3
    let counts := (List.range 3).all fun k => (List.range (if k = 2 then 4 else 8)).all fun i =>
      dCount (ownDesc s p k i) == dCount (ownDesc s q k i)
    (names && counts, dieOfPort p == dieOfPort q)

def check10 (s : State) (p : Nat) : Bool :=
  let c := (port s p).ccfg
  let x := check12 s p
  c.ct % s.line.baseCt == 0 && 15625 ≤ c.ct && c.ct ≤ 16777216 &&
    (c.plane == 0 || c.plane == 3 || !(x.1 && x.2) || c.ct == (port s c.partner).ccfg.ct)

/-- The first failing check of R96 over the banks that will run (0 A, 1 B) and bank S. -/
def courseCheck (s : State) (p : Nat) (ks : List Nat) : Option Reply :=
  let o := own s p
  let sd := sides s o
  let bad (n : Nat) : Option Reply := some (.err (if n = 3 then stWrongDie else stInvalid) n)
  let x := check12 s p
  if !(ks.all (check1 s o)) then bad 1
  else if !(ks.all (check2 s o)) then bad 2
  else if !(ks.all (check3 s o)) then bad 3
  else if !(ks.all (check4 s o)) then bad 4
  else if !(ks.all (check5 s o)) then bad 5
  else if !(sd.all fun q => ks.all (check6 s q)) then bad 6
  else if !(sd.all fun q => ks.all (check7 s q)) then bad 7
  else if !(ks.all (check8 s o)) then bad 8
  else if !(ks.all (check9 s o)) then bad 9
  else if !(check10 s p) then bad 10
  else if !(check11 s p) then bad 11
  else if !x.1 then bad 12
  else if !x.2 then some (.err stWrongDie 12)
  else if ks.any fun k => 2 ≤ (courseOf s p).state && k == b2n (courseOf s p).bank then bad 13
  else none

/-! ### Commands (R79, R111) -/

/-- COURSE_SET. -/
def bodyCourseSet (h : CmdHdr) (w : List Word) (s : State) : State × Reply :=
  let ct := prm w 0
  let plane := fld w 1 25 24
  let q := fld w 2 9 0
  let pair := plane = 1 ∨ plane = 2
  if ct % s.line.baseCt ≠ 0 ∨ ct < 15625 ∨ 16777216 < ct then (s, .err stInvalid 1)
  else if fld w 1 31 26 ≠ 0 then (s, .err stInvalid 2)
  else if fld w 2 31 10 ≠ 0 ∨ (pair ∧ 512 ≤ q) then (s, .err stInvalid 3)
  else if pair ∧ !(hasPort s q) then (s, .err stAbsent 3)
  else if pair ∧ dieOfPort q ≠ dieOfPort h.port then (s, .err stWrongDie 3)
  else if (courseOf s h.port).state ≠ 0 then (s, .err stWrongState)
  else (modPort s h.port fun p =>
    { p with ccfg := { p.ccfg with
        ct := ct, id := fld w 1 15 0, stale := fld w 1 23 16, plane := plane, partner := q } }, .ok)

/-- A write to a bank of a port: check 13, and for bank S of a course that is not OFF the check of R96, which leaves the bank
as it was when it fails. -/
def writeBank (s : State) (p k : Nat) (b : Bank) : State × Reply :=
  let c := courseOf s p
  if k ≠ 2 ∧ 2 ≤ c.state ∧ k = b2n c.bank then (s, .err stInvalid 13)
  else
    let s1 := modPort s p fun x => { x with ccfg := setBank x.ccfg k b }
    if k = 2 ∧ c.state ≠ 0 then
      match courseCheck s1 p [] with
      | some r => (s, r)
      | none => (s1, .ok)
    else (s1, .ok)

/-- The first parameter word from i on that f refuses, as DETAIL. -/
def firstBad (f : Nat → Bool) (w : List Word) (i : Nat) : Option Nat :=
  ((w.drop i).zipIdx.find? fun x => f x.1.toNat).map fun x => x.2 + i + 1

/-- BOND_WRITE. -/
def bodyBondWrite (h : CmdHdr) (w : List Word) (s : State) : State × Reply :=
  let k := fld w 0 1 0
  let first := fld w 0 9 2
  let n := fld w 0 18 10
  if fld w 0 31 19 ≠ 0 ∨ k = 3 ∨ n = 0 ∨ (if k = 2 then 64 else 256) < first + n then (s, .err stInvalid 1)
  else match firstBad (fun e => if k = 2 then e / 2 ^ 12 ≠ 0 else e / 2 ^ 25 ≠ 0) w 1 with
    | some d => (s, .err stInvalid d)
    | none => match (if k = 2 then none else firstBad (fun e => !(hasAxis s (eAxis e))) w 1) with
      | some d => (s, .err stAbsent d)
      | none =>
        let b := bankSel (port s h.port).ccfg k
        let e := (w.drop 1).zipIdx.foldl (fun t x => t.put (first + x.2) x.1 0) b.entries
        writeBank s h.port k { b with entries := e }

/-- FRAME_SET. -/
def bodyFrameSet (h : CmdHdr) (w : List Word) (s : State) : State × Reply :=
  let k := fld w 0 1 0
  let ds := (List.range 8).filter fun i => bit (prm w 0) (2 + i)
  if fld w 0 31 10 ≠ 0 ∨ k = 3 then (s, .err stInvalid 1)
  else match ds.zipIdx.find? fun x => fld w (3 + 4 * x.2) 31 16 ≠ 0 with
    | some x => (s, .err stInvalid (4 + 4 * x.2))
    | none =>
      let b := bankSel (port s h.port).ccfg k
      let g (i : Nat) : Word := w.getD i 0
      let e := ds.zipIdx.foldl (fun t x =>
        let i := 1 + 4 * x.2
        t.put x.1 { w0 := g i, w1 := g (i + 1), w2 := g (i + 2), w3 := g (i + 3) } {}) b.descs
      writeBank s h.port k { b with descs := e }

/-- The instants a brick of bank S may still be read for: 40 ms back, longer than any cycle and its frames. -/
def safeKept (t : Nat) (l : List (Nat × Tbl Byte)) : List (Nat × Tbl Byte) := l.takeWhile fun e => t ≤ e.1 + 40000000 * 65536

/-- SAFE_IMAGE_WRITE (R94); words lie least significant byte first. -/
def bodySafeImageWrite (h : CmdHdr) (w : List Word) (s : State) : State × Reply :=
  let o := fld w 0 8 0
  let n := fld w 0 16 9
  if fld w 0 31 17 ≠ 0 ∨ o % 4 ≠ 0 ∨ n = 0 ∨ 128 < n ∨ 512 < o + 4 * n then (s, .err stInvalid 1)
  else (modPort s h.port fun p =>
    { p with
      course := { p.course with safeOld := (now16 s, p.ccfg.safeImg) :: safeKept (now16 s) p.course.safeOld }
      ccfg := { p.ccfg with
        safeImg := (wordsLe (w.drop 1)).zipIdx.foldl (fun t x => t.put (o + x.2) x.1 0) p.ccfg.safeImg } }, .ok)

/-- COURSE_LINE_SET (R79). -/
def bodyCourseLineSet (_ : CmdHdr) (w : List Word) (s : State) : State × Reply :=
  let ct := prm w 0
  if ct < 15625 ∨ 16777216 < ct then (s, .err stInvalid 1)
  else match instantAt w 1 with
    | .error d => (s, .err stInvalid d)
    | .ok a =>
      if (s.ports.any fun e => e.2.course.state != 0) || (s.axes.any fun e => e.2.dyn.state != 0) then
        (s, .err stWrongState)
      else ({ s with line := { baseCt := ct, anchor := a } }, .ok)

/-- Register 0x604: SEQ of the current cycle. -/
def seqNow (s : State) (p : Nat) : Nat :=
  let ct := (port s (own s p)).ccfg.ct
  if ct = 0 then 0 else cycleNo s ct (nowNs s) % 65536

/-- Register 0x600. -/
def courseStatus (s : State) (p : Nat) : Nat :=
  let c := courseOf s p
  let pl := (port s p).ccfg.plane
  c.state + 8 * b2n c.bank + 16 * b2n !c.swaps.isEmpty + 32 * (if pl = 3 then 0 else pl) + 256 * c.cause

/-- A byte of the safe image as it stood at t (2^-16 ns), before a write at t (R98). -/
def safeAt (s : State) (o t k : Nat) : Byte :=
  match ((port s o).course.safeOld.filter fun e => t ≤ e.1).getLast? with
  | some e => e.2.look k 0
  | none => (port s o).ccfg.safeImg.look k 0

/-- SWAP_K of a port's course. -/
def swapK (s : State) (p : Nat) : Nat := reg s (portBase (own s p) + 0x610)

/-- COURSE_QUERY. -/
def bodyCourseQuery (h : CmdHdr) (w : List Word) (s : State) : State × Reply :=
  let n := fld w 0 7 0
  if fld w 0 31 8 ≠ 0 ∨ 64 < n then (s, .err stInvalid 1)
  else
    let ix := ((wordsLe (w.drop 1)).take n).map (·.toNat)
    let st := (port s (own s h.port)).inStat
    let age := ix.map fun e => by8 (st.age.look e 0)
    (s, .ok ([wd (courseStatus s h.port), wd (seqNow s h.port), wd (swapK s h.port)] ++
      toWordsLe 64 (age ++ List.replicate ((4 - n % 4) % 4) 0)))

def execCourseQuery (h : CmdHdr) (w : List Word) (s : State) : Out := .next (runCmd s h 0x0601 w bodyCourseQuery)
def execCourseSet (h : CmdHdr) (w : List Word) (s : State) : Out := .next (runCmd s h 0x0602 w bodyCourseSet)
def execBondWrite (h : CmdHdr) (w : List Word) (s : State) : Out := .next (runCmd s h 0x0603 w bodyBondWrite)
def execFrameSet (h : CmdHdr) (w : List Word) (s : State) : Out := .next (runCmd s h 0x0604 w bodyFrameSet)
def execSafeImageWrite (h : CmdHdr) (w : List Word) (s : State) : Out := .next (runCmd s h 0x0605 w bodySafeImageWrite)
def execCourseLineSet (h : CmdHdr) (w : List Word) (s : State) : Out := .next (runCmd s h 0x060B w bodyCourseLineSet)

end Sys2Proof.Machine
end

