-- ==== Sys2Proof/Machine/Gates.lean ====
section
/-! DEFINITION. What the valve lists and course reservations permit at an instant: gates, holds, the guard band, fragments and
start instants (R147 to R149, R153, R157, R158, R161 to R165, R168, R170). Instants marked Q are in 1/6553600 ns (qPerNs). -/

namespace Sys2Proof.Machine

/-! ### Lists and windows (R149) -/

/-- One entry of a list as it takes effect in a cycle: start and end within the cycle, gates, hold, index. -/
structure VWin where
  o : Nat
  e : Nat
  gates : Nat
  hold : Bool
  idx : Nat
  deriving DecidableEq, Repr

def vEntry (l : VList) (i : Nat) : VEntry := l.entries.look i {}
def vInterval (x : VEntry) : Nat := bits x.w0.toNat 23 0

/-- The entries of a list in order with their starts, without the last one's extension. -/
def vRaw (l : VList) : List VWin :=
  ((List.range l.len).foldl (fun (a : List VWin × Nat) i =>
    let x := vEntry l i
    let n := vInterval x
    if n = 0 then a
    else ({ o := a.2, e := a.2 + n, gates := bits x.w0.toNat 31 24, hold := bit x.w1.toNat 0, idx := i } :: a.1, a.2 + n))
    ([], 0)).1.reverse

/-- The sum of all intervals. -/
def vSum (l : VList) : Nat := ((List.range l.len).map fun i => vInterval (vEntry l i)).sum

/-- The windows of a cycle of vct ns: entries cut at its end, the last extended to it; IDLE_GATES where the list has none. -/
def vWins (s : ValveSet) (l : VList) (vct : Nat) : List VWin :=
  let r := (vRaw l).filter fun x => x.o < vct
  match r.getLast? with
  | none => [{ o := 0, e := vct, gates := s.idleGates, hold := s.idleHold, idx := 0 }]
  | some z => r.dropLast ++ [{ z with e := vct }]

/-- What governs the gates from an instant on: IDLE_GATES, or a list with its base and cycle. -/
inductive VPhase where
  | idle
  | run (list base vct : Nat)
  deriving DecidableEq, Repr

def vList (x : Port) (k : Nat) : VList := if k = 0 then x.list0 else x.list1

/-- The phases of a valve, each with its first instant, the committed start, swap or stop included (R157). -/
def vPhases (x : Port) : List (Nat × VPhase) :=
  let v := x.valve
  let a : List (Nat × VPhase) :=
    if v.state = 2 then
      match v.idle with
      | some b => [(0, .idle), (b, .run v.list v.vbase v.vct)]
      | none => [(0, .run v.list v.vbase v.vct)]
    else [(0, .idle)]
  let b : List (Nat × VPhase) := match v.pend with | some p => [(p.at_, .run p.list p.at_ p.vct)] | none => []
  let c : List (Nat × VPhase) := match v.stopAt with | some t => [(t, .idle)] | none => []
  match v.pend, v.stopAt with
  | some p, some t => if t < p.at_ then a ++ c ++ b else a ++ b ++ c
  | _, _ => a ++ b ++ c

/-- The phase in force at ns t. -/
def vPhaseAt (x : Port) (t : Nat) : VPhase :=
  match (vPhases x).filter fun p => p.1 ≤ t with
  | [] => .idle
  | l => (l.getLast?.map (·.2)).getD .idle

/-- The window in force at ns t. -/
def vWinAt (x : Port) (t : Nat) : VWin :=
  match vPhaseAt x t with
  | .idle => { o := 0, e := 0, gates := x.vset.idleGates, hold := x.vset.idleHold, idx := 0 }
  | .run k base vct =>
    let r := if vct = 0 then 0 else (t - base) % vct
    match (vWins x.vset (vList x k) vct).find? fun z => z.o ≤ r && r < z.e with
    | some z => z
    | none => { o := 0, e := 0, gates := x.vset.idleGates, hold := x.vset.idleHold, idx := 0 }

/-- Whether a window [o, e), repeated every per from base on, meets [t0, t1). -/
def perMeets (base o e per t0 t1 : Nat) : Bool :=
  let lo := base + o
  let hi := base + e
  let k := if t0 < hi then 0 else (t0 - hi) / per + 1
  o < e && lo + k * per < t1 && t0 < hi + k * per

/-- Whether a test of windows holds over [t0, t1) in Q, phase by phase: f is whether a window is good. -/
def vThrough (x : Port) (f : VWin → Bool) (t0 t1 : Nat) : Bool :=
  let ps := vPhases x
  (ps.zip ((ps.drop 1).map (fun p => some (p.1 * qPerNs)) ++ [none])).all fun y =>
    let a := max t0 (y.1.1 * qPerNs)
    let b := match y.2 with | some z => min t1 z | none => t1
    b ≤ a || match y.1.2 with
      | .idle => f { o := 0, e := 0, gates := x.vset.idleGates, hold := x.vset.idleHold, idx := 0 }
      | .run k base vct =>
        (vWins x.vset (vList x k) vct).all fun z =>
          f z || !(perMeets (base * qPerNs) (z.o * qPerNs) (z.e * qPerNs) (vct * qPerNs) a b)

/-- The gate of class c is open throughout [t0, t1) in Q. -/
def openThrough (x : Port) (c t0 t1 : Nat) : Bool := vThrough x (fun z => bit z.gates c) t0 t1

/-! ### Course reservations (R158) -/

/-- The bank whose frames a course sends in the cycle that begins at b: none while it sends nothing. -/
def bankForCycle (c : CourseDyn) (b : Nat) : Option Nat :=
  let w := xor c.bank ((c.swaps.filter (· ≤ b)).length % 2 == 1)
  if c.stopAt.any (· ≤ b) then none
  else match c.state with
    | 1 => if c.startAt.any (· ≤ b) then some (if c.safeAtStart.isSome then 2 else b2n w) else none
    | 2 => some (b2n w)
    | 3 => if c.resumeAt.any (· ≤ b) then some (b2n w) else some 2
    | _ => none

/-- The outbound frames launched by port p whose cycles begin in [t0 - ct, t1], as (launch ns, N). -/
def launchesIn (s : State) (p t0 t1 : Nat) : List (Nat × Nat) :=
  let c := courseOf s p
  let ct := (port s (own s p)).ccfg.ct
  if ct = 0 ∨ c.state = 0 then []
  else
    let b0 := nextB s.line.anchor ct (t0 - 2 * ct)
    (List.range ((t1 - b0) / ct + 1)).flatMap fun i =>
      let b := b0 + i * ct
      match bankForCycle c b with
      | none => []
      | some k => (outFrames s p k).map fun f => (b + f.2.1, f.2.2)

/-- Whether [t0, t1) in Q keeps the reservations of port p, bq its byte time in Q. -/
def keepsLaunch (s : State) (p bq t0 t1 : Nat) : Bool :=
  (launchesIn s p (t0 / qPerNs) (t1 / qPerNs + 1 + 8 * bq / qPerNs)).all fun f =>
    let l := f.1 * qPerNs
    t1 ≤ l - 8 * bq || l + bq * (f.2 + 12) ≤ t0

/-! ### Preemption (R162 to R165) -/

def peEn (x : Port) : Bool := bit x.pre.cfg.toNat 0
def peMask (x : Port) : Nat := bits x.pre.cfg.toNat 8 1
def peFrag (x : Port) : Nat := bits x.pre.cfg.toNat 10 9
def peNoVerify (x : Port) : Bool := bit x.pre.cfg.toNat 11
def peTime (x : Port) : Nat := bits x.pre.cfg.toNat 19 12

/-- Preemption is active. -/
def peActive (x : Port) : Bool :=
  peEn x && x.link.up && 2 ≤ x.link.speed && (peNoVerify x || (x.pre.okay && !x.pre.failed))

/-- Verify status code (R163). -/
def peStatus (x : Port) : Nat :=
  if !(peEn x) || peNoVerify x then 0
  else if !x.link.up then 1
  else if x.link.speed = 1 then 5
  else if x.pre.okay then 3
  else if x.pre.failed then 4
  else 2

/-- Whether class c of a port is sent preemptible now. -/
def preemptible (x : Port) (c : Nat) : Bool := peActive x && bit (peMask x) c

/-- W(n) in Q. -/
def holdQ (n : Nat) (x : Port) : Nat := lineQ n x * (64 * (1 + peFrag x) + 79)

/-- HOLD_ADV: W(n) in whole ns, rounded up; 0 while inactive. -/
def holdAdv (n : Nat) (x : Port) : Nat := if peActive x then (holdQ n x + qPerNs - 1) / qPerNs else 0

/-- Whether a course hold is in force at Q t: from L - 8b - W(n) to the frame's end. -/
def courseHoldAt (s : State) (p t : Nat) : Bool :=
  let x := port s p
  let bq := lineQ p x
  peActive x && (launchesIn s p (t / qPerNs) (t / qPerNs + (holdQ p x + 8 * bq) / qPerNs + 1)).any fun f =>
    let l := f.1 * qPerNs
    l ≤ t + 8 * bq + holdQ p x && t < l + bq * f.2

/-- Whether a list's or the idle hold is in force at ns t. -/
def listHoldAt (x : Port) (t : Nat) : Bool := (vWinAt x t).hold

/-- HOLD_NOW. -/
def holdAt (s : State) (p t : Nat) : Bool := listHoldAt (port s p) (t / qPerNs) || courseHoldAt s p t

/-- F(N) in Q. -/
def fragQ (p : Nat) (x : Port) (n : Nat) : Nat :=
  let f := 64 * (1 + peFrag x)
  if n < f + 60 then lineQ p x * (n + 8) else lineQ p x * (f + 8)

/-- MAX_LEN of a class, held to MAX_FRAME (R151). -/
def maxLen (x : Port) (c : Nat) : Nat := min (x.vset.maxLen.getD c 1522) (pMaxFrame x)

/-- Whether a frame of n bytes of class c may start on port p at Q t (R157, R158, R164): an express frame by the gate and
reservations, a preemptible one by R164. -/
def mayStart (s : State) (p c n t : Nat) : Bool :=
  let x := port s p
  let bq := lineQ p x
  if preemptible x c then !(holdAt s p t) && openThrough x c t (t + fragQ p x n) && keepsLaunch s p bq t (t + fragQ p x n + 12 * bq)
  else openThrough x c t (t + bq * (n + 8)) && keepsLaunch s p bq t (t + bq * (n + 20))

/-! ### Start instants in a cycle (R161, R170) -/

/-- A port whose valve runs list k from base with cycle vct, with nothing pending. -/
def asRunning (x : Port) (k base vct : Nat) : Port :=
  { x with valve := { x.valve with state := 2, list := k, vbase := base, vct := vct, pend := none, stopAt := none, idle := none } }

/-- Candidate starts in one span of a list: the starts of its windows and the ends of the course reservations, in Q. -/
def startPoints (s : State) (p k base vct span : Nat) : List Nat :=
  let x := port s p
  let bq := lineQ p x
  let ws := (List.range (span / vct + 1)).flatMap fun i =>
    (vWins x.vset (vList x k) vct).map fun z => (base + i * vct + z.o) * qPerNs
  ws ++ (launchesIn s p base (base + span)).flatMap fun f =>
    [f.1 * qPerNs + bq * (f.2 + 12), f.1 * qPerNs + bq * f.2]

/-- Whether a frame of n bytes of class c has a start instant in the cycle of list k run from base (R161, R170). -/
def hasStart (s : State) (p c n k base vct : Nat) : Bool :=
  if vct = 0 then true
  else
    let s1 := modPort s p fun x => asRunning x k base vct
    let span := if (courseOf s p).state = 0 then vct else max vct ((port s (own s p)).ccfg.ct)
    (startPoints s1 p k base vct span).any fun t => base * qPerNs ≤ t && mayStart s1 p c n t

/-- SHORT: the classes for which no frame of MAX_LEN bytes has a start instant, at the planned speed (R170). -/
def shortMask (s : State) (p k base vct : Nat) : Nat :=
  let s := modPort s p fun x => { x with link := { x.link with speed := plannedSpeed p x } }
  ((List.range 8).filter fun c => !(hasStart s p c (maxLen (port s p) c) k base vct)).foldl (fun a c => a + 2 ^ c) 0

end Sys2Proof.Machine
end

