-- ==== Sys2Proof/Machine/Pulse.lean ====
section
/-! DEFINITION. Pulse units, TP pins and capture inputs (R65 to R71, R77). -/

namespace Sys2Proof.Machine

/-- The earliest tb + k x per at or after lim, and k (R66, R106, R153). -/
def firstAt (tb per lim : Nat) : Nat × Nat :=
  if lim ≤ tb then (tb, 0) else let k := (lim - tb + per - 1) / per; (tb + k * per, k)

def pulse (s : State) (u : Nat) : Pulse := s.pulse.units.look u {}
def setPulse (s : State) (u : Nat) (p : Pulse) : State :=
  { s with pulse := { s.pulse with units := s.pulse.units.put u p {} } }

/-- R66 and R67: whether a configuration runs from now (nowUp), its first leading edge, k, and whether it is late. A late one-shot with
LATE set fires at once (DESIGN CHOICE: at the commit or step, log entry 14). -/
def pulseBegin (c : PulseCfg) (now : Nat) : Bool × Nat × Nat × Bool :=
  if c.period ≠ 0 then
    let x := firstAt c.start c.period (now + 1000)
    (true, x.1, x.2, x.2 ≠ 0)
  else if c.start < now + 1000 then (c.late, now, 0, true)
  else (true, c.start, 0, false)

/-! ### Pins (R68, R69) -/

/-- The level of pin TP[k]: its unit's, the leading edge of a pulse rising with POLARITY 0 and falling with 1 and the pin inactive
outside a pulse; or held low or high. -/
def tpLevel (s : State) (k : Nat) : Bool :=
  let r := s.pulse.routes.look k 32
  if r / 32 = 0 then (let p := pulse s (r % 32); xor p.busyTo.isSome p.cfg.pol) else r / 32 == 2

/-- The TP pins that take another level between s and t. -/
def showPins (s t : State) : State :=
  (List.range 8).foldl (fun u k => if tpLevel s k = tpLevel t k then u else emit u (.tp k (tpLevel t k) (nowNs t))) t

/-- A unit's event bit (R77). -/
def pulseEvent (s : State) (u : Nat) (b : Bool) : State := if b then raise s 0x50000 (2 ^ u) else s

/-- R65's rules for a PULSE_SET. -/
def pulseCfgOk (c : PulseCfg) : Bool :=
  (c.period == 0 || 20 ≤ c.period) && 10 ≤ c.width && (c.period == 0 || c.width + 10 ≤ c.period)

/-- PULSE_SET (R65 to R68). -/
def bodyPulseSet (_ : CmdHdr) (w : List Word) (s : State) : State × Reply :=
  let u := fld w 0 4 0
  if fld w 0 31 8 ≠ 0 then (s, .err stInvalid 1)
  else match instantAt w 1 with
    | .error d => (s, .err stInvalid d)
    | .ok st =>
      let c : PulseCfg :=
        { start := st, period := prm w 4, width := prm w 5, count := prm w 6, pol := bit (prm w 0) 5, late := bit (prm w 0) 6,
          endEv := bit (prm w 0) 7 }
      if !(pulseCfgOk c) then (s, .err stInvalid (if c.period ≠ 0 ∧ c.period < 20 then 5 else 6))
      else
        let b := pulseBegin c (nowUp s)
        let p := pulse s u
        let p' := match p.busyTo with
          | some _ => { p with waiting := some (some (c, b.2.1, b.1)) }
          | none => { cfg := c, run := b.1, next := b.2.1 }
        (pulseEvent (showPins s (setPulse s u p')) u b.2.2.2, .rep (if b.2.2.1 = 0 then 0 else 16) [wd (sat32 b.2.2.1)])

/-- PULSE_STOP (R68). -/
def bodyPulseStop (_ : CmdHdr) (w : List Word) (s : State) : State × Reply :=
  let u := fld w 0 4 0
  if fld w 0 31 5 ≠ 0 then (s, .err stInvalid 1)
  else
    let p := pulse s u
    (setPulse s u (match p.busyTo with
      | some _ => { p with waiting := some none }
      | none => { p with run := false }), .ok)

/-- The leading edge of a unit's next pulse (R65): the pulse runs until next + WIDTH. -/
def pulseLead (s : State) (u : Nat) : State :=
  let p := pulse s u
  let s := atNs s p.next
  emit (showPins s (setPulse s u { p with busyTo := some (p.next + p.cfg.width), emitted := p.emitted + 1 })) (.pulse u p.next)

/-- Whether the pulse in progress, or the one emitted last, is a unit's last. -/
def lastPulse (p : Pulse) : Bool := p.cfg.period == 0 || (p.cfg.count != 0 && p.cfg.count ≤ p.emitted)

/-- A configuration that waited for the end e of a pulse takes effect (R68): from its first edge on, or, where that has passed by then,
a one-shot at e and a periodic one at its next edge, with no lateness reported anew (DESIGN CHOICE, log entry 156). -/
def pulseTakes (c : PulseCfg) (n : Nat) (run : Bool) (e : Nat) : Pulse :=
  { cfg := c, run := run, next := if e ≤ n then n else if c.period = 0 then e else (firstAt n c.period e).1 }

/-- The trailing edge at e (R65, R68): the last pulse ends the unit and may raise its event, whether or not a command waits for this end;
a waiting command takes effect. -/
def pulseTrail (s : State) (u e : Nat) : State :=
  let p := pulse s u
  let s := atNs s e
  let s1 := pulseEvent s u (lastPulse p && p.cfg.endEv)
  showPins s1 (setPulse s1 u (match p.waiting with
    | some none => { p with busyTo := none, waiting := none, run := false }
    | some (some (c, n, run)) => pulseTakes c n run e
    | none => if lastPulse p then { p with busyTo := none, run := false }
        else { p with busyTo := none, next := p.next + p.cfg.period }))

/-- PULSE_EDGE: a running unit's next edge, leading or trailing. -/
def execPulseEdge (u : Nat) (s : State) : Out :=
  let p := pulse s u
  .next (match p.busyTo with
    | some e => pulseTrail s u e
    | none => if p.run then pulseLead s u else s)

/-- A unit after a step of line time by d ns, now taken after it: a running unit re-anchors by R66 and R67. A pulse in progress
ends at its old width, and what was to follow it re-anchors too. COUNT counts anew from the first pulse after the step (DESIGN
CHOICE, log entry 125). With it, whether the unit's event is raised. -/
def pulseStepped (p : Pulse) (now : Nat) (d : Int) : Pulse × Bool :=
  match p.busyTo with
  | none =>
    if !p.run then (p, false)
    else let b := pulseBegin p.cfg now; ({ p with run := b.1, next := b.2.1, emitted := 0 }, b.2.2.2)
  | some e =>
    let q := { p with busyTo := some (((e : Int) + d).toNat) }
    match p.waiting with
    | some none => (q, false)
    | some (some (c, _, run)) =>
      if !run then (q, false) else let b := pulseBegin c now; ({ q with waiting := some (some (c, b.2.1, b.1)) }, b.2.2.2)
    | none =>
      if lastPulse p then (q, false)
      else let b := pulseBegin p.cfg now; ({ q with waiting := some (some (p.cfg, b.2.1, b.1)) }, b.2.2.2)

/-- A unit's reaction to a step by d ns (R68). -/
def pulseReanchor (d : Int) (s : State) (u : Nat) : State :=
  let x := pulseStepped (pulse s u) (nowUp s) d
  pulseEvent (setPulse s u x.1) u x.2

/-- PIN_ROUTE_SET (R69): the source of one TP pin, kept as the word's [9:3]; 32 (low) is the reset source. -/
def bodyPinRouteSet (_ : CmdHdr) (w : List Word) (s : State) : State × Reply :=
  if fld w 0 31 10 ≠ 0 ∨ fld w 0 9 8 = 3 then (s, .err stInvalid 1)
  else (showPins s { s with pulse := { s.pulse with routes := s.pulse.routes.put (fld w 0 2 0) (fld w 0 9 3) 32 } }, .ok)

def capture (s : State) (c : Nat) : Capture := s.pulse.caps.look c {}
def modCapture (s : State) (c : Nat) (f : Capture → Capture) : State :=
  { s with pulse := { s.pulse with caps := s.pulse.caps.put c (f (capture s c)) {} } }

/-- CAPTURE_SET (R70). -/
def bodyCaptureSet (_ : CmdHdr) (w : List Word) (s : State) : State × Reply :=
  if fld w 0 31 4 ≠ 0 then (s, .err stInvalid 1)
  else (modCapture s (fld w 0 1 0) fun c => { c with edges := fld w 0 3 2 }, .ok)

/-- Whether edges of capture input c give line time its seconds: it is the PPS source (R50). -/
def isPps (s : State) (c : Nat) : Bool := s.time.source == 4 && s.time.srcIdx == c

/-- A rising edge at t16 of the PPS source: an offset sample, source time minus line time (R50, R52). The first edge after
TIME_SOURCE_SET stands for the seconds value of the command, a later one for the whole second that line time has reached since
(DESIGN CHOICE, log entry 126). -/
def ppsSample (s : State) (t16 : Nat) : State :=
  let t := s.time
  match t.epochSec with
  | none => s
  | some sec =>
    let q := 1000000000 * 65536
    let n := if t.secKnown then (t16 - t.epochAt + q / 2) / q else 0
    { s with time := { t with
      secKnown := true
      epochAt := if t.secKnown then t.epochAt else t16
      sampleQ := t.sampleQ ++ [((sec + n) * q : Int) - t16] } }

/-- An edge of input c that its FIFO records, or counts in LOST, which saturates (R70, R71, R237). -/
def capturePut (s : State) (c : Nat) (falling : Bool) (t16 : Nat) : State :=
  let x := capture s c
  if x.fifo.length < 16 then modCapture s c fun x => { x with fifo := x.fifo ++ [(t16, falling)] }
  else
    let a := 0x5010C + 16 * c
    let s1 := modCapture (setFresh s a (freshAt s a + if x.lost < 0xFFFF then 1 else 0)) c fun x => { x with lost := min 0xFFFF (x.lost + 1) }
    if x.lost = 0x7FFF then pendFault s1 .package 16 else s1

/-- CAPTURE_EDGE: a rising edge of the PPS source is a sample; a selected edge enters the input's FIFO. The PPS source feeds its
FIFO with the edges CAPTURE_SET selects (DESIGN CHOICE, log entry 127). -/
def execCaptureEdge (c : Nat) (falling : Bool) (t16 : Nat) (s : State) : Out :=
  let on := bit (capture s c).edges (b2n falling)
  let pps := isPps s c && !falling
  .next (
    if !on && !pps then s
    else
      let s := at16 s t16
      let s := if pps then ppsSample s t16 else s
      if on then capturePut s c falling t16 else s)

/-- CAP_NS_READ (R77): the oldest entry is removed and latched; an empty FIFO reads all ones and latches nothing. -/
def execCapNsRead (c : Nat) (s : State) : Out :=
  .next (if 3 < c then s else busRead s (0x50100 + 0x10 * c) fun s =>
    match (capture s c).fifo with
    | [] => emit s (.read [0xFFFFFFFF])
    | e :: r =>
      let ns := e.1 / 65536
      emit (modCapture s c fun x => { x with fifo := r, latSec := ns / 1000000000, latFrac := e.1 % 65536, latFall := e.2 })
        (.read [wd (ns % 1000000000)]))

def execPulseSet (h : CmdHdr) (w : List Word) (s : State) : Out := .next (runCmd s h 0x0407 w bodyPulseSet)
def execPulseStop (h : CmdHdr) (w : List Word) (s : State) : Out := .next (runCmd s h 0x0408 w bodyPulseStop)
def execPinRouteSet (h : CmdHdr) (w : List Word) (s : State) : Out := .next (runCmd s h 0x0409 w bodyPinRouteSet)
def execCaptureSet (h : CmdHdr) (w : List Word) (s : State) : Out := .next (runCmd s h 0x040A w bodyCaptureSet)

end Sys2Proof.Machine
end

