-- ==== Sys2Proof/Machine/Time.lean ====
section
/-! DEFINITION. Line time: the counter, its registers, the time commands that cause no step, and the transmit timestamp rings (R43 to
R51, R57, R60, R62, R72 to R76, R78). -/

namespace Sys2Proof.Machine

/-! ### The counter (R47, R352) -/

/-- What line time gains in one cycle of the clock that carries it: TIME, TIME in a ramp, or the reed, qualified or not; nothing while
neither runs. -/
def tickUnits (s : State) : Nat :=
  match s.clock.state with
  | .run => (5 * ((2 ^ 40 : Int) + s.time.rate)).toNat
  | .ramp => (5 * s.clock.rampDiv * ((2 ^ 40 : Int) + s.time.rate)).toNat
  | .off => 0
  | _ => if s.clock.reedStop then 0 else (80 * ((2 ^ 40 : Int) + s.time.rate)).toNat

/-- One cycle of line time (DESIGN CHOICE, log entry 1: what a step does on an empty queue). -/
def timeTick (s : State) : State :=
  { s with time := { s.time with units := (s.time.units + tickUnits s) % unitsWrap } }

/-! ### Records of state changes (R391) -/

def tCode : TState → Nat
  | .free => 0 | .acquire => 1 | .step => 2 | .track => 3 | .locked => 4 | .holdover => 5

/-- The OFFSET register: whole ns, floor, saturating (R76; DEDUCED, log entry 15). -/
def offsetReg (s : State) : Nat := uns 32 (clamp (-2147483647) 2147483647 (s.time.offset / 65536))

/-- The event bits of a change of the time base state (R76): LOCKED entered or left, HOLDOVER entered. -/
def tStateBits (o n : TState) : Nat :=
  if o = n then 0
  else (if n = .locked then 4 else 0) + (if o = .locked then 8 else 0) + (if n = .holdover then 16 else 0)

/-- A change of the time base state, its TIME record when the state changes or a step is applied, and its events. -/
def setTState (s : State) (n : TState) (stepped : Bool) : State :=
  let o := s.time.state
  let s1 := { s with time := { s.time with state := n } }
  if o = n && !stepped then s1
  else
    let s2 := traceRec s1 0 0x06 0x40000 [tCode o + 8 * tCode n + 64 * b2n stepped, offsetReg s, uns 32 s.time.rate]
    if tStateBits o n = 0 then s2 else raise s2 0x4001C (tStateBits o n)

/-- An AXIS record of axis a, which was in state o. -/
def traceAxis (s : State) (a o : Nat) : State :=
  let d := (axis s a).dyn
  if o = d.state then s
  else traceRec s (dieOfAxis a) 0x04 (regionBase (regionOfAxis a) + 0xC000)
    [a + 2 ^ 14 * o + 2 ^ 17 * d.state + 2 ^ 20 * d.cause]

/-! ### Commands (R75) -/

/-- Register 0x010 of the time block. -/
def timeStatus (s : State) : Nat :=
  tCode s.time.state + 8 * s.time.source + 64 * b2n s.time.permit + 128 * b2n (anyCourse s) + 256 * s.time.srcIdx

/-- TIME_QUERY. -/
def bodyTimeQuery (_ : CmdHdr) (_ : List Word) (s : State) : State × Reply :=
  (s, .ok (ltWords (nowNs s) (nowFrac s) ++
    [wd (timeStatus s), wd (uns 32 s.time.rate), wd (offsetReg s), wd (b2n s.time.permit)] ++
    (List.range (4 * nDies s)).flatMap fun u =>
      let l := s.time.links.look u {}
      [wd (uns 32 l.d), wd (uns 32 l.a)]))

/-- The defaults of R57 for a source. -/
def timeDefaults (src : Nat) : TimeParams :=
  match src with
  | 2 | 3 => { filtN := 0, lockTh := 100, bw := 4, holdTo := 375000 }
  | 4 => { filtN := 0, lockTh := 100, bw := 0, holdTo := 1500000 }
  | _ => {}

/-- The lock parameters a TIME_SOURCE_SET carries. -/
def timeParams (w : List Word) : TimeParams :=
  if bit (prm w 0) 8 then
    { filtN := fld w 0 12 9, stepTh := prm w 1, lockTh := prm w 2, bw := fld w 0 16 13, holdTo := prm w 3,
      maxSlew := fld w 0 27 17 }
  else timeDefaults (fld w 0 2 0)

/-- The reply of the first rule a TIME_SOURCE_SET breaks (R50, R51, R57, R306). -/
def timeSourceBad (s : State) (w : List Word) : Option Reply :=
  let src := fld w 0 2 0
  let ix := fld w 0 6 3
  let m := s.sys.devno = 0
  let md := pMode (port s (512 + ix))
  if fld w 0 31 28 ≠ 0 ∨ 5 ≤ src then some (.err stInvalid 1)
  else if (src = 1 ∧ m) ∨ (2 ≤ src ∧ ¬m) then some (.err stInvalid 1)
  else if src = 0 ∧ ix ≠ 0 then some (.err stInvalid 1)
  else if src = 4 ∧ 4 ≤ ix then some (.err stInvalid 1)
  else if 1 ≤ src ∧ src ≤ 3 ∧ 8 ≤ ix then some (.err stInvalid 1)
  else if 1 ≤ src ∧ src ≤ 3 ∧ !(hasPort s (512 + ix)) then some (.err stAbsent 1)
  else if (src = 1 ∧ md ≠ 2) ∨ ((src = 2 ∨ src = 3) ∧ 2 ≤ md) then some (.err stInvalid 1)
  else if bit (prm w 0) 8 ∧ (10 < fld w 0 12 9 ∨ fld w 0 27 17 = 0 ∨ 1953 < fld w 0 27 17) then some (.err stInvalid 1)
  else if bit (prm w 0) 8 ∧ (prm w 2 = 0 ∨ 65535 < prm w 2) then some (.err stInvalid 3)
  else if bit (prm w 0) 8 ∧ prm w 3 = 0 then some (.err stInvalid 4)
  else if bit (prm w 0) 7 ∧ src = 0 ∧ 1000000000 ≤ prm w 6 then some (.err stInvalid 7)
  else none

/-- TIME_RATE_SET (R58). -/
def bodyTimeRateSet (_ : CmdHdr) (w : List Word) (s : State) : State × Reply :=
  if s.time.state ≠ .free then (s, .err stWrongState)
  else ({ s with time := { s.time with rate := sgn 32 (prm w 0) } }, .ok)

/-- TIME_LINK_SET (R62). -/
def bodyTimeLinkSet (h : CmdHdr) (w : List Word) (s : State) : State × Reply :=
  let u := h.port - 512
  ({ s with time := { s.time with
    links := s.time.links.put u { s.time.links.look u {} with a := sgn 32 (prm w 0) } {} } }, .ok)

/-- Whether a protocol role is one the device supports (R59): 802.1AS has domains 0 to 127, peer delay and no UDP (DEDUCED, log entry
128). -/
def timeRoleOk (c : Nat) : Bool :=
  match bits c 1 0 with
  | 1 => bit c 2 && bits c 11 4 < 128 && !(bit c 12)
  | 3 => false
  | _ => true

/-- TIME_PORT_SET (R59, R60). -/
def bodyTimePortSet (h : CmdHdr) (w : List Word) (s : State) : State × Reply :=
  if fld w 2 31 13 ≠ 0 ∨ timeRoleOk (prm w 2) = false then (s, .err stInvalid 3)
  else (modPort s h.port fun p => { p with time := { egress := w.getD 0 0, ingress := w.getD 1 0, cfg := w.getD 2 0 } }, .ok)

/-! ### Transmit timestamp rings (R72 to R74, R78) -/

def ringUsed (r : TsRing) : Nat := (r.head + 128 - r.tail) % 128

def ringPush (r : TsRing) (x : TsRec) : TsRing :=
  { r with recs := r.recs.put (r.head % 64) x {}, head := (r.head + 1) % 128 }

/-- The gap record, as soon as one record of space is free. -/
def tsGap (s : State) (p : Nat) : State :=
  modPort s p fun x =>
    if x.ring.pending ≠ 0 ∧ ringUsed x.ring < 64 then
      { x with ring := { ringPush x.ring
          { w0 := wd (shortNs s), w1 := wd (nowFrac s + 0x20000), w2 := wd x.ring.pending } with pending := 0 } }
    else x

/-- A record of a transmitted frame: written, or counted in TS_OVF and the pending lost count. -/
def tsRecord (s : State) (p : Nat) (x : TsRec) : State :=
  if !((port s p).ring.on) then s
  else
    let s := tsGap s p
    if ringUsed (port s p).ring < 64 then modPort s p fun q => { q with ring := ringPush q.ring x }
    else countPort (modPort s p fun q => { q with ring := { q.ring with pending := sat32 (q.ring.pending + 1) } }) p 0xC08 1

/-- TS_TAIL_WRITE: ignored where the ring would hold more than 64 records. -/
def plainTsTailWrite (p : Nat) (v : BitVec 7) (s : State) : Out :=
  .next (busWrite s (portBase p + 0xC04) fun s =>
    if 64 < ((port s p).ring.head + 128 - v.toNat) % 128 then s
    else tsGap (modPort s p fun x => { x with ring := { x.ring with tail := v.toNat } }) p)

/-- TSRING_SET: disabling empties the ring and clears its pending lost count. -/
def bodyTsringSet (h : CmdHdr) (w : List Word) (s : State) : State × Reply :=
  if fld w 0 31 1 ≠ 0 then (s, .err stInvalid 1)
  else (modPort s h.port fun p =>
    { p with ring := if bit (prm w 0) 0 then { p.ring with on := true }
        else { p.ring with on := false, tail := p.ring.head, pending := 0 } }, .ok)

/-- NOW_NS_READ (R76): the whole long time of one TIME cycle is latched. -/
def execNowNsRead (s : State) : Out :=
  .next (busRead s 0x40000 fun s =>
    emit { s with time := { s.time with nowSec := nowNs s / 1000000000, nowFrac := nowFrac s } }
      (.read [wd (nowNs s % 1000000000)]))

def execTimeQuery (h : CmdHdr) (w : List Word) (s : State) : Out := .next (runCmd s h 0x0401 w bodyTimeQuery)
def execTimeRateSet (h : CmdHdr) (w : List Word) (s : State) : Out := .next (runCmd s h 0x0404 w bodyTimeRateSet)
def execTimeLinkSet (h : CmdHdr) (w : List Word) (s : State) : Out := .next (runCmd s h 0x0405 w bodyTimeLinkSet)
def execTimePortSet (h : CmdHdr) (w : List Word) (s : State) : Out := .next (runCmd s h 0x0406 w bodyTimePortSet)
def execTsringSet (h : CmdHdr) (w : List Word) (s : State) : Out := .next (runCmd s h 0x040B w bodyTsringSet)

end Sys2Proof.Machine
end

