-- ==== Sys2Proof/Machine/Link.lean ====
section
/-! DEFINITION. What a change of gates, holds, preemption or the link does to a port: the frame on the line, the verify exchange, lanes
and links (R160, R163 to R166, R228 to R232, R429). -/

namespace Sys2Proof.Machine

/-! ### Gates, holds and the frame on the line (R160, R164 to R166) -/

/-- A preemptible frame in transmission cut at the first permitted byte at or after 2^-16 ns t, or at once where the last permitted one
has passed. A frame too short to be cut runs to its end (R164, R166; DEDUCED, log entry 22). -/
def cutTx (p : Nat) (x : Port) (t : Nat) : Port :=
  match x.txd.tx with
  | none => x
  | some f =>
    if !f.pre || f.cut then x
    else
      let m := f.bytes.length - f.sent
      let f0 := 64 * (1 + peFrag x)
      let k := max (((t - f.t16) * 100 + lineQ p x - 1) / lineQ p x - 8) (f0 - 4)
      if f0 + 60 ≤ m && k < m then { x with txd := { x.txd with tx := some { f with now := k, cut := true } } } else x

/-- The end, in Q, of what a port is sending: preamble, the bytes of this fragment and, for a cut one, its mCRC. -/
def txEndQ (p : Nat) (x : Port) (f : Tx) : Nat := f.t16 * 100 + lineQ p x * (f.now + 8 + (if f.cut then 4 else 0))

/-- The end, in Q, of a cut-through frame that reaches its limit (R169). -/
def cutEndQ (p : Nat) (x : Port) (f : Tx) : Nat := f.t16 * 100 + lineQ p x * (f.lim + 8)

/-- Whether a frame that is no fragment is on the line now: a cut-through one that still arrives at most to its limit. -/
def onLine (s : State) (p : Nat) (f : Tx) : Bool :=
  decide (now16 s * 100 < (if f.now = 0 then cutEndQ p (port s p) f else txEndQ p (port s p) f))

/-- Whether hold is in force on port p now, and the gates in force. -/
def holdNow (s : State) (p : Nat) : Bool := holdAt s p (now16 s * 100)
def gatesNow (s : State) (p : Nat) : Nat := (vWinAt (port s p) (nowNs s)).gates

/-- Hold comes into force: counted, and the preemptible frame on the line is cut (R165, R166). -/
def holdComes (s : State) (p : Nat) : State := modPort (countPort s p 0x438 1) p fun x => cutTx p x (now16 s)

/-- Hold comes into force now where it was not before, h0 (R165, R166). -/
def holdMove (h0 : Bool) (s : State) (p : Nat) : State := if !h0 && holdNow s p then holdComes s p else s

/-- What a change of gates and hold does, h0 and g0 being those before it: hold as above; a preemptible frame on the line whose gate is
now closed is cut, another whose gate has closed counts in OVERRUN, once (R160, R166, R169). -/
def gateMove (h0 : Bool) (g0 : Nat) (s : State) (p : Nat) : State :=
  let s := holdMove h0 s p
  let x := port s p
  match x.txd.tx with
  | none => s
  | some f =>
    if bit (gatesNow s p) f.cls || f.course.isSome then s
    else if f.pre then modPort s p fun x => cutTx p x (now16 s)
    else if bit g0 f.cls && !f.overran && onLine s p f then
      raisePort (countPort (modPort s p fun x => { x with txd := { x.txd with tx := some { f with overran := true } } }) p 0x420 1) p 0x408 8
    else s

/-- The same at ns t, from the state s0 before it. -/
def gateEdge (s0 s : State) (p t : Nat) : State :=
  gateMove (listHoldAt (port s0 p) (t - 1) || courseHoldAt s0 p (t * qPerNs - 1)) (vWinAt (port s0 p) (t - 1)).gates s p

/-! ### Preemption settings and verify (R162, R163) -/

/-- PE_CHANGE, where PE_ACTIVE differs from what it was; a course hold may come into force with it (R165). -/
def peChanged (old s : State) (p : Nat) : State :=
  if peActive (port old p) != peActive (port s p) then holdMove (holdNow old p) (raisePort s p 0x408 32) p else s

/-- A verify mPacket sent, and its deadline. A transmitter that may send nothing (R337, R340) sends none, and the exchange tries again at
the deadline (DESIGN CHOICE, log entry 162). -/
def sendVerify (s : State) (p : Nat) : State :=
  let x := port s p
  let put (n : Nat) : State :=
    setPort s p { x with pre := { x.pre with tries := x.pre.tries + n, deadline := some (nowNs s + peTime x * 1000000) } }
  if !(peEn x && !(peNoVerify x) && x.link.up && 2 ≤ x.link.speed) then s
  else if canSend s p then emit (put 1) (.mpacket p (now16 s) .verify)
  else put 0

/-- The verify exchange begun anew: after a change of the link or of PE_EN. -/
def restartVerify (s : State) (p : Nat) : State :=
  sendVerify (modPort s p fun x => { x with pre := { cfg := x.pre.cfg } }) p

/-- Whether uplink p carries twin traffic (R252). -/
def isTwinLane (p : Nat) : Bool := p == 514 || p == 515 || p == 518 || p == 519

/-! ### Lanes (R12, R228) -/

/-- The lane of a port, by its key. -/
def laneOf (p : Nat) : Nat := if p < 512 then p / 4 else 128 + (p - 512)

/-- The ports of a lane. -/
def lanePorts (q : Nat) : List Nat := if q < 128 then [4 * q, 4 * q + 1, 4 * q + 2, 4 * q + 3] else [512 + (q - 128)]

/-! ### The link of a port (R229 to R232, R244, R245) -/

/-- Whether a port's own logic and lane let its link be up: enabled, running, awake, not restarting, its lane powered and not in
or after a failed full recalibration. -/
def canLink (s : State) (p : Nat) : Bool :=
  let x := port s p
  let l := lane s (laneOf p)
  pAdmin x && portRuns s p && !x.link.sleeping && !x.link.restart && !l.off && l.recal != some 1 && !l.retry

/-- A port's pauses when its link goes down: every timer expires at once (R232). -/
def endPauses (t : Tbl Pause) : Tbl Pause :=
  (keys t).foldl (fun t c => t.put c { (t.look c {}) with until_ := 0, since := none } {}) t

/-- A Hyith link starts again when its uplink comes up: credit counts, time words (R61, R273). -/
def hyithUp (s : State) (u : Nat) : State :=
  let s := modHlink s u fun l => { l with sent := 0, limit := 16, rxLimit := 16, limitSent := 16 }
  { s with time := { s.time with
    links := s.time.links.put u { s.time.links.look u {} with rxSeq := none, rxNew := false, echoSeq := none } {} } }

/-- The link of port p goes up at a speed code, or down. -/
def setLink (s : State) (p : Nat) (up : Bool) (speed : Nat) : State :=
  let o := (port s p).link
  let sp := if up then speed else 0
  if o.up == up && o.speed == sp then s
  else
    let s1 := modPort s p fun x => { x with
      link := { x.link with up := up, speed := sp, localFault := isUplink p && !up, remoteFault := false }
      txd := if up then x.txd else { x.txd with pauses := endPauses x.txd.pauses } }
    let s2 := if o.up && !up then countPort s1 p 0x1C4 1 else s1
    let s3 := if o.up == up then s2 else raisePort s2 p 0x024 1
    let s4 := if up && isUplink p && pMode (port s3 p) == 2 then hyithUp s3 (p - 512) else s3
    peChanged s (restartVerify s4 p) p

/-- Whether a drive port in MODE 0 whose course or valve is not OFF has a PHY at another speed than SPEED (R429). -/
def speedWrong (s : State) (p : Nat) : Bool :=
  let x := port s p
  ((courseOf s p).state != 0 || x.valve.state != 0) && x.link.phySpeed.any (· != pSpeed x)

/-- The link of a drive port in MODE 0 as the PHY's control words, its course and its valve have it: half duplex, and a speed that
must not be, hold it down (R229, R230, R429). -/
def controlLink (s : State) (p : Nat) : State :=
  let x := port s p
  match x.link.phySpeed with
  | none => s
  | some v =>
    if 512 ≤ p || pMode x != 0 || !(canLink s p) || !(lane s (laneOf p)).lock then s
    else if !x.link.phyUp then setLink s p false 0
    else if !x.link.fullDuplex then raisePort (setLink s p false 0) p 0x024 2
    else if speedWrong s p then raisePort (setLink s p false 0) p 0x024 128
    else setLink s p true (v + 1)

/-- The same when the course or valve of port p has left or entered OFF: the control words go on as they were (R429). -/
def speedHold (s : State) (p : Nat) : State :=
  let x := port s p
  if x.link.phyUp && x.link.fullDuplex && x.link.up == speedWrong s p then controlLink s p else s

end Sys2Proof.Machine
end

