-- ==== Sys2Proof/Machine/Valve.lean ====
section
/-! DEFINITION. Valves and preemption: their commands and instants (R147 to R171). -/

namespace Sys2Proof.Machine

/-! ### Registers (R172) -/

/-- Register 0x400; ENTRY is the index of the entry in force. -/
def valveStatus (s : State) (p : Nat) : Nat :=
  let x := port s p
  let v := x.valve
  v.state + 4 * v.list + 8 * b2n v.pend.isSome + 16 * (if v.state = 2 then (vWinAt x (nowNs s)).idx else 0)

/-- Register 0x404. -/
def preemptStatus (s : State) (p : Nat) : Nat :=
  let x := port s p
  let t := now16 s * 100
  (vWinAt x (nowNs s)).gates + 256 * b2n (holdAt s p t) + 512 * b2n (courseHoldAt s p t) + 1024 * b2n (peActive x) +
    2048 * peStatus x + 16384 * peFrag x + 65536 * holdAdv p x

/-- VALVE_QUERY. -/
def bodyValveQuery (h : CmdHdr) (_ : List Word) (s : State) : State × Reply :=
  let v := (port s h.port).valve
  let a := match v.pend, v.stopAt with | some x, _ => x.at_ | none, some t => t | none, none => 0
  (s, .ok ([wd (valveStatus s h.port)] ++ ltWords v.vbase 0 ++ [wd v.vct] ++ ltWords a 0 ++
    [wd (reg s (portBase h.port + 0x410))]))

/-! ### Settings and lists (R147, R151, R170) -/

/-- VALVE_SET. -/
def bodyValveSet (h : CmdHdr) (w : List Word) (s : State) : State × Reply :=
  let x := port s h.port
  let ml := (List.range 8).map fun c => fld w (1 + c / 2) (16 * (c % 2) + 15) (16 * (c % 2))
  if x.valve.state ≠ 0 then (s, .err stWrongState)
  else if fld w 0 31 12 ≠ 0 ∨ bit (peMask x) (fld w 0 2 0) then (s, .err stInvalid 1)
  else match ml.zipIdx.find? fun m => m.1 < 64 ∨ pMaxFrame x < m.1 with
    | some m => (s, .err stInvalid (2 + m.2 / 2))
    | none =>
      let s1 := modPort s h.port fun x =>
        { x with vset := { courseClass := fld w 0 2 0, idleGates := fld w 0 10 3, idleHold := bit (prm w 0) 11, maxLen := ml } }
      (gateMove (holdNow s h.port) (gatesNow s h.port) s1 h.port, .ok)

/-- The list capacity of a port (R147). -/
def vCap (p : Nat) : Nat := if p < 512 then 1024 else 4096

def setVList (x : Port) (k : Nat) (l : VList) : Port := if k = 0 then { x with list0 := l } else { x with list1 := l }

/-- The entries a VALVE_WRITE carries. -/
def vWritten (w : List Word) (n : Nat) : List VEntry :=
  (List.range n).map fun i => { w0 := w.getD (2 + 2 * i) 0, w1 := w.getD (3 + 2 * i) 0 }

/-- TRUNC: the intervals exceed the cycle (R149). -/
def vTrunc (l : VList) (vct : Nat) : Bool := vct != 0 && vct < vSum l

/-- VALVE_WRITE: checks 1, 2, 5 and 6 of R170. -/
def bodyValveWrite (h : CmdHdr) (w : List Word) (s : State) : State × Reply :=
  let x := port s h.port
  let k := fld w 0 0 0
  let first := fld w 0 12 1
  let len := fld w 1 12 0
  let n := fld w 1 23 13
  let es := vWritten w n
  if fld w 0 31 13 ≠ 0 ∨ fld w 1 31 24 ≠ 0 ∨ vCap h.port < len ∨ vCap h.port < first + n ∨ 1024 < n ∨
      es.any fun e => e.w1.toNat / 2 ≠ 0 then (s, .err stInvalid 1)
  else if es.any fun e => 0 < vInterval e ∧ vInterval e < 32 then (s, .err stInvalid 2)
  else if x.valve.state ≠ 0 ∧ k = x.valve.list then (s, .err stWrongState 5)
  else if x.valve.pend.isSome then (s, .err stWrongState 6)
  else
    let l := vList x k
    let l' : VList := { len := len, entries := es.zipIdx.foldl (fun t e => t.put (first + e.2) e.1 {}) l.entries }
    (setPort s h.port (setVList x k l'), .rep (b2n (vTrunc l' x.valve.vct)) [])

/-- VALVE_READ. -/
def bodyValveRead (h : CmdHdr) (w : List Word) (s : State) : State × Reply :=
  let first := fld w 0 12 1
  let n := fld w 1 10 0
  if fld w 0 31 13 ≠ 0 ∨ vCap h.port ≤ first then (s, .err stInvalid 1)
  else if fld w 1 31 11 ≠ 0 ∨ n = 0 ∨ 1024 < n ∨ vCap h.port < first + n then (s, .err stInvalid 2)
  else (s, .ok ((List.range n).flatMap fun i =>
    let e := vEntry (vList (port s h.port) (fld w 0 0 0)) (first + i)
    [e.w0, e.w1]))

/-! ### Start, swap and stop (R153 to R155, R170) -/

/-- The course state and bank of a port as the members of a transaction will leave them (R170). -/
def courseAfter (s : State) (p : Nat) (ms : List Member) : Bool × Bool :=
  let o := own s p
  let c := courseOf s p
  ms.foldl (fun (a : Bool × Bool) m =>
    if own s m.h.port ≠ o then a
    else if m.op = 0x0606 then (true, bit (prm m.w 0) 0)
    else if m.op = 0x0607 then (a.1, !a.2)
    else a) (c.state ≠ 0, c.bank)

/-- Checks 4 and 7 of R170, for list k run from tb with cycle vct. With the course OFF the working bank is the one its BANK bit names,
and a port whose course has no cycle time yet has no frame to place (DEDUCED, log entry 20). -/
def valveCheck (s : State) (p k tb vct : Nat) (ms : List Member) : Option Reply :=
  let a := courseAfter s p ms
  let ct := (port s (own s p)).ccfg.ct
  if 512 ≤ p || ct = 0 then none
  else if a.1 ∧ (ct % vct ≠ 0 ∨ ((tb : Int) - s.line.anchor) % vct ≠ 0) then some (.err stInvalid 4)
  else
    let x := asRunning (port s p) k tb vct
    let bq := planQ p x
    let b := nextB s.line.anchor ct tb + ct
    if ([b2n a.2, 2].all fun bk => (outFrames s p bk).all fun f =>
        openThrough x x.vset.courseClass ((b + f.2.1) * qPerNs - 8 * bq) ((b + f.2.1) * qPerNs + bq * f.2.2)) then none
    else some (.err stInvalid 7)

/-- A start or swap committed at c (R153): its instant, VSWAP_K and VSWAP_LATE. -/
def valveCommit (s : State) (p k tb vct c : Nat) (start : Bool) : Applied :=
  let x := port s p
  let b := firstAt tb vct (c + 4000)
  let v := { x.valve with pend := some { list := k, tb := tb, vct := vct, at_ := b.1, start := start } }
  let v := if start then { v with state := 1, list := k } else v
  let s1 := setReg (setPort s p { x with valve := v }) (portBase p + 0x410) (sat32 b.2)
  let s1 := if start then speedHold s1 p else s1
  { s := if b.2 = 0 then s1 else raisePort s1 p 0x408 2, k := sat32 b.2, at_ := b.1, undo := [.valve p x.valve] }

/-- The valve put back by a rollback at R_b: cancelled before its instant, or flipped back, with what that does to gates, hold and the
frame on the line (R160, R165, R166, R301). -/
def valveUndo (m : Member) (rb : Nat) (s : State) : State × Nat :=
  (m.undo.foldl (fun s u => match u with
    | .valve p v => speedHold (gateMove (holdNow s p) (gatesNow s p) (modPort s p fun x => { x with valve := v }) p) p
    | _ => s) s, if rb ≤ m.at_ then 2 else 1)

def valveStartOp : TxnOp where
  prep := fun h w s =>
    let v := (port s h.port).valve
    if fld w 0 31 1 ≠ 0 then some (.err stInvalid 1)
    else match instantAt w 1 with
      | .error d => some (.err stInvalid d)
      | .ok _ =>
        if prm w 4 < 1000 then some (.err stInvalid 3)
        else if v.pend.isSome then some (.err stWrongState 6)
        else if v.state ≠ 0 then some (.err stWrongState)
        else none
  test := fun h w ms _ s => valveCheck s h.port (fld w 0 0 0) (ltAt w 1).1 (prm w 4) ms
  apply := fun h w c s => .ok (valveCommit s h.port (fld w 0 0 0) (ltAt w 1).1 (prm w 4) c true)
  words := fun h w a => [wd a.k, wd (shortMask a.s h.port (fld w 0 0 0) (ltAt w 1).1 (prm w 4))]
  report := fun h w k s =>
    b2n (vTrunc (vList (port s h.port) (fld w 0 0 0)) (prm w 4)) +
      (if shortMask s h.port (fld w 0 0 0) (ltAt w 1).1 (prm w 4) = 0 then 0 else 2) + lateBit k
  undo := fun _ _ rb m s => valveUndo m rb s

def valveSwapOp : TxnOp where
  prep := fun h w s =>
    let v := (port s h.port).valve
    match instantAt w 0 with
    | .error d => some (.err stInvalid d)
    | .ok _ =>
      if prm w 3 < 1000 then some (.err stInvalid 3)
      else if v.pend.isSome then some (.err stWrongState 6)
      else if v.state ≠ 2 then some (.err stWrongState)
      else none
  test := fun h w ms _ s => valveCheck s h.port (1 - (port s h.port).valve.list) (ltAt w 0).1 (prm w 3) ms
  apply := fun h w c s =>
    .ok (valveCommit s h.port (1 - (port s h.port).valve.list) (ltAt w 0).1 (prm w 3) c false)
  words := fun h w a =>
    let v := (port a.s h.port).valve
    [wd a.k, wd (shortMask a.s h.port ((v.pend.map (·.list)).getD (1 - v.list)) (ltAt w 0).1 (prm w 3))]
  report := fun h w k s =>
    let v := (port s h.port).valve
    let l := (v.pend.map (·.list)).getD (1 - v.list)
    b2n (vTrunc (vList (port s h.port) l) (prm w 3)) +
      (if shortMask s h.port l (ltAt w 0).1 (prm w 3) = 0 then 0 else 2) + lateBit k
  undo := fun _ _ rb m s => valveUndo m rb s

/-- The instant at which a VALVE_STOP committed at c takes effect: the first V_k at least 4,000 ns later of the list that runs (R155). In
ARMED it is the first V_k of the list that is to start; in OFF c itself; and a pending swap changes nothing, though its instant may come
first (DESIGN CHOICE: R155 names only V_k; log entry 21). -/
def valveStopAt (v : Valve) (c : Nat) : Nat :=
  match v.state, v.pend with
  | 2, _ => (firstAt v.vbase v.vct (c + 4000)).1
  | 1, some x => (firstAt x.at_ x.vct (c + 4000)).1
  | _, _ => c

def valveStopOp : TxnOp where
  prep := fun h _ s => if (courseOf s h.port).state ≠ 0 ∧ h.port < 512 then some (.err stWrongState) else none
  apply := fun h _ c s =>
    let x := port s h.port
    let t := valveStopAt x.valve c
    .ok { s := if x.valve.state = 0 then s else setPort s h.port { x with valve := { x.valve with stopAt := some t } },
          at_ := t, undo := if x.valve.state = 0 then [] else [.valve h.port x.valve] }
  words := fun _ _ a => ltWords a.at_ 0
  undo := fun _ _ rb m s => if m.undo.isEmpty ∨ m.at_ < rb then (s, 0) else valveUndo m rb s

/-! ### Instants -/

/-- VALVE_ENTRY_BOUNDARY: entry i of cycle k of the running list begins. -/
def execValveEntryBoundary (p k i : Nat) (s : State) : Out :=
  let x := port s p
  let v := x.valve
  .next (
    if v.state ≠ 2 then s
    else match (vWins x.vset (vList x v.list) v.vct).find? fun z => z.idx == i with
      | none => s
      | some z =>
        let t := v.vbase + k * v.vct + z.o
        if t < nowNs s ∨ v.idle.any (t < ·) ∨ (v.pend.any fun q => q.at_ ≤ t) ∨ v.stopAt.any (· ≤ t) then s
        else let s1 := atNs s t; gateEdge s s1 p t)

/-- VALVE_STOP_INSTANT: the valve goes OFF (R155). A swap that is still pending then is dropped with it (DESIGN CHOICE, log entry 21). -/
def execValveStopInstant (p : Nat) (s : State) : Out :=
  .next (match (port s p).valve.stopAt with
    | none => s
    | some t =>
      let s1 := modPort (atNs s t) p fun x =>
        { x with valve := { x.valve with state := 0, vbase := 0, vct := 0, pend := none, stopAt := none, idle := none } }
      let s2 := speedHold (gateEdge s s1 p t) p
      traceRec s2 (dieOfPort p) 0x05 (portBase p + 0x400) [0])

/-- COURSE_HOLD_START: the course hold of frame f of cycle n comes into force (R165). -/
def execCourseHoldStart (p f n : Nat) (s : State) : Out :=
  let x := port s p
  let ct := (port s (own s p)).ccfg.ct
  let b := cycleStart s ct n
  .next (match bankForCycle (courseOf s p) b with
    | none => s
    | some k => match (outFrames s p k).find? fun y => y.1 == f with
      | none => s
      | some y =>
        if !(peActive x) then s
        else
          let tq := (b + y.2.1) * qPerNs - 8 * lineQ p x - holdQ p x
          let s1 := at16 s (tq / 100)
          let before := listHoldAt x (tq / qPerNs) || courseHoldAt s p (tq - 1)
          if before then s1 else holdComes s1 p)

/-! ### Preemption settings (R162, R163) -/

/-- PREEMPT_SET. A change of PE_EN begins the verify exchange anew; so does VERIFY_DIS cleared on a port that has not begun one (R163;
DESIGN CHOICE, log entry 133). VERIFY_DIS set ends one that runs. -/
def bodyPreemptSet (h : CmdHdr) (w : List Word) (s : State) : State × Reply :=
  let p := h.port
  let x := port s p
  if isTwinLane p && s.twin.role != .off then (s, .err stWrongState)
  else if fld w 0 31 20 ≠ 0 ∨ bit (fld w 0 8 1) x.vset.courseClass ∨ fld w 0 19 12 = 0 ∨ 128 < fld w 0 19 12 then
    (s, .err stInvalid 1)
  else
    let s1 := modPort s p fun x => { x with pre := { x.pre with
      cfg := w.getD 0 0, deadline := if bit (prm w 0) 11 then none else x.pre.deadline } }
    let begun := x.pre.okay || x.pre.failed || x.pre.deadline.isSome
    let s2 := if bit (prm w 0) 0 != peEn x || (peNoVerify x && !begun) then restartVerify s1 p else s1
    (peChanged s s2 p, .ok)

/-- PREEMPT_QUERY. -/
def bodyPreemptQuery (h : CmdHdr) (_ : List Word) (s : State) : State × Reply :=
  (s, .ok (wd (preemptStatus s h.port) :: (List.range 6).map fun i => wd (reg s (portBase h.port + 0x438 + 4 * i))))

/-- VERIFY_TIMEOUT: the third verify mPacket without a response fails; before that another is sent. -/
def execVerifyTimeout (p : Nat) (s : State) : Out :=
  .next (match (port s p).pre.deadline with
    | none => s
    | some t =>
      let s1 := atNs s t
      if peNoVerify (port s p) then modPort s1 p fun x => { x with pre := { x.pre with deadline := none } }
      else if 3 ≤ (port s p).pre.tries then
        let s2 := modPort s1 p fun x => { x with pre := { x.pre with deadline := none, failed := true } }
        peChanged s (raisePort s2 p 0x408 16) p
      else sendVerify s1 p)

def execValveQuery (h : CmdHdr) (w : List Word) (s : State) : Out := .next (runCmd s h 0x0501 w bodyValveQuery)
def execValveSet (h : CmdHdr) (w : List Word) (s : State) : Out := .next (runCmd s h 0x0502 w bodyValveSet)
def execValveWrite (h : CmdHdr) (w : List Word) (s : State) : Out := .next (runCmd s h 0x0503 w bodyValveWrite)
def execValveRead (h : CmdHdr) (w : List Word) (s : State) : Out := .next (runCmd s h 0x0504 w bodyValveRead)
def execValveStart (h : CmdHdr) (w : List Word) (s : State) : Out :=
  .next (runLater s h 0x0505 w (bodyTxn 0x0505 valveStartOp))
def execValveSwap (h : CmdHdr) (w : List Word) (s : State) : Out :=
  .next (runLater s h 0x0506 w (bodyTxn 0x0506 valveSwapOp))
def execValveStop (h : CmdHdr) (w : List Word) (s : State) : Out :=
  .next (runLater s h 0x0507 w (bodyTxn 0x0507 valveStopOp))
def execPreemptSet (h : CmdHdr) (w : List Word) (s : State) : Out := .next (runCmd s h 0x0508 w bodyPreemptSet)
def execPreemptQuery (h : CmdHdr) (w : List Word) (s : State) : Out := .next (runCmd s h 0x0509 w bodyPreemptQuery)

end Sys2Proof.Machine
end

