-- ==== Sys2Proof/Machine/Record.lean ====
section
/-! DEFINITION. Twin records (R252, R261, R264, R268): the lane that carries one, its queue, and the commands a LEADER forwards. -/

namespace Sys2Proof.Machine

/-- Whether a twin-link lane carries twin traffic: up, with preemption active (R252, R261). -/
def laneUsable (s : State) (p : Nat) : Bool := (port s p).link.up && peActive (port s p)

/-- The twin-link lane of a region's records: U2 or U6 for an even local region, U3 or U7 for an odd one, the other lane of the
die where that one does not carry them; none where neither does (R252). -/
def twinLane (s : State) (r : Nat) : Option Nat :=
  let a := 514 + 4 * (r / 4) + r % 2
  let b := 514 + 4 * (r / 4) + (1 - r % 2)
  if laneUsable s a then some a else if laneUsable s b then some b else none

/-- The bytes a lane carries in a line base cycle, at 25 Gb/s. -/
def laneRoom (s : State) : Nat := s.line.baseCt * 25 / 8

/-- A record for the twin, of region r. One that exceeds the lane's capacity over the line base cycle, or that no lane of the die
carries, is dropped (R267; DESIGN CHOICE, log entry 26). -/
def sendRec (s : State) (r : Nat) (b : List Byte) : State :=
  let drop (s : State) : State := raise (countPkg s 0x60024 1) 0x60004 256
  match twinLane s r with
  | none => drop s
  | some p =>
    let n := s.mirror.load.look p 0 + b.length
    if laneRoom s < n then drop s
    else
      let m := s.mirror
      { s with mirror := { m with
          txQ := m.txQ ++ [{ lane := p, t := now16 s, bytes := b }]
          load := m.load.put p n 0 } }

/-- A COMMAND record (R268). -/
def commandRec (h : CmdHdr) (op : Nat) (w : List Word) (tc : Nat) : List Byte :=
  let pk := cmdBytes h op w
  [3, 0] ++ be 2 (pk.length / 4) ++ be 4 (tc % 2 ^ 32) ++ pk

/-- The region whose lane carries a forwarded command: the target's. -/
def fwdRegion (h : CmdHdr) (op : Nat) (w : List Word) : Nat :=
  if op / 256 = 7 then regionOfAxis (fld w 0 13 0) else regionOfPort h.port

/-- Whether this package is LEADER and forwards the command (R264). -/
def leads (s : State) (op : Nat) (h : CmdHdr) : Bool := s.twin.role == .leader && forwarded s op h

/-- The body of a command that a LEADER forwards: checked by chk; then its effect f at once or, on a LEADER, at T_c, 2,000 ns
after acceptance, on both twins (R264). -/
def bodyFwd (op : Nat) (chk : CmdHdr → List Word → State → Option Reply) (f : CmdHdr → List Word → State → State) : Body :=
  fun h w s =>
    match chk h w s with
    | some r => (s, r)
    | none =>
      if leads s op h then
        let tc := nowNs s + 2000
        let s1 := { s with mirror := { s.mirror with fwd := s.mirror.fwd ++ [{ op := op, h := h, w := w, at_ := tc }] } }
        (sendRec s1 (fwdRegion h op w) (commandRec h op w tc), .ok)
      else (f h w s, .ok)

/-- The body of a command of class Transaction that a LEADER forwards: on its own, its record carries T_c = C, and extra words of
the packet (R264). It commits only if the twin has prepared it too (R304; DESIGN CHOICE, log entry 40). -/
def bodyTxnFwd (op : Nat) (f : TxnOp) (extra : CmdHdr → List Word → State → List Word) (h : CmdHdr) (w : List Word) (s : State) :
    State × Option Reply :=
  let x := bodyTxn op f h w s
  if x.2.isNone && leads s op h then
    let y := useFree x.1
    if Config.freePartner s.free then
      (sendRec y (fwdRegion h op w) (commandRec h op (w ++ extra h w s) (nowNs s + 20000)), none)
    else ({ y with txns := y.txns.filter fun t => t.id != 0 }, some (.err stTxnFailed))
  else x

end Sys2Proof.Machine
end

