-- ==== Sys2Proof/Machine/Image.lean ====
section
/-! DEFINITION. The axis image, staging and the evaluation of segments, profiles and recipes (R82 to R87, R117 to R124, R133,
R135). -/

namespace Sys2Proof.Machine

/-! ### Bytes (R82, R84, R87) -/

/-- n bytes of axis a from byte o of its entry: 0 to 63 the out half, 64 to 127 the in half. -/
def imgRead (s : State) (a o n : Nat) : List Byte :=
  (List.range n).map fun i => s.image.bytes.look (128 * a + o + i) 0

/-- Bytes written to the entry of axis a from byte o on, with what they replace, logged at t (twice the instant, one more for a write
that a read at that instant does not see). Nothing is written in a stopped region. -/
def imgStore (t : Nat) (s : State) (a o : Nat) (l : List Byte) : State :=
  if !(regionRuns s (regionOfAxis a)) then s
  else
    let m := l.zipIdx.foldl (fun (m : Tbl Byte × List (Nat × Nat × Byte)) x =>
      let k := 128 * a + o + x.2
      let v := m.1.look k 0
      if v = x.1 then m else (m.1.put k x.1 0, (t, k, v) :: m.2)) (s.image.bytes, s.image.log)
    { s with image := { s.image with bytes := m.1, log := m.2 } }

/-- A write that a read at its very instant sees: the values of a boundary (R83) and the actions of a reflex (R105). -/
def imgWrite (s : State) (a o : Nat) (l : List Byte) : State := imgStore (2 * now16 s) s a o l

/-- A write that a read at its very instant does not see (R98). -/
def imgWriteLate (s : State) (a o : Nat) (l : List Byte) : State := imgStore (2 * now16 s + 1) s a o l

/-- A byte as it stood before the writes logged at t or later. -/
def asOf (bytes : Tbl Byte) (log : List (Nat × Nat × Byte)) (t k : Nat) : Byte :=
  match (log.filter fun e => e.2.1 == k && decide (t ≤ e.1)).getLast? with
  | some e => e.2.2
  | none => bytes.look k 0

/-- n bytes of axis a from byte o on as a read at t (2^-16 ns) sees them: R83 and R105 give it the writes of a boundary and of a reflex at
that instant, R98 none of the others (DEDUCED: R98 alone would withhold all of them; log entry 169). With all, every write at t. -/
def imgAt (s : State) (t : Nat) (all : Bool) (a o n : Nat) : List Byte :=
  (List.range n).map fun i => asOf s.image.bytes s.image.log (2 * t + 1 + b2n all) (128 * a + o + i)

/-- The staging entry of axis a as it stood at t, the writes at t included. -/
def stagingAt (s : State) (t a : Nat) : List Byte :=
  (List.range 64).map fun i => asOf s.image.staging s.image.stagingLog (t + 1) (64 * a + i)

/-- Bytes written to the staging entry of axis a from byte o on. -/
def stagingPut (s : State) (a o : Nat) (l : List Byte) : State :=
  let t := now16 s
  let m := l.zipIdx.foldl (fun (m : Tbl Byte × List (Nat × Nat × Byte)) x =>
    let k := 64 * a + o + x.2
    (m.1.put k x.1 0, (t, k, m.1.look k 0) :: m.2)) (s.image.staging, s.image.stagingLog)
  { s with image := { s.image with staging := m.1, stagingLog := m.2 } }

/-- The replaced bytes no read can look back to: those of more than 20 ms ago, longer than any cycle. -/
def pruneLogs (s : State) : State :=
  let t := now16 s - 20000000 * 65536
  { s with image := { s.image with
      log := s.image.log.takeWhile fun e => 2 * t ≤ e.1
      stagingLog := s.image.stagingLog.takeWhile fun e => t ≤ e.1 } }

/-- A saturating counter of an axis raised from o to v: its half-range event where it reaches 2^31 (R237). -/
def axisHalf (s : State) (a o v : Nat) : State :=
  if o < 2 ^ 31 && 2 ^ 31 ≤ v then pendFault s (.region (regionOfAxis a)) 5 else s

/-- STAGING_WRITE (R87, R426): ofs is a BAR4 offset. On a FOLLOWER, and for an axis that is not in direct mode, the write is
discarded and counted (R266). BAR4 is no window of die 1: a write for an axis of die 1 goes through while the die bridge is down (DESIGN
CHOICE: R27 names the control cores' and BAR0's accesses; log entry 170). -/
def plainStagingWrite (ofs : Nat) (data : List Word) (whole : Bool) (s : State) : Out :=
  let o := ofs - 0x600000
  let a := o / 64
  .next (
    if ofs < 0x600000 ∨ 0x700000 ≤ ofs then s
    else if hasAxis s a && !(regionRuns s (regionOfAxis a)) then
      accessErr s (if dieRuns s (dieOfAxis a) then regionOfAxis a else 8 + dieOfAxis a)
    else if !(dieRuns s 0) then accessErr s 8
    else if !(clocksRun s) || s.sec.bootState != 5 then count s 0x20018 1
    else if !whole ∨ ofs % 4 ≠ 0 ∨ data.isEmpty ∨ 64 < o % 64 + 4 * data.length then count s 0x20 1
    else if !(hasAxis s a) then s
    else if !(axis s a).cfg.direct || s.twin.role == .follower then
      let s1 := modAxis s a fun x => { x with dyn := { x.dyn with discards := sat32 (x.dyn.discards + 1) } }
      let s1 := axisHalf s1 a (axis s a).dyn.discards ((axis s a).dyn.discards + 1)
      raiseTraj (count s1 (regionBase (regionOfAxis a) + 0xC044) 1) a 6
    else stagingPut s a (o % 64) (wordsLe data))

/-! ### Segments (R117, R128) -/

/-- A segment's fields. -/
def segOf (b : List Byte) : Seg :=
  let f := leAt b 6 1
  { dur := leAt b 0 4, seq := leAt b 4 2, last := bit f 0, mark := bit f 1,
    a := (List.range 6).map fun k => sgn 64 (leAt b (8 + 8 * k) 8) }

/-- Whether a segment's check and zero fields are right. -/
def segOk (b : List Byte) : Bool :=
  crc32c (b.take 56) == leAt b 56 4 && leAt b 6 1 < 4 && leAt b 7 1 == 0 && leAt b 60 4 == 0

/-- Segments held by an axis's ring from index i on (R126). -/
def segHeld (x : Axis) (i : Nat) : Nat := (x.dyn.put + 131072 - i) % 131072

def ringLen (x : Axis) : Nat := 2 ^ x.cfg.ringK

/-- The bytes of segment j of axis a. -/
def segBytes (s : State) (a j : Nat) : List Byte :=
  let c := (axis s a).cfg
  ddrRead s (dieOfAxis a) (c.ringBase + 64 * (j % 2 ^ c.ringK)) 64

/-! ### Evaluation (R120 to R122) -/

/-- rnd of R121. -/
def rnd (x : Int) : Int := if 0 ≤ x then (x + 2 ^ 31) / 2 ^ 32 else -((-x + 2 ^ 31) / 2 ^ 32)

/-- horner of R121, over the coefficients from c[0] on. -/
def horner (t : Int) : List Int → Int
  | [] => 0
  | [c] => c
  | c :: r => c + rnd (horner t r * t)

/-- The time argument of e ns (R120). -/
def tauOf (e : Nat) : Nat := (e * 2 ^ 32 + 500000000) / 1000000000

/-- A value held to 64 signed bits by saturation, and 1 where it saturated. -/
def satQ (x : Int) : Int × Nat :=
  let y := clamp (-(2 ^ 63)) (2 ^ 63 - 1) x
  (y, if y = x then 0 else 1)

/-- P, V, A and the saturations of a polynomial at e ns (R121, R122). -/
def evalSeg (a : List Int) (e : Nat) : Int × Int × Int × Nat :=
  let t : Int := tauOf e
  let g (i : Nat) : Int := a.getD i 0
  let p := sgn 64 (uns 64 (horner t [g 0, g 1, g 2, g 3, g 4, g 5]))
  let v := satQ (horner t [g 1, 2 * g 2, 3 * g 3, 4 * g 4, 5 * g 5])
  let c := satQ (horner t [2 * g 2, 6 * g 3, 12 * g 4, 20 * g 5])
  (p, v.1, c.1, v.2 + c.2)

/-! ### Quick-stop profiles (R135) -/

/-- A profile from p and v, anchored at b0; start is its first boundary. -/
def profileFrom (start b0 dec : Nat) (p v : Int) : QStop :=
  let h : Int := (dec + 1) / 2
  let t := (v.natAbs * 1000000000 + dec - 1) / dec
  { start := start, anchor := b0, a0 := p, a1 := v, a2 := if v < 0 then h else if v = 0 then 0 else -h,
    t := min t 4294967295, capped := decide (4294967295 < t), set := true }

/-- The profile at boundary b: P, V, A, saturations, whether it has ended, and the profile then in force. fuel bounds the new
profiles a capped one goes through. -/
def runProfile (dec b : Nat) : Nat → QStop → (Int × Int × Int × Nat) × Bool × QStop
  | 0, q => ((q.a0, 0, 0, 0), true, q)
  | fuel + 1, q =>
    let c := [q.a0, q.a1, q.a2]
    let e := b - q.anchor
    if e < q.t then (evalSeg c e, false, q)
    else
      let z := evalSeg c q.t
      if q.capped then runProfile dec b fuel (profileFrom q.start (q.anchor + q.t) dec z.1 z.2.1)
      else ((z.1, 0, 0, 0), true, q)

/-! ### Recipes (R123, R124) -/

/-- n / d rounded to nearest, ties away from zero. -/
def roundDiv (n : Int) (d : Nat) : Int :=
  if 0 ≤ n then (2 * n + d) / (2 * d) else -((-(2 * n) + d) / (2 * d))

/-- F of R124. -/
def scaled (x mul : Int) (shift : Int) : Int :=
  if 0 ≤ shift then roundDiv (x * mul * 2 ^ shift.toNat) (2 ^ 48) else roundDiv (x * mul) (2 ^ (48 + (-shift).toNat))

/-- The size of a format in bytes. -/
def fmtSize (f : Nat) : Nat := match f with | 0 => 2 | 1 => 4 | _ => 8

/-- The fields of a recipe entry. -/
def rSrc (e : Word × Word) : Nat := bits e.1.toNat 2 0
def rFmt (e : Word × Word) : Nat := bits e.1.toNat 4 3
def rOfs (e : Word × Word) : Nat := bits e.1.toNat 10 5
def rHiFirst (e : Word × Word) : Bool := bit e.1.toNat 11
def rShift (e : Word × Word) : Int := sgn 6 (bits e.1.toNat 17 12)

/-- The bytes one entry writes and 1 where its value saturated. -/
def recipeField (e : Word × Word) (p v a : Int) (seq : Nat) : List Byte × Nat :=
  let n := fmtSize (rFmt e)
  let w := 8 * n
  match rSrc e with
  | 4 => (le n e.2.toNat, 0)
  | 5 => (le n seq, 0)
  | k =>
    let x := if k = 1 then p else if k = 2 then v else a
    if rFmt e = 2 then
      let lo := le 4 (uns 64 x)
      let hi := le 4 (uns 64 x / 2 ^ 32)
      (if rHiFirst e then hi ++ lo else lo ++ hi, 0)
    else
      let f := scaled x (sgn 32 e.2.toNat) (rShift e)
      if k = 1 then (le n (uns w f), 0)
      else
        let g := clamp (-(2 ^ (w - 1))) (2 ^ (w - 1) - 1) f
        (le n (uns w g), if g = f then 0 else 1)

/-- The writes of a recipe, as (offset, bytes), and its saturations. -/
def recipeWrites (r : List (Word × Word)) (p v a : Int) (seq : Nat) : List (Nat × List Byte) × Nat :=
  let l := (r.filter fun e => rSrc e != 0).map fun e => (rOfs e, recipeField e p v a seq)
  (l.map fun x => (x.1, x.2.1), (l.map fun x => x.2.2).sum)

/-- Whether a recipe breaks a rule of R125. -/
def recipeBad (r : List (Word × Word)) : Option Nat :=
  let used := r.zipIdx.filter fun x => rSrc x.1 != 0
  let bad (x : (Word × Word) × Nat) : Bool :=
    bits x.1.1.toNat 31 18 != 0 || (rSrc x.1 != 0 &&
      (6 ≤ rSrc x.1 || rFmt x.1 == 3 || rOfs x.1 % fmtSize (rFmt x.1) != 0 || 64 < rOfs x.1 + fmtSize (rFmt x.1) ||
        (4 ≤ rSrc x.1 && rFmt x.1 == 2) ||
        used.any fun y => y.2 < x.2 && rOfs y.1 < rOfs x.1 + fmtSize (rFmt x.1) && rOfs x.1 < rOfs y.1 + fmtSize (rFmt y.1)))
  (r.zipIdx.find? bad).map (·.2)

end Sys2Proof.Machine
end

