-- ==== Sys2Proof/Machine/Axis.lean ====
section
/-! DEFINITION. The trajectory engine: decisions, boundaries, quick-stop, segment rings, reflex rules, digests and the commands
of an axis (R113 to R146). -/

namespace Sys2Proof.Machine

/-! ### States -/

/-- An axis's state and cause changed, with its record. -/
def setAxisState (s : State) (a st cause : Nat) : State :=
  let o := (axis s a).dyn.state
  traceAxis (modAxis s a fun x => { x with dyn := { x.dyn with state := st, cause := cause } }) a o

/-- Whether axis a's engine runs. -/
def engineRuns (s : State) (a : Nat) : Bool := regionRuns s (regionOfAxis a) && clocksRun s

/-- The bytes of the quick-stop command field, as (offset, bytes), where it is enabled (R133). -/
def cmdField (x : Axis) : Option (Nat × List Byte) :=
  if x.cfg.cmdEn then some (x.cfg.cmdOfs, le (if x.cfg.cmdW then 4 else 2) x.cfg.cmdVal.toNat) else none

/-- The quick-stop command field written at a boundary or by a reflex (R134, R140). -/
def writeCmd (s : State) (a : Nat) : State :=
  match cmdField (axis s a) with
  | some f => imgWrite s a f.1 f.2
  | none => s

/-- The same at the entry instant of any other request. -/
def writeCmdLate (s : State) (a : Nat) : State :=
  match cmdField (axis s a) with
  | some f => imgWriteLate s a f.1 f.2
  | none => s

/-! ### Decisions (R116, R118, R119, R128 to R130, R135) -/

/-- What a walk through the cached segments finds at a boundary. -/
structure Walk where
  /-- 0 the current segment is evaluated, 1 the motion has ended, 2 a fault. -/
  kind : Nat
  p : Int := 0
  v : Int := 0
  a : Int := 0
  sats : Nat := 0
  get : Nat
  start : Nat
  rest : List Cached := []
  seq : Option Nat := none
  marks : Nat := 0
  cause : Nat := 0
  deriving DecidableEq, Repr

/-- The walk at boundary b, from segment get starting at st; prev is the boundary before, fresh whether that segment has not
been evaluated, starts the segments started since prev. A fourth start in one cycle is an underrun of cause 6 whether or not the ring
holds that segment (DESIGN CHOICE: R130 orders its causes nowhere; log entry 171). -/
def walk (x : Axis) (b prev : Nat) : List Cached → Nat → Nat → Bool → Nat → Nat → Walk
  | [], get, st, _, _, m => { kind := 2, get := get, start := st, marks := m, cause := if segHeld x get = 0 then 4 else 5 }
  | .bad :: r, get, st, _, _, m => { kind := 2, get := get, start := st, rest := .bad :: r, marks := m, cause := 7 }
  | .seg g :: r, get, st, fresh, starts, m =>
    let m := m + b2n (g.mark && fresh)
    let nx := (get + 1) % 131072
    let en := st + g.dur
    if b < en then
      let z := evalSeg g.a (b - st)
      { kind := 0, p := z.1, v := z.2.1, a := z.2.2.1, sats := z.2.2.2, get := get, start := st, rest := .seg g :: r,
        seq := some g.seq, marks := m }
    else if g.last then
      { kind := 1, p := if g.dur = 0 then x.dyn.p else (evalSeg g.a g.dur).1, get := nx, start := en, seq := some g.seq,
        marks := m }
    else
      let n := starts + b2n (decide (prev < en))
      if 3 < n then { kind := 2, get := nx, start := en, rest := r, marks := m, cause := 6 }
      else walk x b prev r nx en true n m

/-- A decision that changes nothing at b. -/
def keepAt (x : Axis) (b : Nat) : Decided :=
  { b := b, old := x.dyn.state, state := x.dyn.state, cause := x.dyn.cause, p := x.dyn.p, v := x.dyn.v, a := x.dyn.a,
    get := x.dyn.get, segStart := x.run.segStart, cache := x.run.cache, lastSeq := x.run.lastSeq,
    qstop := x.run.qstop, writes := [], sats := 0, marks := 0, fault := none }

/-- A decision with its recipe fields (R123, R132). -/
def withFields (x : Axis) (d : Decided) : Decided :=
  if x.cfg.direct then d
  else
    let r := recipeWrites x.cfg.recipe d.p d.v d.a d.lastSeq
    { d with writes := r.1, sats := d.sats + r.2 }

/-- The profile q decided at b. -/
def decideProfile (x : Axis) (b : Nat) (q : QStop) (d : Decided) : Decided :=
  let z := runProfile x.cfg.dec b 4 q
  { d with
    state := if z.2.1 then 5 else 4
    p := z.1.1
    v := z.1.2.1
    a := z.1.2.2.1
    sats := z.1.2.2.2
    qstop := if z.2.1 then none else some z.2.2 }

/-- A walk's outcome decided at b; a fault starts a profile at b, anchored at the boundary before (R128, R130, R134). -/
def decideWalk (x : Axis) (b : Nat) (w : Walk) : Decided :=
  let d := { keepAt x b with
    get := w.get, segStart := w.start, cache := w.rest, lastSeq := w.seq.getD x.run.lastSeq, marks := w.marks }
  match w.kind with
  | 2 => decideProfile x b (profileFrom b (b - x.cfg.ct) x.cfg.dec x.dyn.p x.dyn.v) { d with cause := w.cause, fault := some w.cause }
  | k => { d with state := if k = 0 then 2 else 3, p := w.p, v := w.v, a := w.a, sats := w.sats }

/-- What the engine decides for boundary b of axis a, from the axis as it stands (R114, R116). -/
def decide_ (s : State) (a b : Nat) : Decided :=
  let x := axis s a
  let k := keepAt x b
  let copy : Decided := { k with state := 6, p := 0, v := 0, a := 0, writes := [(0, stagingAt s ((b - 2000) * 65536) a)] }
  if x.cfg.direct && (x.dyn.state == 0 || x.dyn.state == 5) && x.run.directAt.any (· ≤ b) then copy
  else if (x.dyn.state == 3 || x.dyn.state == 5 || x.dyn.state == 6) && x.run.offAt.any (· ≤ b) then { k with state := 0 }
  else match x.dyn.state with
    | 1 =>
      if b < x.run.s0 then k
      else withFields x (decideWalk x b
        (walk x b (b - x.cfg.ct) x.run.cache x.dyn.get x.run.s0 true (b2n (decide (b < x.run.s0 + x.cfg.ct))) 0))
    | 2 => withFields x (decideWalk x b (walk x b (b - x.cfg.ct) x.run.cache x.dyn.get x.run.segStart false 0 0))
    | 3 => withFields x k
    | 4 => match x.run.qstop with
      | none => k
      | some q =>
        if b < q.start then k
        else
          let q := if q.set then q else profileFrom q.start (q.start - x.cfg.ct) x.cfg.dec x.dyn.p x.dyn.v
          withFields x (decideProfile x b q k)
    | 5 => withFields x k
    | 6 => copy
    | _ => k

/-- The first segment after those from index i on, starting at st, that the ring lacks though the decision instant d has come
within 8 cycles of its start (R129); fuel bounds the segments looked at. -/
def leadShort (s : State) (a d : Nat) : Nat → Nat → Nat → Option Nat
  | 0, _, _ => none
  | fuel + 1, i, st =>
    let x := axis s a
    let b := segBytes s a i
    let g := segOf b
    let nx := (i + 1) % 131072
    if !(segOk b) || g.last || d + 8 * x.cfg.ct < st + g.dur then none
    else if segHeld x nx = 0 then some nx
    else leadShort s a d fuel nx (st + g.dur)

/-- LEAD_SHORT at decision instant d (R129). -/
def leadTest (s : State) (a d : Nat) : State :=
  let x := axis s a
  let st := if x.dyn.state = 1 then x.run.s0 else x.run.segStart
  if (x.dyn.state ≠ 1 ∧ x.dyn.state ≠ 2) || segHeld x x.dyn.get = 0 then s
  else match leadShort s a d (segHeld x x.dyn.get) x.dyn.get st with
    | none => s
    | some i =>
      if x.run.leadIdx == some i then s
      else raiseTraj (modAxis s a fun x => { x with run := { x.run with leadIdx := some i } }) a 2

/-- AXIS_DECISION_INSTANT: boundary n of axis a is decided. Where a step has carried line time over the instant, it is decided when its
row comes, up to the boundary after it (R87). -/
def execAxisDecisionInstant (a n : Nat) (s : State) : Out :=
  let x := axis s a
  let b := cycleStart s x.cfg.ct n
  .next (
    if x.cfg.ct = 0 || !(engineRuns s a) || b + x.cfg.ct ≤ nowNs s || x.run.lastB.any (b ≤ ·) then s
    else
      let s := atNs s (b - 2000)
      let d := decide_ s a b
      let s := leadTest (modAxis s a fun x => { x with run := { x.run with decided := some d } }) a (b - 2000)
      if d.fault.any (· ≤ 6) then
        let s := modAxis s a fun x => { x with dyn := { x.dyn with underruns := sat32 (x.dyn.underruns + 1) } }
        let s := axisHalf s a x.dyn.underruns (x.dyn.underruns + 1)
        raiseTraj (count s (regionBase (regionOfAxis a) + 0xC030) 1) a 0
      else s)

/-! ### Boundaries (R83, R114, R139, R140) -/

/-- The SET of a rule written into its target's out half (R136). -/
def applySet (s : State) (r : Rule) : State :=
  imgWrite s (bits r.w4.toNat 13 0) (bits r.w0.toNat 28 23) (le (if bit r.w0.toNat 29 then 4 else 2) r.w3.toNat)

/-- The SETs of fired latched rules that target axis a, by source axis, then rule; a firing whose actions still wait for their
instant does not count (R139, R140). -/
def heldSets (s : State) (a : Nat) : List Rule :=
  s.axes.flatMap fun e => (List.range 4).filterMap fun i =>
    let r := e.2.rules.look i {}
    if bit e.2.dyn.fired i && bit r.w0.toNat 18 && bit r.w0.toNat 19 && bits r.w4.toNat 13 0 == a &&
        !(s.reflex.any fun y => y.src == e.1 && y.idx == i) then some r
    else none

/-- The SETs that stand over the command field of axis a at t16: those held, where its boundary is t16, then those that reflexes have
applied at t16 (R140). -/
def setsAt (s : State) (a t16 : Nat) : List Rule :=
  (if t16 % 65536 = 0 ∧ (axis s a).run.lastB = some (t16 / 65536) then heldSets s a else []) ++
    if s.image.sets.1 = t16 then s.image.sets.2.filter fun r => bits r.w4.toNat 13 0 == a else []

/-- Saturations of axis a (R122, R124). -/
def addSats (s : State) (a n : Nat) : State :=
  if n = 0 then s
  else
    let o := (axis s a).dyn.satCount
    let s := axisHalf (modAxis s a fun x => { x with dyn := { x.dyn with satCount := sat32 (o + n) } }) a o (o + n)
    raiseTraj (count s (regionBase (regionOfAxis a) + 0xC038) n) a 3

/-- A decision that takes effect: values, ring position and, where the state has not changed since, the state. An underrun or segment
fault that meets a quick-stop entered since the decision writes no recipe fields and leaves P, V and A as they were (DESIGN CHOICE: R116
and R134 say not which profile's values B takes; log entry 172). -/
def applyDecided (s : State) (a : Nat) (d : Decided) : State :=
  let x := axis s a
  let same := x.dyn.state == d.old
  let s := if d.marks = 0 then s else raiseTraj s a 8
  let s := if d.fault == some 7 then raiseTraj (count s (regionBase (regionOfAxis a) + 0xC034) 1) a 1 else s
  let s := modAxis s a fun x => { x with
    dyn := { x.dyn with get := d.get }
    run := { x.run with segStart := d.segStart, cache := d.cache, lastSeq := d.lastSeq } }
  if !same && d.fault.isSome then s
  else
    let s := modAxis s a fun x => { x with dyn := { x.dyn with p := d.p, v := d.v, a := d.a } }
    let s := d.writes.foldl (fun s w => imgWrite s a w.1 w.2) s
    let s := addSats s a d.sats
    if !same then s
    else
      let s := setAxisState s a d.state d.cause
      let s := modAxis s a fun x => { x with run := { x.run with
        qstop := d.qstop
        offAt := if d.state = 0 || d.fault.isSome then none else x.run.offAt
        directAt := if d.state = 6 then none else x.run.directAt
        cache := if d.state = 2 then x.run.cache else [] } }
      if d.fault.isSome then raiseTraj s a 7 else s

/-- The boundary at b of axis a: what was decided for it, then the quick-stop command field where the axis is in QSTOP or STOPPED or was at
the decision instant, then held SETs; a LEADER sends the copy of a direct axis to its twin (R266). -/
def axisBoundaryAt (s : State) (a b : Nat) : State :=
  let x := axis s a
  if x.run.lastB == some b then s
  else
    let s := atNs s b
    let d := x.run.decided.filter fun d => d.b == b
    let s := match d with | some d => applyDecided s a d | none => s
    let st := (axis s a).dyn.state
    let qs (n : Nat) : Bool := n == 4 || n == 5
    let s := if qs st || d.any (fun d => qs d.state) then writeCmd s a else s
    let s := modAxis s a fun x => { x with run := { x.run with decided := none, lastB := some b } }
    let s := (setsAt s a (b * 65536)).foldl applySet s
    match d with
    | some d =>
      if s.twin.role == .leader && d.state == 6 then
        sendRec s (regionOfAxis a)
          ([2, 0] ++ be 2 a ++ be 4 (cycleNo s x.cfg.ct b) ++ d.writes.flatMap (·.2))
      else s
    | none => s

/-- AXIS_BOUNDARY: boundary n of axis a. -/
def execAxisBoundary (a n : Nat) (s : State) : Out :=
  let x := axis s a
  .next (if x.cfg.ct = 0 || !(engineRuns s a) then s else axisBoundaryAt s a (cycleStart s x.cfg.ct n))

/-- Every decided boundary at or before ns t that has not taken place yet takes place. -/
def settleAxes (s : State) (t : Nat) : State :=
  (keys s.axes).foldl (fun s a =>
    match (axis s a).run.decided with
    | some d => if d.b ≤ t && engineRuns s a then axisBoundaryAt s a d.b else s
    | none => s) s

/-! ### Quick-stop (R134) -/

/-- A quick-stop request for axis a with entry instant t (2^-16 ns). A boundary whose decision instant is t itself is decided
again. The SETs of instant t stand over the command field (R140). -/
def qstopReq (s : State) (a cause t : Nat) : State :=
  let x := axis s a
  let st := x.dyn.state
  if st ≠ 1 ∧ st ≠ 2 ∧ st ≠ 3 ∧ st ≠ 6 then s
  else
    let b := nextB s.line.anchor x.cfg.ct ((t + 65535) / 65536 + 2000)
    let sets := setsAt s a t
    let s := setAxisState s a 4 cause
    let s := modAxis s a fun x => { x with run := { x.run with
      qstop := some { start := b }, offAt := none, cache := [],
      decided := x.run.decided.filter fun d => d.b < b } }
    let s := if x.run.decided.any fun d => d.b == b then
        modAxis s a fun x => { x with run := { x.run with decided := some (decide_ s a b) } }
      else s
    raiseTraj (sets.foldl applySet (if cause = 2 then writeCmd s a else writeCmdLate s a)) a 7

/-! ### Fetching segments (R126, R128) -/

/-- SEGMENT_FETCH: the next segment of axis a not yet cached is fetched and checked; an uncorrectable error makes it a segment
fault. A boundary already decided keeps it for the next. -/
def execSegmentFetch (a : Nat) (ok : Bool) (s : State) : Out :=
  let x := axis s a
  let i := (x.dyn.get + x.run.cache.length) % 131072
  let closed := x.run.cache.any fun c => match c with | .bad => true | .seg g => g.last
  let live := (x.dyn.state == 1 || x.dyn.state == 2) && engineRuns s a && (ddrChan s (dieOfAxis a)).trained
  .next (
    if !live || closed || 4 ≤ x.run.cache.length || segHeld x x.dyn.get ≤ x.run.cache.length then s
    else
      let b := segBytes s a i
      let g := segOf b
      let c : Cached := if ok && segOk b && g.seq == x.dyn.segExp then .seg g else .bad
      modAxis s a fun x => { x with
        dyn := { x.dyn with segExp := if c = .bad then x.dyn.segExp else (g.seq + 1) % 65536 }
        run := { x.run with
          cache := x.run.cache ++ [c]
          decided := x.run.decided.map fun d => { d with cache := d.cache ++ [c] } } })

/-- A new PUT tested as a doorbell (R127). -/
def doorbell (s : State) (a put : Nat) : State :=
  let x := axis s a
  let n := (put + 131072 - x.dyn.get) % 131072
  if x.cfg.direct || ringLen x < n || n < segHeld x x.dyn.get then
    raiseTraj (count s (regionBase (regionOfAxis a) + 0xC040) 1) a 5
  else modAxis s a fun x => { x with dyn := { x.dyn with put := put } }

/-- SEG_PUT_DB. -/
def plainSegPutDb (r : Nat) (v : Word) (s : State) : Out :=
  .next (busWrite s (regionBase r + 0xC000) fun s => doorbell s (2048 * r + bits v.toNat 10 0) (bits v.toNat 27 11))

/-! ### Reflex rules (R136 to R139) -/

def ruleOf (s : State) (a i : Nat) : Rule := (axis s a).rules.look i {}

/-- The size of a rule's operand, and whether it is signed. -/
def ruleSize (r : Rule) : Nat := if bit (bits r.w0.toNat 7 6) 0 then 4 else 2
def ruleSigned (r : Rule) : Bool := bits r.w0.toNat 7 6 < 2

/-- x in w bits, read as the rule's signedness says. -/
def ruleVal (sg : Bool) (w x : Nat) : Int := if sg then sgn w x else (x % 2 ^ w : Nat)

/-- Whether a rule fires on in field i and out field o (R137, R138). -/
def ruleFires (r : Rule) (i o : Nat) : Bool :=
  let w := 8 * ruleSize r
  let diff := bit r.w0.toNat 8
  let sg := diff || ruleSigned r
  let x : Int := if diff then sgn w (uns w ((i : Int) - o)) else ruleVal sg w i
  let la := ruleVal sg w r.w1.toNat
  let lb := ruleVal sg w r.w2.toNat
  let m := r.w2.toNat % 2 ^ w
  match bits r.w0.toNat 17 15 with
  | 1 => decide (la < x)
  | 2 => decide (x < la)
  | 3 => decide (x < la) || decide (lb < x)
  | 4 => decide (la ≤ x) && decide (x ≤ lb)
  | 5 => i &&& m == r.w1.toNat % 2 ^ w &&& m
  | 6 => i &&& m != r.w1.toNat % 2 ^ w &&& m
  | 7 => decide (r.w1.toNat % 2 ^ w < x.natAbs)
  | _ => false

/-- Waiting actions in order of instant, source axis and rule. -/
def insertAct (x : ReflexAct) : List ReflexAct → List ReflexAct
  | [] => [x]
  | y :: r =>
    if x.t16 < y.t16 ∨ (x.t16 = y.t16 ∧ (x.src < y.src ∨ (x.src = y.src ∧ x.idx < y.idx))) then x :: y :: r
    else y :: insertAct x r

/-- Rule i as it stood at t (2^-16 ns), where it has been replaced since (R136). -/
def oldRuleAt (x : Axis) (t i : Nat) : Option OldRule := (x.oldRules.filter fun o => o.idx == i && decide (t < o.until16)).getLast?

/-- A latched rule has fired: the one in force, or one replaced since. -/
def latchFired (x : Axis) (i : Nat) : Option OldRule → Axis
  | none => { x with dyn := { x.dyn with fired := x.dyn.fired ||| 2 ^ i } }
  | some y => { x with oldRules := x.oldRules.map fun o => if o = y then { o with fired := true } else o }

/-- Rule i of axis a evaluated for a brick taken at t (2^-16 ns) into bytes [o, o + n) of its in half, delivered by port p: as the rule
stood at t. -/
def evalRule (s : State) (a t o n p i : Nat) : State :=
  let x := axis s a
  let old := oldRuleAt x t i
  let r := (old.map (·.rule)).getD (ruleOf s a i)
  let fired := (old.map (·.fired)).getD (bit x.dyn.fired i)
  let io := bits r.w0.toNat 5 0
  let k := ruleSize r
  let inF := leAt (imgRead s a (64 + io) k) 0 k
  let outF := leAt (imgAt s t true a (bits r.w0.toNat 14 9) k) 0 k
  if x.dyn.state = 0 || io + k ≤ o || o + n ≤ io || (bit r.w0.toNat 18 && fired) || !(ruleFires r inF outF) then s
  else
    let s := if bit r.w0.toNat 18 then modAxis s a fun x => latchFired x i old else s
    let s := { s with reflex := insertAct { t16 := t + 1000 * 65536, src := a, idx := i, rule := r, port := p } s.reflex }
    count s (regionBase (regionOfAxis a) + 0xC03C) 1

/-- The rules of axis a evaluated in index order (R137). -/
def evalRules (s : State) (a t o n p : Nat) : State :=
  [0, 1, 2, 3].foldl (fun s i => evalRule s a t o n p i) s

/-- Whether a rule breaks a rule of R136, or names an axis the part lacks (R2): none, or its status. -/
def ruleBad (s : State) (a : Nat) (r : Rule) : Option Nat :=
  let w0 := r.w0.toNat
  let k := ruleSize r
  let io := bits w0 5 0
  let oo := bits w0 14 9
  let so := bits w0 28 23
  let sw := if bit w0 29 then 4 else 2
  let c := bits w0 17 15
  let sg := bit w0 8 || ruleSigned r
  if bits w0 31 30 ≠ 0 ∨ bits r.w4.toNat 31 14 ≠ 0 then some stInvalid
  else if c = 0 then none
  else if io % k ≠ 0 ∨ 64 < io + k then some stInvalid
  else if bit w0 8 ∧ (oo % k ≠ 0 ∨ 64 < oo + k ∨ c = 5 ∨ c = 6) then some stInvalid
  else if (c = 3 ∨ c = 4) ∧ ruleVal sg (8 * k) r.w2.toNat < ruleVal sg (8 * k) r.w1.toNat then some stInvalid
  else if bit w0 19 ∧ (so % sw ≠ 0 ∨ 64 < so + sw) then some stInvalid
  else if (bit w0 19 ∨ bit w0 20) ∧ !(hasAxis s (bits r.w4.toNat 13 0)) then some stAbsent
  else if (bit w0 19 ∨ bit w0 20) ∧ dieOfAxis (bits r.w4.toNat 13 0) ≠ dieOfAxis a then some stWrongDie
  else none

/-! ### Digests (R141) -/

/-- What an axis contributes to its region's digest. -/
def digestBytes (a : Nat) (d : AxisDyn) : List Byte :=
  let g (x : Int) : List Byte := be 8 (uns 64 (if d.state = 6 then 0 else x))
  be 2 a ++ [by8 d.state, by8 d.cause] ++ g d.p ++ g d.v ++ g d.a

/-- The digest of region r as the axes stand. -/
def digestOf (s : State) (r : Nat) : Nat :=
  let l := s.axes.filter fun e => regionOfAxis e.1 == r && e.2.dyn.state != 0
  if l.isEmpty then 0 else crc64From (2 ^ 64 - 1) (l.flatMap fun e => digestBytes e.1 e.2.dyn) ^^^ (2 ^ 64 - 1)

/-- At a line base cycle boundary the digests of cycle n are captured, for every region that runs. -/
def captureDigests (s : State) (n : Nat) : State :=
  (List.range (4 * nDies s)).foldl (fun s r =>
    if regionRuns s r && clocksRun s then modDigest s r fun d => { d with cap := some (n % 2 ^ 32, digestOf s r) } else s) s

/-- DIGEST_LO_READ: the digest and its cycle are latched together. -/
def execDigestLoRead (r : Nat) (s : State) : Out :=
  .next (busRead s (regionBase r + 0xC020) fun s =>
    let d := digest s r
    emit (modDigest s r fun d => { d with latHi := d.val / 2 ^ 32, latCycle := d.cycle }) (.read [wd d.val]))

/-- DIGEST_QUERY. -/
def bodyDigestQuery (h : CmdHdr) (_ : List Word) (s : State) : State × Reply :=
  (s, .ok (lo64 (digest s h.region).val ++ [wd (digest s h.region).cycle]))

/-! ### Region registers (R115, R146) -/

/-- Axes of a region that are not OFF, with their settings. -/
def activeAxes (s : State) (r : Nat) : List (Nat × Axis) :=
  s.axes.filter fun e => regionOfAxis e.1 == r && e.2.dyn.state != 0

/-- ⌈10^9 / ct⌉. -/
def evalRate (ct : Nat) : Nat := if ct = 0 then 0 else (1000000000 + ct - 1) / ct

/-- LOAD of a region. -/
def regionLoad (s : State) (r : Nat) : Nat := ((activeAxes s r).map fun e => evalRate e.2.cfg.ct).sum

/-- The word at offset o of a region's trajectory block. -/
def trajReg (s : State) (r o : Nat) : Nat :=
  let d := digest s r
  match o with
  | 0x000 => 0
  | 0x004 => (activeAxes s r).length
  | 0x008 => regionLoad s r
  | 0x018 => d.lastAxis + 4096 * d.lastKind
  | 0x020 => d.val % 2 ^ 32
  | 0x024 => d.latHi
  | 0x028 => d.latCycle
  | o => reg s (regionBase r + 0xC000 + o)

/-! ### Twin load (R267) -/

/-- The terms of die d's record load for the courses of some ports, each as bytes per cycle and the cycle in ns. -/
def brickTerms (s : State) (d : Nat) (ports : List Nat) : List (Nat × Nat) :=
  ports.flatMap fun p =>
    let c := port s p
    if c.ccfg.plane ≠ 3 ∨ dieOfPort p ≠ d ∨ c.ccfg.ct = 0 then []
    else (inBonds s p (b2n c.course.bank)).map fun e => (e.2.2 + 15, c.ccfg.ct)

/-- The same for the direct records of some axes. -/
def directTerms (s : State) (d : Nat) (axes : List Nat) : List (Nat × Nat) :=
  axes.filterMap fun a =>
    let x := axis s a
    if !x.cfg.direct ∨ dieOfAxis a ≠ d ∨ x.cfg.ct = 0 then none else some (72, x.cfg.ct)

/-- Whether terms of n bytes every c ns come to at most lim bytes per second, exactly. -/
def rateWithin (l : List (Nat × Nat)) (lim : Nat) : Bool :=
  let m := l.foldl (fun m e => Nat.lcm m e.2) 1
  (l.map fun e => e.1 * 1000000000 * (m / e.2)).sum ≤ lim * m

/-- Whether die d keeps the twin limits with more ports and axes running; axes whose start waits for its boundary run already. -/
def twinLoadOk (s : State) (d : Nat) (ports axes : List Nat) : Bool :=
  let ax := ((s.axes.filter fun e => e.2.dyn.state != 0 || e.2.run.directAt.isSome).map (·.1) ++ axes).dedup
  let po := ((s.ports.filter fun e => e.2.course.state != 0).map (·.1) ++ ports).dedup
  let ev := ((ax.filter (dieOfAxis · == d)).map fun a => evalRate (axis s a).cfg.ct).sum
  let br := brickTerms s d po
  ev ≤ 131072000 && rateWithin br 5000000000 && rateWithin (br ++ directTerms s d ax) 5000000000

/-- Whether the package counts its twin load: it has had a TWIN_SET (DEDUCED, log entry 147). -/
def countsLoad (s : State) : Bool := s.twin.set || s.twin.role != .off

/-- The members of accepted transactions whose commit instant is still to come. -/
def membersDue (s : State) : List Member :=
  s.txns.flatMap fun t => if t.commit.isSome && t.rollback.isNone then t.members else []

/-- Whether every die keeps the twin limits once the members of a transaction have started, those of accepted ones with them:
COURSE_STARTs with the banks they name and AXIS_STARTs. -/
def startsOk (s : State) (ms : List Member) : Bool :=
  let ms := membersDue s ++ ms
  let cs := ms.filter fun m => m.op == 0x0606
  let s := cs.foldl (fun s m => modPort s (own s m.h.port) fun x => { x with course := { x.course with bank := bit (prm m.w 0) 0 } }) s
  !(countsLoad s) || (List.range (nDies s)).all fun d =>
    twinLoadOk s d (cs.map fun m => own s m.h.port) ((ms.filter fun m => m.op == 0x0705).map fun m => fld m.w 0 13 0)

/-! ### Commands (R144, R145) -/

/-- The reply of an axis command whose first word is wrong: reserved bits above bit hi, an axis the part lacks. -/
def axisBad (s : State) (w : List Word) (hi : Nat) : Option Reply :=
  if fld w 0 31 hi ≠ 0 then some (.err stInvalid 1)
  else if !(hasAxis s (fld w 0 13 0)) then some (.err stAbsent 1)
  else none

/-- AXIS_QUERY. -/
def bodyAxisQuery (_ : CmdHdr) (w : List Word) (s : State) : State × Reply :=
  match axisBad s w 14 with
  | some r => (s, r)
  | none =>
    let d := (axis s (fld w 0 13 0)).dyn
    (s, .ok ([wd d.state, wd d.cause, wd d.get, wd d.put, wd d.segExp] ++ lo64 (uns 64 d.p) ++ lo64 (uns 64 d.v) ++
      lo64 (uns 64 d.a) ++ [wd d.fired, wd d.discards, wd d.underruns, wd d.satCount]))

/-- The settings an AXIS_SET carries. -/
def axisCfgOf (w : List Word) : AxisCfg :=
  { direct := bit (prm w 0) 14
    ct := prm w 1
    ringBase := w64 w 2
    ringK := fld w 4 4 0
    recipe := (List.range 6).map fun i => (w.getD (5 + 2 * i) 0, w.getD (6 + 2 * i) 0)
    dec := w64 w 17
    cmdEn := bit (prm w 19) 0
    cmdW := bit (prm w 19) 1
    cmdOfs := fld w 19 7 2
    cmdVal := w.getD 20 0 }

/-- The reply of the first rule an AXIS_SET breaks (R113, R125, R126, R133). -/
def axisSetBad (s : State) (w : List Word) : Option Reply :=
  let c := axisCfgOf w
  let n := if c.cmdW then 4 else 2
  match axisBad s w 15 with
  | some r => some r
  | none =>
    if c.ct = 0 ∨ c.ct % s.line.baseCt ≠ 0 ∨ 16777216 < c.ct then some (.err stInvalid 2)
    else if !c.direct ∧ (c.ringBase % 64 ≠ 0) then some (.err stInvalid 3)
    else if fld w 4 31 5 ≠ 0 ∨ (!c.direct ∧ (c.ringK < 4 ∨ 16 < c.ringK)) then some (.err stInvalid 5)
    else if !c.direct ∧ ddrBytes s (dieOfAxis (fld w 0 13 0)) < c.ringBase + 64 * 2 ^ c.ringK then some (.err stInvalid 3)
    else match recipeBad c.recipe with
      | some i => some (.err stInvalid (6 + 2 * i))
      | none =>
        if c.dec = 0 ∨ 2 ^ 63 ≤ c.dec then some (.err stInvalid 18)
        else if fld w 19 31 8 ≠ 0 ∨ c.cmdOfs % n ≠ 0 ∨ 64 < c.cmdOfs + n then some (.err stInvalid 20)
        else none

/-- AXIS_SET. The values of R122 of a direct axis are zero (R132): a decision taken before holds older ones and is dropped. -/
def bodyAxisSet (_ : CmdHdr) (w : List Word) (s : State) : State × Reply :=
  let a := fld w 0 13 0
  match axisSetBad s w with
  | some r => (s, r)
  | none =>
    if (axis s a).dyn.state ≠ 0 then (s, .err stWrongState)
    else (modAxis s a fun x => { x with
      cfg := axisCfgOf w
      dyn := if bit (prm w 0) 14 then { x.dyn with p := 0, v := 0, a := 0 } else x.dyn
      run := { x.run with lastB := none, decided := none, directAt := if bit (prm w 0) 14 then x.run.directAt else none } }, .ok)

/-- Whether the first word of a rule that breaks R136 is its word 4: the rule is right but for reserved bits there. -/
def ruleWord4 (s : State) (a : Nat) (r : Rule) : Bool :=
  bits r.w4.toNat 31 14 != 0 && ruleBad s a { r with w4 := wd (bits r.w4.toNat 13 0) } != some stInvalid

/-- The rules a REFLEX_SET writes, as (index, rule). -/
def rulesOf (w : List Word) : List (Nat × Rule) :=
  ((List.range 4).filter fun i => bit (prm w 0) (14 + i)).zipIdx.map fun x =>
    let g (k : Nat) : Word := w.getD (1 + 5 * x.2 + k) 0
    (x.1, { w0 := g 0, w1 := g 1, w2 := g 2, w3 := g 3, w4 := g 4 })

/-- The reply of the first rule a REFLEX_SET breaks; DETAIL names the rule's word 0, or word 4 for its target or its own reserved bits. -/
def reflexSetBad (_ : CmdHdr) (w : List Word) (s : State) : Option Reply :=
  match axisBad s w 18 with
  | some r => some r
  | none => (rulesOf w).zipIdx.findSome? fun x =>
      (ruleBad s (fld w 0 13 0) x.1.2).map fun st => .err st (2 + 5 * x.2 + if st = stInvalid ∧ !(ruleWord4 s (fld w 0 13 0) x.1.2) then 0 else 4)

/-- Fired bits of the named rules cleared (R136, R139). -/
def rearm (d : AxisDyn) (m : Nat) : AxisDyn := { d with fired := d.fired &&& (15 ^^^ m) }

/-- The rules of an axis that a REFLEX_SET at t16 replaces, kept for bricks with A before it; those of 20 ms ago go. -/
def retire (x : Axis) (t16 : Nat) (l : List Nat) : List OldRule :=
  (l.map fun i => { until16 := t16, idx := i, rule := x.rules.look i {}, fired := bit x.dyn.fired i : OldRule }) ++
    x.oldRules.filter fun o => t16 ≤ o.until16 + 20000000 * 65536

/-- REFLEX_SET: a replaced rule is re-armed. -/
def doReflexSet (_ : CmdHdr) (w : List Word) (s : State) : State :=
  modAxis s (fld w 0 13 0) fun x =>
    { x with
      rules := (rulesOf w).foldl (fun t e => t.put e.1 e.2 {}) x.rules
      oldRules := retire x (now16 s) ((rulesOf w).map (·.1))
      dyn := rearm x.dyn (fld w 0 17 14) }

def doReflexArm (_ : CmdHdr) (w : List Word) (s : State) : State :=
  modAxis s (fld w 0 13 0) fun x => { x with dyn := rearm x.dyn (fld w 0 17 14) }

def doAxisQstop (_ : CmdHdr) (w : List Word) (s : State) : State := qstopReq s (fld w 0 13 0) 1 (now16 s)

/-- SEG_WRITE: segments stored at their ring places, then PUT advanced as a doorbell. Without a trained channel nothing can be
stored (DESIGN CHOICE, log entry 27). -/
def bodySegWrite (_ : CmdHdr) (w : List Word) (s : State) : State × Reply :=
  let a := fld w 0 13 0
  let n := fld w 1 21 17
  let f := fld w 1 16 0
  match axisBad s w 15 with
  | some r => (s, r)
  | none =>
    if fld w 1 31 22 ≠ 0 ∨ n = 0 ∨ 16 < n then (s, .err stInvalid 2)
    else if !((ddrChan s (dieOfAxis a)).trained) then (s, .err stStopped)
    else
      let x := axis s a
      let s1 := (List.range n).foldl (fun s i =>
        ddrWrite s (dieOfAxis a) (x.cfg.ringBase + 64 * ((f + i) % ringLen x)) (wordsLe ((w.drop (2 + 16 * i)).take 16))) s
      let s2 := if bit (prm w 0) 14 then doorbell s1 a ((f + n) % 131072) else s1
      (s2, .ok [wd (axis s2 a).dyn.put])

/-- The states in which AXIS_START is rejected (R114). -/
def startBarred (st : Nat) : Bool := st == 1 || st == 2 || st == 4 || st == 6

def axisStartOp : TxnOp where
  prep := fun h w s =>
    let x := axis s (fld w 0 13 0)
    match axisBad s w 14 with
    | some r => some r
    | none =>
      if !x.cfg.direct ∧ fld w 4 31 17 ≠ 0 then some (.err stInvalid 5)
      else if !x.cfg.direct ∧ fld w 5 31 16 ≠ 0 then some (.err stInvalid 6)
      else match (if x.cfg.direct then .ok 0 else instantAt w 1) with
        | .error d => some (.err stInvalid d)
        | .ok _ =>
          if startBarred x.dyn.state then some (.err stWrongState)
          else if x.cfg.ct = 0 ∨ x.cfg.ct % s.line.baseCt ≠ 0 then some (.err stInvalid 1)
          else if !(startsOk s [newMember s 0x0705 h w]) then some (.err stInvalid 1)
          else none
  test := fun _ w ms c s =>
    let x := axis s (fld w 0 13 0)
    if startBarred x.dyn.state then some (.err stWrongState)
    else if !(startsOk s ms) then some (.err stInvalid 1)
    else if x.cfg.direct then none
    else if (ltAt w 1).1 < c + 8 * x.cfg.ct + 4000 then some (.err stTooLate 2)
    else if segHeld x (fld w 4 16 0) = 0 ∨ ringLen x < segHeld x (fld w 4 16 0) then some (.err stInvalid 5)
    else none
  apply := fun _ w c s =>
    let a := fld w 0 13 0
    let x := axis s a
    if startBarred x.dyn.state then .error (.err stWrongState)
    else if x.cfg.direct then
      let b := nextB s.line.anchor x.cfg.ct (c + 4000)
      .ok { s := modAxis s a fun x => { x with run := { x.run with directAt := some (x.run.directAt.getD b), offAt := none } },
            at_ := x.run.directAt.getD b }
    else
      let s1 := modAxis s a fun x => { x with
        dyn := { x.dyn with get := fld w 4 16 0, segExp := fld w 5 15 0 }
        run := { x.run with
          s0 := (ltAt w 1).1, cache := [], qstop := none, offAt := none, leadIdx := none
          decided := x.run.decided.map fun d => { d with get := fld w 4 16 0, cache := [] } } }
      .ok { s := setAxisState s1 a 1 x.dyn.cause, at_ := (ltAt w 1).1 }
  undo := fun _ w rb _ s =>
    let a := fld w 0 13 0
    let x := axis s a
    if x.cfg.direct then
      if x.run.directAt.isSome then (modAxis s a fun x => { x with run := { x.run with directAt := none, decided := none } }, 2)
      else (qstopReq s a 9 (rb * 65536), 1)
    else if x.dyn.state = 1 then
      (setAxisState (modAxis s a fun x => { x with run := { x.run with decided := none, cache := [] } }) a 0 x.dyn.cause, 2)
    else (s, 1)

def axisOffOp : TxnOp where
  prep := fun _ w s =>
    let st := (axis s (fld w 0 13 0)).dyn.state
    match axisBad s w 14 with
    | some r => some r
    | none => if st = 2 ∨ st = 4 then some (.err stWrongState) else none
  test := fun _ w _ c s =>
    let x := axis s (fld w 0 13 0)
    let runs := x.dyn.state = 1 ∧ nextB s.line.anchor x.cfg.ct x.run.s0 ≤ c
    if x.dyn.state = 2 ∨ x.dyn.state = 4 ∨ runs then some (.err stWrongState) else none
  apply := fun _ w c s =>
    let a := fld w 0 13 0
    let x := axis s a
    match x.dyn.state with
    | 0 => .ok { s := s, at_ := c }
    | 1 => .ok { s := setAxisState (modAxis s a fun x => { x with run := { x.run with decided := none, cache := [] } }) a 0
                   x.dyn.cause, at_ := c }
    | 2 | 4 => .error (.err stWrongState)
    | _ =>
      let b := nextB s.line.anchor x.cfg.ct (c + 4000)
      .ok { s := modAxis s a fun x => { x with run := { x.run with offAt := some b, directAt := none } }, at_ := b }
  undo := fun _ w rb m s =>
    let a := fld w 0 13 0
    if rb ≤ m.at_ then
      let s1 := modAxis s a fun x => { x with run := { x.run with offAt := none } }
      let d := (axis s a).run.decided.map fun d => decide_ s1 a d.b
      (modAxis s1 a fun x => { x with run := { x.run with decided := d } }, 2)
    else (s, 0)

def execAxisQuery (h : CmdHdr) (w : List Word) (s : State) : Out := .next (runCmd s h 0x0701 w bodyAxisQuery)
def execAxisSet (h : CmdHdr) (w : List Word) (s : State) : Out := .next (runCmd s h 0x0702 w bodyAxisSet)
def execReflexSet (h : CmdHdr) (w : List Word) (s : State) : Out :=
  .next (runCmd s h 0x0703 w (bodyFwd 0x0703 reflexSetBad doReflexSet))
def execReflexArm (h : CmdHdr) (w : List Word) (s : State) : Out :=
  .next (runCmd s h 0x0704 w (bodyFwd 0x0704 (fun _ w s => axisBad s w 18) doReflexArm))
def execAxisStart (h : CmdHdr) (w : List Word) (s : State) : Out := .next (runLater s h 0x0705 w (bodyTxnFwd 0x0705 axisStartOp fun _ _ _ => []))
def execAxisQstop (h : CmdHdr) (w : List Word) (s : State) : Out :=
  .next (runCmd s h 0x0706 w (bodyFwd 0x0706 (fun _ w s => axisBad s w 14) doAxisQstop))
def execAxisOff (h : CmdHdr) (w : List Word) (s : State) : Out := .next (runLater s h 0x0707 w (bodyTxnFwd 0x0707 axisOffOp fun _ _ _ => []))
def execSegWrite (h : CmdHdr) (w : List Word) (s : State) : Out := .next (runCmd s h 0x0708 w bodySegWrite)
def execDigestQuery (h : CmdHdr) (w : List Word) (s : State) : Out := .next (runCmd s h 0x0709 w bodyDigestQuery)

end Sys2Proof.Machine
end

