-- ==== Sys2Proof/Machine/Crypto.lean ====
section
/-! DEFINITION. SHA-256, HMAC, and ECDSA on P-256 with the deterministic nonce of RFC 6979, as R375, R376 and R386 use them. -/

namespace Sys2Proof.Machine

/-! ### SHA-256 -/

/-- n words of 32 bits that the digits of x spell, the first from the top. -/
def wordsOf (n x : Nat) : List Word := ((List.range n).map fun i => wd (x / 2 ^ (32 * i))).reverse

/-- The fractions of the square roots of the first 8 primes, 32 bits of each. -/
def shaStart : List Word := wordsOf 8 0x6a09e667bb67ae853c6ef372a54ff53a510e527f9b05688c1f83d9ab5be0cd19

/-- The fractions of the cube roots of the first 64 primes, 32 bits of each; in four parts. -/
def shaRoots : List Word :=
  wordsOf 16 0x428a2f9871374491b5c0fbcfe9b5dba53956c25b59f111f1923f82a4ab1c5ed5d807aa9812835b01243185be550c7dc372be5d7480deb1fe9bdc06a7c19bf174 ++
  wordsOf 16 0xe49b69c1efbe47860fc19dc6240ca1cc2de92c6f4a7484aa5cb0a9dc76f988da983e5152a831c66db00327c8bf597fc7c6e00bf3d5a7914706ca635114292967 ++
  wordsOf 16 0x27b70a852e1b21384d2c6dfc53380d13650a7354766a0abb81c2c92e92722c85a2bfe8a1a81a664bc24b8b70c76c51a3d192e819d6990624f40e3585106aa070 ++
  wordsOf 16 0x19a4c1161e376c082748774c34b0bcb5391c0cb34ed8aa4a5b9cca4f682e6ff3748f82ee78a5636f84c878148cc7020890befffaa4506cebbef9a3f7c67178f2

/-- The exclusive or of x turned right by each of some counts. -/
def turns (l : List Nat) (x : Word) : Word := l.foldl (fun y n => y ^^^ x.rotateRight n) 0

/-- The words of a block and those that follow them, newest first: n more. -/
def shaExtend : Nat → List Word → List Word
  | 0, l => l
  | n + 1, l =>
    let far := l.getD 14 0
    let near := l.getD 1 0
    shaExtend n ((l.getD 15 0 + l.getD 6 0 + (turns [7, 18] far ^^^ (far >>> 3)) + (turns [17, 19] near ^^^ (near >>> 10))) :: l)

/-- One step on the eight working words, x the sum of its root and its message word. -/
def shaStep (v : List Word) (x : Word) : List Word :=
  let at_ (i : Nat) : Word := v.getD i 0
  let pick := at_ 6 ^^^ (at_ 4 &&& (at_ 5 ^^^ at_ 6))
  let most := (at_ 0 &&& at_ 1) ||| (at_ 2 &&& (at_ 0 ||| at_ 1))
  let t := x + pick + turns [6, 11, 25] (at_ 4) + at_ 7
  (t + most + turns [2, 13, 22] (at_ 0)) :: (v.take 3 ++ (t + at_ 3) :: (v.drop 4).take 3)

/-- One block of 64 bytes. -/
def shaBlock (h : List Word) (b : List Byte) : List Word :=
  let w := (shaExtend 48 (toWordsBe 16 b).reverse).reverse
  List.zipWith (· + ·) h ((List.zipWith (· + ·) shaRoots w).foldl shaStep h)

/-- The blocks of a padded message; fuel bounds their number. -/
def shaBlocks : Nat → List Word → List Byte → List Word
  | 0, h, _ => h
  | _, h, [] => h
  | n + 1, h, l => shaBlocks n (shaBlock h (l.take 64)) (l.drop 64)

/-- SHA-256, 32 bytes. -/
def sha256 (m : List Byte) : List Byte :=
  let z := (119 - m.length % 64) % 64
  let l := m ++ [by8 0x80] ++ List.replicate z 0 ++ be 8 (8 * m.length)
  wordsBe (shaBlocks (l.length / 64) shaStart l)

/-- HMAC-SHA256 with a key of at most 64 bytes. -/
def hmac (k m : List Byte) : List Byte :=
  let k := k ++ List.replicate (64 - k.length) 0
  sha256 (k.map (· ^^^ 0x5C#8) ++ sha256 (k.map (· ^^^ 0x36#8) ++ m))

/-! ### P-256 -/

def ecP : Nat := 0xFFFFFFFF00000001000000000000000000000000FFFFFFFFFFFFFFFFFFFFFFFF
def ecN : Nat := 0xFFFFFFFF00000000FFFFFFFFFFFFFFFFBCE6FAADA7179E84F3B9CAC2FC632551
def ecB : Nat := 0x5AC635D8AA3A93E7B3EBBD55769886BC651D06B0CC53B0F63BCE3C3E27D2604B
def ecG : Nat × Nat :=
  (0x6B17D1F2E12C4247F8BCE6E563A440F277037D812DEB33A0F4A13945D898C296,
   0x4FE342E2FE1A7F9B8EE7EB4A7C0F9E162BCE33576B315ECECBB6406837BF51F5)

/-- x ^ e mod m, by the low n bits of e. -/
def powMod : Nat → Nat → Nat → Nat → Nat
  | 0, _, _, m => 1 % m
  | n + 1, x, e, m =>
    let r := powMod n (x * x % m) (e / 2) m
    if e % 2 = 1 then x * r % m else r

/-- The inverse of x modulo a prime m of at most 256 bits. -/
def invMod (x m : Nat) : Nat := powMod 256 (x % m) (m - 2) m

/-- A point of the curve; none is the point at infinity. -/
abbrev EcPoint := Option (Nat × Nat)

/-- x - y modulo p. -/
def subP (x y : Nat) : Nat := (x + ecP - y % ecP) % ecP

/-- The third point of a line of slope k through a and a point of abscissa x2, mirrored. -/
def ecChord (k : Nat) (a : Nat × Nat) (x2 : Nat) : Nat × Nat :=
  let x := subP (subP (k * k) a.1) x2
  (x, subP (k * subP a.1 x) a.2)

def ecAdd (a b : EcPoint) : EcPoint :=
  match a, b with
  | none, b => b
  | a, none => a
  | some p, some q =>
    if p.1 = q.1 then
      if (p.2 + q.2) % ecP = 0 then none
      else some (ecChord (subP (3 * p.1 * p.1) 3 * invMod (2 * p.2) ecP) p q.1)
    else some (ecChord (subP q.2 p.2 * invMod (subP q.1 p.1) ecP) p q.1)

/-- k times a point, by the low n bits of k. -/
def ecMul : Nat → Nat → EcPoint → EcPoint
  | 0, _, _ => none
  | n + 1, k, a =>
    let r := ecMul n (k / 2) (ecAdd a a)
    if k % 2 = 1 then ecAdd a r else r

/-- Whether (x, y) is a point of the curve. -/
def onCurve (x y : Nat) : Bool := x < ecP && y < ecP && y * y % ecP == (subP (x * x * x) (3 * x) + ecB) % ecP

/-- Whether (r, s) signs the message digest z for the public key (x, y). -/
def ecdsaVerify (x y z r s : Nat) : Bool :=
  if !(onCurve x y) || r = 0 || s = 0 || ecN ≤ r || ecN ≤ s then false
  else
    let w := invMod s ecN
    match ecAdd (ecMul 256 (z * w % ecN) (some ecG)) (ecMul 256 (r * w % ecN) (some (x, y))) with
    | some q => q.1 % ecN == r
    | none => false

/-- The candidates of RFC 6979, from K and V on: the first k within range that gives a signature; fuel bounds the tries. -/
def ecdsaTry : Nat → List Byte → List Byte → Nat → Nat → Nat × Nat
  | 0, _, _, _, _ => (0, 0)
  | n + 1, kk, v, d, z =>
    let v := hmac kk v
    let k := ofBe v
    let r := match ecMul 256 k (some ecG) with | some q => q.1 % ecN | none => 0
    let s := invMod k ecN * (z + r * d) % ecN
    if k = 0 ∨ ecN ≤ k ∨ r = 0 ∨ s = 0 then
      let kk := hmac kk (v ++ [by8 0])
      ecdsaTry n kk (hmac kk v) d z
    else (r, s)

/-- The deterministic signature of a 32-byte digest with private key d. -/
def ecdsaSign (d : Nat) (digest : List Byte) : Nat × Nat :=
  let z := ofBe digest
  let x := be 32 d ++ be 32 (z % ecN)
  let v := List.replicate 32 (by8 1)
  let k := hmac (List.replicate 32 (by8 0)) (v ++ [by8 0] ++ x)
  let v := hmac k v
  let k := hmac k (v ++ [by8 1] ++ x)
  ecdsaTry 16 k (hmac k v) d z

/-- The public key of a private key, X then Y, 64 bytes. -/
def publicKey (d : Nat) : List Byte :=
  match ecMul 256 d (some ecG) with | some q => be 32 q.1 ++ be 32 q.2 | none => List.replicate 64 0

end Sys2Proof.Machine
end

