-- ==== Sys2Proof/Machine/Fifo.lean ====
section
/-! DEFINITION. The PCIe FIFOs of BAR2: filling, rewinding and software's read pointers (R289 to R294, R307). -/

namespace Sys2Proof.Machine

/-- CMD_FREE: words of the command ring neither visible nor, in mode 0, in filling. -/
def cmdFree (f : Fifo) : Nat := 65536 - f.used

/-- Words of packets in filling in mode 0. -/
def filling (f : Fifo) : Nat := (f.front + 65536 - f.head) % 65536

/-- The command ring's word i. -/
def ringWord (f : Fifo) (i : Nat) : Nat := (f.ring.look (i % 65536) 0).toNat

/-- Every packet in filling rewound for a reason (R292). -/
def rewind (s : State) (why : Nat) : State :=
  let f := s.fifo
  let s := { s with fifo := { f with used := f.used - filling f, front := f.head, written := [], ends := [], why := why } }
  raise (count s 0x70018 1) 0x70038 1

/-- Whether a packet is in filling. -/
def inFilling (f : Fifo) : Bool := filling f != 0 || !f.written.isEmpty

/-- A host access to BAR2: none with the link down; an error while die 0 is stopped or CTRL does not run, or the boot ROM runs
(R377). -/
def bar2Write (s : State) (g : State → State) : State :=
  if !s.pcie.up then s
  else if !(dieRuns s 0) then accessErr s 8
  else if !(ctrlRuns s) || s.sec.bootState != 5 then count s 0x20018 1
  else g s

/-! ### Mode 0 (R290) -/

/-- Words appended at FRONT, up to the first that breaks the header tests: a packet whose words are LENGTH becomes visible. The
reason of a rewind, where one breaks them. -/
def fillWords : List Word → Fifo → Fifo × Option Nat
  | [], f => (f, none)
  | x :: r, f =>
    let g := { f with ring := f.ring.put f.front x 0, front := (f.front + 1) % 65536, used := f.used + 1 }
    let k := filling g
    let len := bits (ringWord g (g.head + 2)) 31 16
    if k = 1 && bits x.toNat 31 16 != 0x474D then (g, some 3)
    else if k = 3 && (len < 5 || 4096 < len) then (g, some 4)
    else if 3 ≤ k && k = len then fillWords r { g with head := g.front, count := g.count + 1 }
    else fillWords r g

/-- CMD_FIFO_WRITE: a mode 0 write TLP to the command window. -/
def execCmdFifoWrite (ofs : Nat) (data : List Word) (whole poisoned : Bool) (s : State) : Out :=
  .next (bar2Write s fun s =>
    let f := s.fifo
    if f.mode || 0x40000 ≤ ofs then s
    else if poisoned then rewind s 2
    else if cmdFree f < data.length then rewind s 6
    else if !whole || ofs ≠ 4 * f.front then rewind s 5
    else
      let x := fillWords data f
      let s := { s with fifo := x.1 }
      match x.2 with | some why => rewind s why | none => s)

/-! ### Mode 1 (R291) -/

/-- One byte of the ring stored, at ring byte i. -/
def putByte (f : Fifo) (i : Nat) (b : Byte) : Fifo :=
  let k := i / 4 % 65536
  let w := ringWord f k
  let sh := 256 ^ (i % 4)
  let v := w - w / sh % 256 * sh + b.toNat * sh
  { f with ring := f.ring.put k (wd v) 0, written := f.written.put (i % 262144) true false }

/-- Bytes with their enables stored from ring byte i on. -/
def putBytes (f : Fifo) (i : Nat) (l : List (Option Byte)) : Fifo :=
  l.zipIdx.foldl (fun f x => match x.1 with | some b => putByte f (i + x.2) b | none => f) f

/-- Whether word i of the ring is wholly written. -/
def wordWritten (f : Fifo) (i : Nat) : Bool :=
  (List.range 4).all fun k => f.written.look (4 * (i % 65536) + k) false

/-- The words from head to the first end mark, at most n. -/
def toMark (f : Fifo) : Nat → Nat → Option Nat
  | 0, _ => none
  | n + 1, k => if f.ends.look ((f.head + k) % 65536) false then some (k + 1) else toMark f n (k + 1)

/-- Packets in ring order that have become whole, or the reason of a rewind; fuel bounds their number. -/
def complete : Nat → Fifo → Fifo × Option Nat
  | 0, f => (f, none)
  | fuel + 1, f =>
    let len := bits (ringWord f (f.head + 2)) 31 16
    if wordWritten f f.head && bits (ringWord f f.head) 31 16 != 0x474D then (f, some 3)
    else if wordWritten f (f.head + 2) && (len < 5 || 4096 < len) then (f, some 4)
    else match (if f.ends.isEmpty then none else toMark f (cmdFree f) 0) with
      | none => (f, none)
      | some n =>
        if !((List.range n).all fun k => wordWritten f (f.head + k)) then (f, none)
        else if n < 3 ∨ n ≠ len then (f, some 4)
        else
          let h := (f.head + n) % 65536
          let mine (i : Nat) : Bool := (i + 65536 - f.head) % 65536 < n
          complete fuel { f with
            head := h, front := h, used := f.used + n, count := f.count + 1
            written := f.written.drop fun i => mine (i / 4), ends := f.ends.drop mine }

/-- CMD_FIFO_WRITE_MODE1: a mode 1 write to the command or the end window. -/
def execCmdFifoWriteMode1 (ofs : Nat) (data : List (Option Byte)) (poisoned : Bool) (s : State) : Out :=
  let isEnd := decide (0x90000 ≤ ofs ∧ ofs < 0xD0000)
  let o := if isEnd then ofs - 0x90000 else ofs
  .next (bar2Write s fun s =>
    let f := s.fifo
    let last := (o + data.length - 1) / 4
    let far (i : Nat) : Bool := cmdFree f ≤ (i + 65536 - f.front) % 65536
    if !f.mode || 0x40000 ≤ o || data.isEmpty then s
    else if poisoned then rewind s 2
    else if far (o / 4) || far last || cmdFree f < last + 1 - o / 4 then rewind s 6
    else
      let g := putBytes f o data
      let g := if isEnd then { g with ends := g.ends.put (last % 65536) true false } else g
      let x := complete 65536 g
      let s := { s with fifo := x.1 }
      match x.2 with | some why => rewind s why | none => s)

/-! ### Control (R292 to R294) -/

/-- CMD_ABORT. -/
def execCmdAbort (s : State) : Out :=
  .next (busWrite s 0x70000 fun s => if inFilling s.fifo then rewind s 1 else s)

/-- FIFO_MODE_WRITE: a change of MODE rewinds what is in filling. -/
def execFifoModeWrite (mode : Bool) (s : State) : Out :=
  .next (busWrite s 0x70000 fun s =>
    if s.fifo.mode = mode then s
    else
      let s := if inFilling s.fifo then rewind s 7 else s
      { s with fifo := { s.fifo with mode := mode } })

/-- RPL_RD_WRITE. -/
def execRplRdWrite (v : BitVec 16) (s : State) : Out :=
  .next (busWrite s 0x70024 fun s =>
    let f := s.fifo
    if (f.rplWr + 65536 - f.rplRd) % 65536 < (v.toNat + 65536 - f.rplRd) % 65536 then raise s 0x70038 4
    else { s with fifo := { f with rplRd := v.toNat } })

/-- EVT_RD_WRITE: a write past EVT_WR is ignored; a lost count waiting goes out once there is room. A write of the position EVT_RD
has moves it by nothing, the ring full or empty (DESIGN CHOICE, log entry 6). -/
def execEvtRdWrite (v : BitVec 14) (s : State) : Out :=
  .next (busWrite s 0x7002C fun s =>
    let f := s.fifo
    let n := (v.toNat + 16384 - f.evtRd) % 16384
    if f.evtUsed < n then s
    else evtGap { s with fifo := { f with evtRd := v.toNat, evtUsed := f.evtUsed - n } })

/-- The word at offset o of the FIFO block. -/
def fifoReg (s : State) (o : Nat) : Nat :=
  let f := s.fifo
  match o with
  | 0x000 => b2n f.mode
  | 0x004 => f.front
  | 0x008 => f.rd
  | 0x00C => cmdFree f
  | 0x010 => f.count
  | 0x014 => f.why
  | 0x020 => f.rplWr
  | 0x024 => f.rplRd
  | 0x028 => f.evtWr
  | 0x02C => f.evtRd
  | 0x034 => f.rplVec + 65536 * f.evtVec
  | o => reg s (0x70000 + o)

/-- The oldest visible packet's words, taken off the ring. -/
def takePacket (s : State) : State × List Word :=
  let f := s.fifo
  let n := bits (ringWord f (f.rd + 2)) 31 16
  ({ s with fifo := { f with rd := (f.rd + n) % 65536, used := f.used - n, count := f.count - 1 } },
    (List.range n).map fun k => f.ring.look ((f.rd + k) % 65536) 0)

end Sys2Proof.Machine
end

