-- ==== Sys2Proof/Machine/Mover.lean ====
section
/-! DEFINITION. The mover: register sets, start checks, bursts, lists, endings, records and hand-over (R308 to R326). -/

namespace Sys2Proof.Machine

/-! ### Channels -/

def chan (s : State) (m : Nat) : Chan := s.chans.look m {}
def modChan (s : State) (m : Nat) (f : Chan → Chan) : State := { s with chans := s.chans.put m (f (chan s m)) {} }
def mring (s : State) (d r : Nat) : MRing := s.rings.look (4 * d + r) {}
def modMring (s : State) (d r : Nat) (f : MRing → MRing) : State := { s with rings := s.rings.put (4 * d + r) (f (mring s d r)) {} }
def mdie (s : State) (d : Nat) : MDie := s.mdies.look d {}

/-- The base of a die's mover block, of a channel's registers, and of the event block. -/
def moverBase (d : Nat) : Nat := dieBase d + 0x10000
def chanBase (m : Nat) : Nat := moverBase (dieOfMover m) + 0x100 * (m % 32)

/-- A mover event of local channel c of die d, with LAST_CH and LAST_KIND (R326). -/
def moverEvent (s : State) (d c k : Nat) : State :=
  raise { s with mdies := s.mdies.put d { mdie s d with lastCh := c, lastKind := k } {} } (moverBase d + 0x2100) (2 ^ k)

/-- Counter ofs of die d raised by n on behalf of local channel c: a half-range event names that channel and COUNTER_HALF (R326). -/
def countMover (s : State) (d c ofs n : Nat) : State :=
  let t := count s (moverBase d + ofs) n
  if crosses s.regs (moverBase d + ofs) n then { t with mdies := t.mdies.put d { mdie t d with lastCh := c, lastKind := 6 } {} } else t

/-- The shadow set emptied (R312, R325). -/
def noShadow : MSet := { ctrl := 0 }

/-- The fields of CTRL. -/
def mSg (c : MSet) (dst : Bool) : Bool := bit c.ctrl.toNat (if dst then 2 else 1)
def mSp (c : MSet) (dst : Bool) : Nat := if dst then bits c.ctrl.toNat 6 5 else bits c.ctrl.toNat 4 3
def mWcode (c : MSet) (dst : Bool) : Nat := if dst then bits c.ctrl.toNat 12 10 else bits c.ctrl.toNat 9 7
def mW (c : MSet) (dst : Bool) : Nat := 2 ^ mWcode c dst
def mFix (c : MSet) (dst : Bool) : Bool := bit c.ctrl.toNat (if dst then 14 else 13)
def mAddr (c : MSet) (dst : Bool) : Nat := if dst then c.dst else c.src
def mBurst (c : MSet) : Nat := 64 * 2 ^ bits c.ctrl.toNat 16 15
def mRing (c : MSet) : Nat := bits c.ctrl.toNat 18 17
def mIrq (c : MSet) : Bool := bit c.ctrl.toNat 19
def mRetry (c : MSet) : Nat := bits c.ctrl.toNat 22 20
def mShare (c : MSet) : Nat := bits c.ctrl.toNat 30 23

/-- The die whose DDR4 a space code of a channel of die d names. -/
def spaceDie (d sp : Nat) : Nat := if sp = 1 then d else 1 - d

/-- The size of a space, in bytes, that a burst under way meets: for DDR4 the fitted size. A burst to a channel not trained fails as
unreachable, which comes before the end of the space (R309, R320, R321; DEDUCED, log entry 179). -/
def spaceSize (s : State) (d sp : Nat) : Nat := if sp = 0 then 2 ^ 64 else (ddrChan s (spaceDie d sp)).gib * 2 ^ 30

/-- The size of a space that a set or a list entry is checked against: for DDR4 SIZE_GIB, 0 while the channel is not trained (R425). -/
def spaceFit (s : State) (d sp : Nat) : Nat := if sp = 0 then 2 ^ 64 else ddrBytes s (spaceDie d sp)

/-- Whether the endpoint on die 0 carries mover traffic of die d: none while die 0 is held, and die 1's comes over the die bridge
(R28, R309, R323). -/
def hostUp (s : State) (d : Nat) : Bool := dieRuns s 0 && (d == 0 || bridgeUp s)

/-- Whether a space can be written from die d now: the host's posted writes never fail while the endpoint carries them (R320). -/
def spaceOpen (s : State) (d sp : Nat) : Bool :=
  if sp = 0 then hostUp s d
  else dieRuns s (spaceDie d sp) && (ddrChan s (spaceDie d sp)).trained && d < 2 && (sp == 1 || bridgeUp s)

/-- Whether a space can be read from die d now (R320, R323). -/
def spaceUp (s : State) (d sp : Nat) : Bool := spaceOpen s d sp && (sp != 0 || s.pcie.up)

/-- Whether a completion ring is enabled (R324). -/
def ringOn (r : MRing) : Bool :=
  let k := bits r.cfg.toNat 4 0
  4 ≤ k && k ≤ 16 && bits r.cfg.toNat 6 5 ≤ 1

def ringHeld (r : MRing) : Nat := (r.wr + 131072 - r.rd) % 131072
def ringFull (r : MRing) : Bool := 2 ^ bits r.cfg.toNat 4 0 ≤ ringHeld r

/-! ### Endings (R318 to R321) -/

/-- Rank of an ending, the highest precedence first (R321). -/
def endRank (e : Nat) : Nat := match e with | 2 => 0 | 3 => 1 | 6 => 2 | 5 => 3 | 1 => 4 | _ => 5

/-- The ending of a transfer that meets another. -/
def worse (o : Option Nat) (e : Nat) : Option Nat := match o with | some x => if endRank x < endRank e then some x else some e | none => some e

/-- A transfer that has ended with status e: its record waits for ring space. -/
def finish (s : State) (m e : Nat) : State :=
  let d := dieOfMover m
  let s := modChan s m fun c => { c with state := 3, x := { c.x with ending := some e, flight := [], hold := [] } }
  if ringFull (mring s d (mRing (chan s m).act)) then
    moverEvent (modChan s m fun c => { c with x := { c.x with fullRaised := true } }) d (m % 32) 2
  else s

/-- A side's list as it stands at a start. -/
def sideInit (c : MSet) (dst : Bool) : SgSide := if mSg c dst then { next := mAddr c dst } else {}

/-! ### Lists (R316) -/

/-- A side moved on past entries that are used up or skipped, pos being its place in the stream; it stops before an entry that cannot be
used. -/
def moveOn (pos : Nat) : List SgEnt → SgSide → SgSide
  | [], y => { y with ahead := [] }
  | e :: r, y =>
    if y.ofs ≠ y.len || y.last || e.err ≠ 0 then { y with ahead := e :: r }
    else moveOn pos r { y with
      addr := e.addr, len := e.len, ofs := 0, cur := e.idx, last := e.last
      used := if e.len = 0 then y.used else (pos, e.idx, e.len) :: y.used }

/-- Both lists of channel m moved on. -/
def stepLists (s : State) (m : Nat) : State :=
  modChan s m fun c => { c with x := { c.x with
    src := if mSg c.act false && decide (c.x.read < c.act.count) then moveOn c.x.read c.x.src.ahead c.x.src else c.x.src
    dst := if mSg c.act true && decide (c.x.written < c.act.count) then moveOn c.x.written c.x.dst.ahead c.x.dst else c.x.dst } }

/-- Whether a list has ended and its last entry is used up. -/
def sideOut (c : Chan) (dst : Bool) : Bool :=
  mSg c.act dst && (let y := if dst then c.x.dst else c.x.src; y.last && y.ofs == y.len)

/-- The ending that the next entry of a used-up side brings; 0 where it brings none. -/
def sideErr (c : Chan) (dst : Bool) : Nat :=
  let y := if dst then c.x.dst else c.x.src
  if mSg c.act dst && y.ofs == y.len && !y.last then (y.ahead.head?.map (·.err)).getD 0 else 0

/-! ### Writing (R314, R315, R320) -/

/-- Bytes the destination can take now: all of them without a list, else those left in its entry. -/
def dstRoom (c : Chan) : Nat := if mSg c.act true then c.x.dst.len - c.x.dst.ofs else c.act.count - c.x.written

/-- The address of the destination's next byte. -/
def dstAddr (c : Chan) : Nat :=
  if mSg c.act true then c.x.dst.addr + c.x.dst.ofs else if mFix c.act true then c.act.dst else c.act.dst + c.x.written

/-- Bytes l stored from address a of a space on. -/
def putSpace (s : State) (d sp a : Nat) (l : List Byte) : State :=
  if sp = 0 then emit s (.hostWrite a l) else ddrWrite s (spaceDie d sp) a l

/-- The bytes of the next write request of a channel: whole units of its holding register, at most BURST, one unit at a fixed address; to
the host no more than the maximum payload and within a 4 KiB page. -/
def writeLen (c : Chan) : Nat :=
  let w := mW c.act true
  let n := min (min (c.x.hold.length / w * w) (dstRoom c)) (if mFix c.act true then w else mBurst c.act)
  if mSp c.act true = 0 then min n (min (4096 - dstAddr c % 4096) (max w (Config.maxPayload / w * w))) else n

/-- Entries whose bytes are all written, but for the last one, forgotten. -/
def pruneUsed (p : Nat) : List (Nat × Nat × Nat) → List (Nat × Nat × Nat)
  | [] => []
  | x :: r => if x.1 ≤ p then [x] else x :: pruneUsed p r

/-- The ending e of a transfer whose writing has failed: what is read and in flight is discarded. -/
def dropData (e : Nat) (c : Chan) : Chan := { c with x := { c.x with ending := worse c.x.ending e, flight := [], hold := [] } }

/-- The next write request of channel m. One that meets a space out of reach is tried again RETRY times at once and fails (DESIGN CHOICE:
the spec gives no time between tries; log entry 176); one that passes the end of its space ends the transfer. -/
def writeOne (s : State) (m : Nat) : State :=
  let c := chan s m
  let d := dieOfMover m
  let n := writeLen c
  let sp := mSp c.act true
  if !(spaceOpen s d sp) then
    let k := mRetry c.act
    modChan (countMover s d (m % 32) 0x2110 k) m fun c => dropData 2 { c with x := { c.x with retries := c.x.retries + k } }
  else if spaceSize s d sp < dstAddr c + n then modChan s m (dropData 3)
  else
    modChan (putSpace s d sp (dstAddr c) (c.x.hold.take n)) m fun c => { c with x := { c.x with
      written := c.x.written + n, hold := c.x.hold.drop n,
      dst := if mSg c.act true then { c.x.dst with ofs := c.x.dst.ofs + n, used := c.x.dst.used.take 1 } else c.x.dst,
      src := { c.x.src with used := pruneUsed (c.x.written + n) c.x.src.used } } }

/-- Whether a channel has a write request to issue. -/
def writeReady (c : Chan) : Bool := (c.state == 1 || c.state == 2) && writeLen c != 0

/-- The channel that the write engine of die d serves next, round robin. -/
def nextWriter (s : State) (d : Nat) : Option Nat :=
  ((List.range 32).map fun i => ((mdie s d).lastWritten + 1 + i) % 32).find? fun l => writeReady (chan s (32 * d + l))

/-- The write engine of die d serves its channels until none has a request, or n requests. -/
def writeEngine : Nat → State → Nat → State
  | 0, s, _ => s
  | n + 1, s, d => match nextWriter s d with
    | none => s
    | some l =>
      let s := { s with mdies := s.mdies.put d { mdie s d with lastWritten := l } {} }
      writeEngine n (stepLists (writeOne s (32 * d + l)) (32 * d + l)) d

/-- The bytes that the channels of die d hold: no fewer than the requests they can have, each of which takes one or more. -/
def heldBytes (s : State) (d : Nat) : Nat := ((List.range 32).map fun l => (chan s (32 * d + l)).x.hold.length).sum

/-- What has become of a transfer: data written, the ending found, and WAIT_RING once nothing more is to be written. -/
def settleXfer (s : State) (m : Nat) : State :=
  let s := stepLists s m
  let s := writeEngine (heldBytes s (dieOfMover m)) s (dieOfMover m)
  let c := chan s m
  let x := c.x
  let unit := decide (mW c.act true ≤ x.hold.length)
  if c.state ≠ 1 ∧ c.state ≠ 2 then s
  else if x.written = c.act.count then finish s m (x.ending.getD 0)
  else if sideErr c true ≠ 0 ∧ (c.state = 1 ∨ unit) then finish s m ((worse x.ending (sideErr c true)).getD 6)
  else if sideOut c true ∧ (c.state = 1 ∨ unit) then finish s m ((worse x.ending 5).getD 5)
  else
    let src := if c.state = 1 ∧ x.read < c.act.count then (if sideOut c false then 5 else sideErr c false) else 0
    let e := if src = 0 then x.ending else worse x.ending src
    let s := modChan s m fun c => { c with x := { c.x with ending := e } }
    let stuck := !unit || (c.state == 2 && dstRoom c == 0)
    match e with
    | some k => if x.flight.isEmpty && stuck then finish s m k else s
    | none => if c.state = 2 ∧ x.flight.isEmpty ∧ stuck then finish s m 1 else s

/-! ### Starting (R313, R317) -/

/-- CORE cycles of 1.25 ns since line time 0. -/
def coreCycle (s : State) : Nat := s.time.units * 4 / (5 * 2 ^ 41)

/-- ALLOW at a CORE cycle. -/
def allowAt (c : Chan) (cyc : Nat) : Nat := min (8 * mBurst c.act) (c.allow + (cyc - c.allowAt) * (mShare c.act + 1))

/-- The first start check from check 2 on that a set fails, as its status. With COUNT 0 check 5 asks for the byte before the address; at
address 0 it passes (DESIGN CHOICE: no byte lies outside; log entry 177). -/
def startBad (s : State) (d : Nat) (c : MSet) : Option Nat :=
  let side (dst : Bool) : Bool := mWcode c dst == 7 || mSp c dst == 3 || (mSp c dst == 2 && !(hasDie s 1)) || (mFix c dst && mSg c dst)
  let mis (dst : Bool) : Bool := if mSg c dst then mAddr c dst % 16 != 0 else mAddr c dst % mW c dst != 0
  let out (dst : Bool) : Bool := !(mSg c dst) &&
    (if mFix c dst then spaceFit s d (mSp c dst) < mAddr c dst + mW c dst
     else spaceFit s d (mSp c dst) < mAddr c dst + c.count)
  if side false || side true then some 7
  else if c.count % max (mW c false) (mW c true) ≠ 0 || mis false || mis true then some 4
  else if out false || out true then some 3
  else none

/-- The transfer of channel m's active set starts: from IDLE, or at hand-over. -/
def startXfer (s : State) (m : Nat) (shadow : Bool) : State :=
  let d := dieOfMover m
  let c := chan s m
  let ev (s : State) : State := moverEvent s d (m % 32) 4
  let x : MXfer := { fromShadow := shadow, src := sideInit c.act false, dst := sideInit c.act true }
  if !(ringOn (mring s d (mRing c.act))) then
    ev (modChan s m fun c => { c with state := 0, lastStatus := 7, x := { x with atStart := true }, handover := true })
  else
    let s := modChan s m fun c =>
      { c with state := 1, x := x, allow := if shadow then c.allow else 8 * mBurst c.act, allowAt := coreCycle s }
    match startBad s d c.act with
    | some e => ev (finish (modChan s m fun c => { c with x := { c.x with atStart := true } }) m e)
    | none => if c.act.count = 0 then finish s m 0 else s

/-! ### Hand-over (R312) -/

/-- The hand-over cycle of a transfer that has ended. ALLOW as it has grown under the old set carries over (R317). -/
def handOver (s : State) (m : Nat) : State :=
  let c := chan s m
  let e := c.x.ending.getD 7
  if !c.handover then s
  else
    let s := modChan s m fun c => { c with handover := false }
    if e = 1 then modChan s m fun c => { c with state := 0 }
    else if !c.x.atStart && (e = 2 || e = 3) then
      let s := modChan s m fun c => { c with state := 4 }
      moverEvent (countMover s (dieOfMover m) (m % 32) 0x2114 1) (dieOfMover m) (m % 32) 0
    else
      let s := modChan s m fun c =>
        { c with act := c.shd, shd := noShadow, armed := false, state := 0, allow := allowAt c (coreCycle s) }
      if c.armed then startXfer s m true else s

/-- MOVER_HANDOVER. -/
def execMoverHandover (m : Nat) (s : State) : Out := .next (if clocksRun s && dieRuns s (dieOfMover m) then handOver s m else s)

/-! ### Register writes (R311, R319, R320, R324) -/

/-- A write of a word to a register set, at its offset. -/
def setWord (c : MSet) (ofs : Nat) (v : Word) : MSet :=
  let lo (o : Nat) : Nat := o / 2 ^ 32 * 2 ^ 32 + v.toNat
  let hi (o : Nat) : Nat := o % 2 ^ 32 + v.toNat * 2 ^ 32
  match ofs with
  | 0x00 => { c with src := lo c.src }
  | 0x04 => { c with src := hi c.src }
  | 0x08 => { c with dst := lo c.dst }
  | 0x0C => { c with dst := hi c.dst }
  | 0x10 => { c with count := v.toNat }
  | 0x14 => { c with ctrl := v &&& 0x7FFFFFFE#32 }
  | 0x18 => { c with tag := v.toNat % 65536 }
  | _ => c

/-- A write to channel m's register set, with GO or without. A pending hand-over comes first. -/
def setWrite (s : State) (m ofs : Nat) (v : Word) (go : Bool) : State :=
  let s := handOver s m
  let c := chan s m
  if ofs % 4 ≠ 0 || 0x18 < ofs then s
  else if c.state = 0 then
    let s := modChan s m fun c => { c with act := setWord c.act ofs v }
    if go then startXfer s m false else s
  else if c.armed then moverEvent s (dieOfMover m) (m % 32) 3
  else modChan s m fun c => { c with shd := setWord c.shd ofs v, armed := go }

/-- MOVER_SET_WRITE: a write at 0x00 to 0x18. -/
def execMoverSetWrite (m ofs : Nat) (v : Word) (s : State) : Out :=
  .next (busWrite s (chanBase m + ofs) fun s => setWrite s m ofs v (ofs = 0x14 && bit v.toNat 0))

/-- GO: a CTRL write with GO. -/
def execMoverGo (m : Nat) (ctrl : Word) (s : State) : Out :=
  .next (busWrite s (chanBase m + 0x14) fun s => setWrite s m 0x14 ctrl true)

/-- ABORT: only in RUN, after a hand-over that waits (R312, R319). -/
def execMoverAbort (m : Nat) (s : State) : Out :=
  .next (busWrite s (chanBase m + 0x20) fun s =>
    let s := handOver s m
    let c := chan s m
    if c.state ≠ 1 then s
    else
      settleXfer (modChan s m fun c => { c with
        state := 2, shd := noShadow, armed := false, x := { c.x with ending := worse c.x.ending 1, dropped := c.armed } }) m)

/-- CLEAR: only in HALTED, after a hand-over that waits (R312, R320). -/
def execMoverClear (m : Nat) (s : State) : Out :=
  .next (busWrite s (chanBase m + 0x20) fun s =>
    let s := handOver s m
    if (chan s m).state ≠ 4 then s else modChan s m fun c => { c with state := 0, shd := noShadow, armed := false })

/-- RING_CFG_WRITE: CR_BASE or word 0x08 of ring r of die d. -/
def execRingCfgWrite (d r ofs : Nat) (v : Word) (s : State) : Out :=
  .next (busWrite s (moverBase d + 0x2000 + 0x20 * r + ofs) fun s =>
    let user := (List.range 32).find? fun c =>
      let x := chan s (32 * d + c)
      1 ≤ x.state && x.state ≤ 3 && mRing x.act == r
    if 3 < r || (ofs ≠ 0 && ofs ≠ 4 && ofs ≠ 8) then s
    else match user with
      | some c => moverEvent s d c 5
      | none => modMring s d r fun x =>
        let x := { x with wr := 0, rd := 0, rseq := 0 }
        match ofs with
        | 0 => { x with baseLo := v &&& 0xFFFFF000#32 }
        | 4 => { x with baseHi := v }
        | _ => { x with cfg := v &&& 0x3FFFF#32 })

/-- The records a ring has room for (R324): none while it is disabled. -/
def ringRoom (r : MRing) : Nat := if ringOn r then 2 ^ bits r.cfg.toNat 4 0 else 0

/-- CR_RD_WRITE: ignored where CR_WR - CR_RD, mod 2^17, would come out above the ring's capacity: more records than it can hold, or
CR_RD moved past CR_WR (DEDUCED, log entry 150). -/
def execCrRdWrite (d r : Nat) (v : BitVec 17) (s : State) : Out :=
  .next (busWrite s (moverBase d + 0x2000 + 0x20 * r + 0x10) fun s =>
    let x := mring s d r
    if 3 < r || ringRoom x < (x.wr + 131072 - v.toNat) % 131072 then s else modMring s d r fun x => { x with rd := v.toNat })

/-! ### Read bursts (R314, R315, R317) -/

/-- The next read burst of a channel: its address and length; none where it may issue none. -/
def nextBurst (c : Chan) : Option (Nat × Nat) :=
  let x := c.x
  let sg := mSg c.act false
  let left := min (c.act.count - x.read) (if sg then x.src.len - x.src.ofs else c.act.count)
  let a := if sg then x.src.addr + x.src.ofs else if mFix c.act false then c.act.src else c.act.src + x.read
  let n := min (mBurst c.act) left
  let n := if mSp c.act false = 0 ∧ !(mFix c.act false) then min n (4096 - a % 4096) else n
  let inUse := (x.flight.map (·.2.1)).sum + x.hold.length
  if c.state ≠ 1 || x.ending.isSome || n = 0 || 8192 < inUse + n then none else some (a, n)

/-- The CORE cycle from which a channel's credit allows n bytes. -/
def creditCycle (c : Chan) (n : Nat) : Nat :=
  let need := 8 * n - c.allow
  c.allowAt + (need + mShare c.act) / (mShare c.act + 1)

/-- Line time runs on to the start of a CORE cycle. -/
def atCore (s : State) (cyc : Nat) : State :=
  { s with time := { s.time with units := max s.time.units ((cyc * 5 * 2 ^ 41 + 3) / 4) } }

/-- Credit of n bytes charged to channel m at the first cycle that allows it. -/
def chargeBurst (s : State) (m n : Nat) : State :=
  let c := chan s m
  let cyc := max (coreCycle s) (creditCycle c n)
  modChan (atCore s cyc) m fun c => { c with allow := allowAt c cyc - 8 * n, allowAt := cyc }

/-- MOVER_BURST_ISSUE: the read engine of die d serves, among the channels with a burst to issue, the one whose credit allows it
first; of those that credit allows at once, the next one round robin. -/
def execMoverBurstIssue (d : Nat) (s : State) : Out :=
  let now := coreCycle s
  let ready := (List.range 32).filterMap fun i =>
    let l := ((mdie s d).lastServed + 1 + i) % 32
    let c := chan s (32 * d + l)
    (nextBurst c).map fun b => (max now (creditCycle c b.2), l, b)
  .next (
    if !(clocksRun s) || !(dieRuns s d) then s
    else match ready with
      | [] => s
      | x :: r =>
        let y := r.foldl (fun a z => if z.1 < a.1 then z else a) x
        let m := 32 * d + y.2.1
        let a := y.2.2.1
        let n := y.2.2.2
        let c := chan s m
        if spaceSize s d (mSp c.act false) < a + (if mFix c.act false then mW c.act false else n) then
          settleXfer (modChan s m fun c => { c with x := { c.x with ending := worse c.x.ending 3 } }) m
        else
          let s := chargeBurst s m n
          let s := { s with mdies := s.mdies.put d { mdie s d with lastServed := y.2.1 } {} }
          stepLists (modChan s m fun c => { c with x := { c.x with
            read := c.x.read + n, flight := c.x.flight ++ [(a, n, 0)],
            src := if mSg c.act false then { c.x.src with ofs := c.x.src.ofs + n } else c.x.src } }) m)

/-- The bytes a burst brings: those of DDR4, or those the host answers. -/
def burstBytes (s : State) (m a n : Nat) (data : List Byte) : List Byte :=
  let c := (chan s m).act
  let d := dieOfMover m
  let w := mW c false
  if mSp c false = 0 then data.take n
  else if mFix c false then (List.range (n / w)).flatMap fun _ => ddrRead s (spaceDie d (mSp c false)) a w
  else ddrRead s (spaceDie d (mSp c false)) a n

/-- A failed access: tried again up to RETRY times, which used is the count, else what its failure brings. -/
def retried (s : State) (m used : Nat) (again fail : State → State) : State :=
  if used < mRetry (chan s m).act then
    again (countMover (modChan s m fun c => { c with x := { c.x with retries := c.x.retries + 1 } }) (dieOfMover m) (m % 32) 0x2110 1)
  else fail s

/-- MOVER_BURST_COMPLETE: the oldest burst in flight of channel m completes, or fails. -/
def execMoverBurstComplete (m : Nat) (ok : Bool) (data : List Byte) (s : State) : Out :=
  let c := chan s m
  let d := dieOfMover m
  .next (match c.x.flight with
    | [] => s
    | (a, n, t) :: r =>
      if !(clocksRun s) || !(dieRuns s d) then s
      else
        let b := burstBytes s m a n data
        if !ok || !(spaceUp s d (mSp c.act false)) || b.length < n then
          retried s m t
            (fun s => chargeBurst (modChan s m fun c => { c with x := { c.x with flight := (a, n, t + 1) :: r } }) m n)
            (fun s => settleXfer (modChan s m fun c => { c with x := { c.x with ending := worse c.x.ending 2, flight := [] } }) m)
        else settleXfer (modChan s m fun c => { c with x := { c.x with flight := r, hold := c.x.hold ++ b } }) m)

/-! ### Fetching entries (R316) -/

/-- Whether a side of a channel fetches its next entry: while fewer than four lie ahead. -/
def needsEntry (c : Chan) (dst : Bool) : Bool :=
  let y := if dst then c.x.dst else c.x.src
  c.state == 1 && mSg c.act dst && !y.done && decide (y.ahead.length < 4) &&
    (if dst then c.x.written < c.act.count else c.x.read < c.act.count && c.x.ending.isNone)

/-- Whether an entry breaks a rule of R316. -/
def entryBad (s : State) (m : Nat) (dst : Bool) (y : SgSide) (e : List Word) : Bool :=
  let c := (chan s m).act
  let w := mW c dst
  let a := prm e 0 + prm e 1 * 2 ^ 32
  let link := bit (prm e 3) 1
  y.idx == 65536 || (link && bit (prm e 3) 0) || fld e 3 31 2 != 0 ||
    (if link then a % 16 != 0
     else a % w != 0 || prm e 2 % w != 0 || (prm e 2 != 0 && spaceFit s (dieOfMover m) (mSp c dst) < a + prm e 2))

/-- A side that has fetched entry e: followed if it is a link, else ahead. -/
def takeEntry (y : SgSide) (e : List Word) : SgSide :=
  let a := prm e 0 + prm e 1 * 2 ^ 32
  let y := { y with idx := y.idx + 1, tries := 0 }
  if bit (prm e 3) 1 then { y with next := a }
  else { y with
    next := y.next + 16, done := bit (prm e 3) 0
    ahead := y.ahead ++ [{ idx := y.idx - 1, addr := a, len := prm e 2, last := bit (prm e 3) 0 }] }

/-- A side whose next entry cannot be used, and brings ending err once the entries before it are used up. -/
def failEntry (y : SgSide) (err : Nat) : SgSide := { y with done := true, ahead := y.ahead ++ [{ idx := y.idx, err := err }] }

/-- MOVER_LIST_FETCH: the next entry of a side arrives and is checked, or its fetch fails. An entry in DDR4 is the one that stands
there. -/
def execMoverListFetch (m : Nat) (dst ok : Bool) (entry : List Word) (s : State) : Out :=
  let c := chan s m
  let d := dieOfMover m
  let y := if dst then c.x.dst else c.x.src
  let sp := mSp c.act dst
  let put (s : State) (f : SgSide → SgSide) : State := modChan s m fun c => { c with x :=
    if dst then { c.x with dst := f c.x.dst } else { c.x with src := f c.x.src } }
  .next (
    if !(needsEntry c dst) || !(clocksRun s) || !(dieRuns s d) then s
    else if !ok || !(spaceUp s d sp) || spaceSize s d sp < y.next + 16 then
      retried s m y.tries (fun s => put s fun y => { y with tries := y.tries + 1 })
        (fun s => settleXfer (put s fun y => failEntry y 2) m)
    else
      let e := if sp = 0 then entry else toWordsLe 4 (ddrRead s (spaceDie d sp) y.next 16)
      settleXfer (put s fun y => if entryBad s m dst y e then failEntry y 6 else takeEntry y e) m)

/-! ### Records (R318) -/

/-- The list entry and offset that hold stream position p; at the end of the stream the last entry used and its LEN. Where no good
entry holds p, the last good one and its LEN (DEDUCED, log entry 42). -/
def posIn (c : Chan) (dst : Bool) (p : Nat) : Nat × Nat :=
  let y := if dst then c.x.dst else c.x.src
  if !(mSg c.act dst) then (0, p)
  else
    let l := if p = c.act.count then y.used.filter fun z => z.1 < p else y.used
    match l.find? fun z => z.1 ≤ p with
    | none => (0, 0)
    | some z => (z.2.1, if p = c.act.count then z.2.2 else min z.2.2 (p - z.1))

/-- A completion record of channel m. -/
def recordWords (s : State) (m e : Nat) : List Word :=
  let c := chan s m
  let x := c.x
  let r := mring s (dieOfMover m) (mRing c.act)
  let a := posIn c false x.written
  let b := posIn c true x.written
  [wd (m + 64 * b2n x.fromShadow + 128 * b2n x.dropped + 256 * e + 4096 * min 15 x.retries + 65536 * c.act.tag),
   wd (c.act.count - x.written), wd (a.1 + 65536 * b.1), wd a.2, wd b.2, wd (shortNs s), wd (nowFrac s), wd r.rseq]

/-- MOVER_RECORD_WRITE: the record of an ended transfer, its message, and ABORT_DONE; RING_FULL once while the ring is full. While
the endpoint carries no mover traffic, a record for a host ring waits and no message is sent (DESIGN CHOICE, log entry 149). -/
def execMoverRecordWrite (m : Nat) (s : State) : Out :=
  let c := chan s m
  let d := dieOfMover m
  let r := mring s d (mRing c.act)
  .next (match c.x.ending with
    | none => s
    | some e =>
      if c.state ≠ 3 || c.handover || !(clocksRun s) || !(dieRuns s d) then s
      else if ringFull r then
        if c.x.fullRaised then s
        else moverEvent (modChan s m fun c => { c with x := { c.x with fullRaised := true } }) d (m % 32) 2
      else if !(spaceOpen s d (bits r.cfg.toNat 6 5)) then s
      else
        let a := r.baseLo.toNat + r.baseHi.toNat * 2 ^ 32 + 32 * (r.wr % 2 ^ bits r.cfg.toNat 4 0)
        let told := (mIrq c.act || e != 0) && hostUp s d
        let s := putSpace s d (bits r.cfg.toNat 6 5) a (wordsLe (recordWords s m e))
        let s := modMring s d (mRing c.act) fun r => { r with wr := (r.wr + 1) % 131072, rseq := (r.rseq + 1) % 2 ^ 32 }
        let s := countMover s d (m % 32) 0x2118 1
        let s := if told then emit s (.msix (bits r.cfg.toNat 17 7)) else s
        let s := modChan s m fun c => { c with lastStatus := e, handover := true }
        if e = 1 then moverEvent s d (m % 32) 1 else s)

/-! ### Registers (R324 to R326) -/

/-- A word of a register set as read; GO reads 1 while it runs or is armed. -/
def setReadWord (c : MSet) (go : Bool) (ofs : Nat) : Nat :=
  match ofs with
  | 0x00 => c.src % 2 ^ 32
  | 0x04 => c.src / 2 ^ 32
  | 0x08 => c.dst % 2 ^ 32
  | 0x0C => c.dst / 2 ^ 32
  | 0x10 => c.count
  | 0x14 => c.ctrl.toNat + b2n go
  | 0x18 => c.tag
  | _ => 0

/-- The word at offset o of the mover block of die d. A read of a channel in its hand-over cycle acts on the state after it (R312). -/
def moverReg (s : State) (d o : Nat) : Nat :=
  if o < 0x2000 then
    let c := chan (handOver s (32 * d + o / 0x100)) (32 * d + o / 0x100)
    let q := o % 0x100
    if q < 0x20 then setReadWord c.act (1 ≤ c.state && c.state ≤ 3) q
    else if q = 0x24 then c.state + 8 * b2n c.armed + 16 * c.lastStatus
    else if q = 0x28 then c.x.written
    else if 0x40 ≤ q && q < 0x5C then setReadWord c.shd c.armed (q - 0x40)
    else 0
  else if o < 0x2080 then
    let r := mring s d ((o - 0x2000) / 0x20)
    match o % 0x20 with
    | 0x00 => r.baseLo.toNat
    | 0x04 => r.baseHi.toNat
    | 0x08 => r.cfg.toNat
    | 0x0C => r.wr
    | 0x10 => r.rd
    | 0x14 => r.rseq
    | _ => 0
  else match o with
    | 0x2108 => (mdie s d).lastCh + 256 * (mdie s d).lastKind
    | 0x210C => (((List.range 32).filter fun i => (chan s (32 * d + i)).state != 0).map (2 ^ ·)).sum
    | o => reg s (moverBase d + o)

end Sys2Proof.Machine
end

