-- ==== Sys2Proof/Machine/Kept.lean ====
section
/-! DEFINITION. What resets and low-power states reach and what survives them (R8 to R11, R364, R370): Kept codes, scopes, the
registers, the objects of a port. -/

namespace Sys2Proof.Machine

/-! ### Kept codes (R8 to R11) -/

/-- The code a reset needs in a Kept entry, as a bit of W 1, K 2, D 4, G 8, T 16; Z 32 for a low-power state. -/
def keptBit (low : Bool) (k : ResetKind) : Nat :=
  if low then 32
  else match k with
    | .port _ => 16 | .region _ => 8 | .die _ => 4 | .pkg => 2 | .pin => 1 | .por => 0 | .standby => 32

/-- Whether an entry of Kept mask m survives. -/
def survives (low : Bool) (k : ResetKind) (m : Nat) : Bool := (m &&& keptBit low k) != 0

/-- Whether a scope covers a port, a region, a die, the package. -/
def coversPort (k : ResetKind) (p : Nat) : Bool :=
  match k with
  | .port q => q == p
  | .region r => p < 512 && p / 64 == r
  | .die d => dieOfPort p == d
  | _ => true

def coversRegion (k : ResetKind) (r : Nat) : Bool :=
  match k with | .port _ => false | .region q => q == r | .die d => r / 4 == d | _ => true

def coversDie (k : ResetKind) (d : Nat) : Bool :=
  match k with | .port _ | .region _ => false | .die e => e == d | _ => true

def coversPkg (k : ResetKind) : Bool :=
  match k with | .port _ | .region _ | .die _ => false | _ => true

/-- Kept of the event registers, EVENT_EN registers and counters of a block. -/
def blkKept (b : Blk) : Nat :=
  match b with
  | .port _ _ => 32
  | .traj _ _ => 48
  | .flow _ _ => 56
  | .tm _ _ | .mover _ _ | .ddr _ _ | .bridge _ _ => 24
  | .dstat _ _ | .dcoll _ _ | .rstat _ _ | .coll _ _ => 62
  | .pkg 3 _ => 62
  | .pkg 7 _ => 24
  | .pkg 9 _ => 56
  | .pkg 10 o => if o < 0x800 then 56 else 60
  | .pkg _ _ => 60
  | .die _ | .region _ | .reserved => 62

/-- Whether a scope covers a block. The FIFO and observation blocks are die 0's, a Hyith link block its uplink's die's, for a
reset of that die (R297; DEDUCED, log entry 23). -/
def coversBlk (low : Bool) (k : ResetKind) (b : Blk) : Bool :=
  match b with
  | .port p _ => coversPort k p
  | .traj r _ | .rstat r _ | .region r => coversRegion k r
  | .coll c _ => coversRegion k (c / 4)
  | .flow d _ | .tm d _ | .dstat d _ | .dcoll d _ | .mover d _ | .ddr d _ | .bridge d _ | .die d => coversDie k d
  | .pkg 7 _ => coversDie k 0
  | .pkg 9 _ => if low then coversPkg k else coversDie k 0
  | .pkg 10 o => if o < 0x800 && !low then coversDie k (o / 0x400) else coversPkg k
  | .pkg _ _ => coversPkg k
  | .reserved => coversPkg k

/-- The registers of the register file that a reset or state clears (R8, R370). -/
def clearRegs (low : Bool) (k : ResetKind) (s : State) : State :=
  let gone (a : Nat) : Bool := coversBlk low k (blkOf a) && !(survives low k (blkKept (blkOf a)))
  { s with regs := s.regs.drop gone, hiLatch := s.hiLatch.drop gone }

/-! ### The objects of a port -/

/-- Shapers, meter buckets and deficits of a port's queues and services as after a reset: full (R224). -/
def freshShapers (s : State) (p : Nat) : State :=
  let q := curQ s
  let s := (queuesOf s p).foldl (fun s i =>
    { s with traffic := { s.traffic with
      qdyn := s.traffic.qdyn.put i { b := freshB true (qcfg s i).burst q } {} } }) s
  let s := (List.range 8).foldl (fun s k =>
    let c := svc s p k
    { s with traffic := { s.traffic with
      svcDyn := s.traffic.svcDyn.put (8 * p + k)
        { b := freshB true c.burst q, tc := freshB true c.cbs q, tp := freshB true c.pbs q } {} } }) s
  modPort s p fun x => { x with shapeB := freshB true x.shape.burst q }

/-- The copies a port has taken from its queues and not finished sending are discarded; they count in DROP_FULL (R224). -/
def releaseTx (s : State) (p : Nat) : State :=
  let x := (port s p).txd
  let r (s : State) (f : Option Tx) : State :=
    match f with
    | some f => match f.copy with
      | some c => dropAt (releaseFrame s c.2) p (qcfg s c.1).service 0x508 1
      | none => s
    | none => s
  r (r s x.tx) x.pend

/-- The frames held for a port discarded, its shapers anew. -/
def clearQueues (s : State) (p : Nat) : State :=
  freshShapers (releaseTx ((queuesOf s p).foldl discardQueue s) p) p

/-- What a port unit keeps of its own objects through a reset or state of kind k that covers it. Course and valve tables,
in-status and ingress settings lie in the die's scope, a port shaper in the region's (R95, R147, R224; ingress and preemption
settings DEDUCED, log entry 24). -/
def keptPort (low : Bool) (k : ResetKind) (p : Nat) (x : Port) : Port :=
  let v (m : Nat) : Bool := survives low k m
  let die := coversDie k (dieOfPort p)
  let reg := if p < 512 then coversRegion k (p / 64) else die
  { set := if v 56 then x.set else {}
    time := if v 56 then x.time else {}
    ptp := if v 56 then x.ptp else {}
    ident := if v 56 then x.ident else {}
    link := x.link
    vset := if die && !(v 24) then {} else x.vset
    list0 := if die && !(v 24) then {} else x.list0
    list1 := if die && !(v 24) then {} else x.list1
    valve := {}
    pre := { cfg := if v 24 then x.pre.cfg else ({} : Preempt).cfg }
    ccfg := if die && !(v 24) then {} else x.ccfg
    course := if v 32 then x.course else {}
    inStat := if low && !die then x.inStat else {}
    inFrame := none
    ring := if v 32 then x.ring else {}
    shape := if reg && !(v 24) then {} else x.shape
    shapeB := x.shapeB
    ing := if die && !(v 24) then {} else x.ing
    txd := if v 32 then { xoff := x.txd.xoff, refresh := x.txd.refresh } else {} }

/-- A cut-through frame faulted on port e: CT_STOMP or CT_TRUNC at o, and CT_ERROR (R172). -/
def ctError (s : State) (e o : Nat) : State := raisePort (countPort s e o 1) e 0x408 64

/-- L charged to a queue's, its service's and its port's shapers that are on (R208). -/
def charge (s : State) (p k q len : Nat) : State :=
  let l : Int := len * 256
  let take (b : Bucket) : Bucket := { b with tokens := b.tokens - l }
  let s := if (qcfg s q).shape then setQdyn s q { qdyn s q with b := take (qdyn s q).b } else s
  let s := if (svc s p k).on then setSvcDyn s p k { svcDyn s p k with b := take (svcDyn s p k).b } else s
  modPort s p fun x => if x.shape.on then { x with shapeB := take x.shapeB } else x

/-- The bytes of a cut-through frame that have left by now: those that its line has carried after the preamble. -/
def cutSent (s : State) (p : Nat) (f : Tx) : Nat :=
  min f.lim ((now16 s * 100 - f.t16 * 100) / lineQ p (port s p) - 8)

/-- A cut-through frame still arriving on port p ends on its egress ports with it, and what it has sent is charged (R216; DESIGN CHOICE,
log entry 30). -/
def abortCut (s : State) (p : Nat) : State :=
  match (port s p).txd.cutIn with
  | none => s
  | some c => c.cuts.foldl (fun s x =>
      let e := x.2.1
      let s := modPort s e fun y => { y with txd := { y.txd with ended := y.txd.ended.filter fun f => f.key != c.key } }
      match (port s e).txd.tx with
      | some f =>
        if f.now = 0 ∧ f.cutThrough = some x.1 then
          ctError (modPort (charge s e (qcfg s x.1).service x.1 (cutSent s e f)) e fun y => { y with txd := { y.txd with tx := none } })
            e 0x430
        else s
      | none => s) (c.stores.foldl (fun s q => unwait s q.1 (2 * c.key + dieOfQueue q.1)) s)

/-- Port p cleared: held frames, then services and shapers, then its own objects. -/
def clearPort (low : Bool) (k : ResetKind) (s : State) (p : Nat) : State :=
  let s := clearQueues (abortCut s p) p
  let reg := if p < 512 then coversRegion k (p / 64) else coversDie k (dieOfPort p)
  let s := if reg && !(survives low k 24) then
      { s with traffic := { s.traffic with svc := s.traffic.svc.drop fun i => i / 8 == p } }
    else s
  freshShapers (modPort s p (keptPort low k p)) p

end Sys2Proof.Machine
end

