-- ==== Sys2Proof/Machine/Ports.lean ====
section
/-! DEFINITION. Drive ports, uplinks, lanes and DDR4 channels: commands and events (R228 to R250, R413, R414, R429). -/

namespace Sys2Proof.Machine

/-! ### Registers of a port block (R249, R250) -/

/-- A port's view of its uplink fields: SPEED and MGMT_CLASS read zero on an uplink. -/
def portWord0 (p : Nat) (x : Port) : Nat := x.set.w0.toNat &&& (if isUplink p then 0xFFFFE3F3 else 0xFFFFFFFF)

/-- Register 0x020. -/
def linkWord (x : Port) : Nat :=
  b2n x.link.up + 2 * x.link.speed + 16 * b2n x.link.localFault + 32 * b2n x.link.remoteFault + 64 * b2n x.link.sleeping

/-- Register 0x030. -/
def laneWord (l : Lane) : Nat := b2n l.lock + 2 * b2n l.off + 4 * b2n l.recal.isSome + 8 * b2n l.adaptEn

/-- PAUSED of register 0x580: the classes whose pause timer runs and that are not exempt (R239). -/
def pausedMask (s : State) (x : Port) : Nat :=
  ((List.range 8).filter fun c => !(bit (pExempt x) c) && now16 s < (x.txd.pauses.look c {}).until_).foldl
    (fun a c => a + 2 ^ c) 0

/-- The word at offset o of the block of port p: settings, live fields, then the register file. -/
def portReg (s : State) (p o : Nat) : Nat :=
  let x := port s p
  let l := lane s (laneOf p)
  match o with
  | 0x000 => portWord0 p x
  | 0x004 => x.set.w1.toNat
  | 0x008 => x.set.w2.toNat
  | 0x00C => x.set.w3.toNat
  | 0x010 => x.set.macLo.toNat
  | 0x014 => x.set.macHi.toNat
  | 0x020 => linkWord x
  | 0x030 => laneWord l
  | 0x034 => l.latRx.toNat
  | 0x038 => l.latTx.toNat
  | 0x320 => x.ident.w0.toNat
  | 0x324 => x.ident.dflt
  | 0x400 => valveStatus s p
  | 0x404 => preemptStatus s p
  | 0x414 => x.valve.vct
  | 0x580 => pausedMask s x + 256 * x.txd.xoff
  | 0x584 => if x.ing.mode = 1 then account s p 0 else 0
  | 0x600 => if p < 512 then courseStatus s p else 0
  | 0x604 => if p < 512 then seqNow s p else 0
  | 0xC00 => x.ring.head
  | 0xC04 => x.ring.tail
  | 0xC0C => x.ring.pending
  | o =>
    if 0x800 ≤ o ∧ o < 0xC00 then
      let r := x.ring.recs.look ((o - 0x800) / 16) {}
      (match o % 16 with | 0 => r.w0 | 4 => r.w1 | 8 => r.w2 | _ => r.w3).toNat
    else if 0x620 ≤ o ∧ o ≤ 0x660 ∧ own s p ≠ p then 0
    else if 0x5A0 ≤ o ∧ o < 0x5C0 then (if x.ing.mode = 2 then account s p ((o - 0x5A0) / 4) else 0) else reg s (portBase p + o)

/-- Whether a port block holds a counter at offset o (R250 and the other chapters' counters). -/
def isCounter (o : Nat) : Bool :=
  (0x100 ≤ o && o ≤ 0x15C) || (0x180 ≤ o && o ≤ 0x1C4) || (0x300 ≤ o && o ≤ 0x310) || (0x420 ≤ o && o ≤ 0x44C) ||
    (0x500 ≤ o && o < 0x580) || o == 0x590 || o == 0x594 || (0x620 ≤ o && o ≤ 0x660) || o == 0xC08

/-- The words a clear of the counter at o zeroes: both words of a 64-bit counter. -/
def counterWords (o : Nat) : List Nat :=
  if o = 0x100 ∨ o = 0x104 then [0x100, 0x104] else if o = 0x180 ∨ o = 0x184 then [0x180, 0x184]
  else if isCounter o then [o] else []

/-- PORT_QUERY. -/
def bodyPortQuery (h : CmdHdr) (_ : List Word) (s : State) : State × Reply :=
  (s, .ok ((List.range 15).map fun i => wd (portReg s h.port (4 * i))))

/-- PORT_COUNT_READ; CLEAR zeroes the named counters (R237). -/
def bodyPortCountRead (h : CmdHdr) (w : List Word) (s : State) : State × Reply :=
  let o := prm w 1
  let n := prm w 2
  if fld w 0 31 1 ≠ 0 then (s, .err stInvalid 1)
  else if o % 4 ≠ 0 ∨ 0x1000 ≤ o then (s, .err stInvalid 2)
  else if n = 0 ∨ 128 < n ∨ 0x1000 < o + 4 * n then (s, .err stInvalid 3)
  else
    let os := (List.range n).map fun i => o + 4 * i
    let r := os.map fun x => wd (portReg s h.port x)
    let s1 := if bit (prm w 0) 0 then
        (os.flatMap counterWords).foldl (fun s x => setReg s (portBase h.port + x) 0) s
      else s
    (s1, .ok r)

/-! ### PORT_SET (R233, R239, R242, R245) -/

/-- The reserved bits of words 0x000 to 0x014. -/
def portRsv (i : Nat) : Nat :=
  match i with
  | 0 => 0xFFFFE000 | 1 => 0xFFFFC000 | 2 => 0xFFFF8000 | 3 => 0xFFFC0000 | 5 => 0xFFFF0000 | _ => 0

/-- The settings a PORT_SET leaves: the words its mask names, SPEED and MGMT_CLASS of an uplink unwritten (R249). -/
def portSetNew (p : Nat) (w : List Word) (o : PortSet) : PortSet :=
  let g (i : Nat) (v : Word) : Word := if bit (prm w 0) i then w.getD (i + 1) 0 else v
  let w0 := g 0 o.w0
  { w0 := if isUplink p then (w0 &&& 0xFFFFE3F3#32) ||| (o.w0 &&& 0x00001C0C#32) else w0
    w1 := g 1 o.w1
    w2 := g 2 o.w2
    w3 := g 3 o.w3
    macLo := g 4 o.macLo
    macHi := g 5 o.macHi }

/-- Whether a FEC code is allowed for an uplink mode (R231). -/
def fecOk (mode fec : Nat) : Bool :=
  match mode with | 0 => fec ≤ 2 | 1 => fec ≤ 1 | 2 => fec == 0 || fec == 2 | _ => false

/-- The first word a PORT_SET breaks a rule in, as DETAIL: reserved bits, then the codes of the settings it leaves. An uplink in
Hyith mode takes no MGMT 0b0 (R273). -/
def portSetBad (p : Nat) (w : List Word) (n : PortSet) : Option Nat :=
  let m := n.w0.toNat
  let mode := bits m 1 0
  if fld w 0 31 6 ≠ 0 then some 1
  else match (List.range 6).find? fun i => (prm w (i + 1) &&& portRsv i) != 0 with
    | some i => some (i + 2)
    | none =>
      if mode = 3 ∨ bits m 8 7 = 3 then some 2
      else if ¬ isUplink p ∧ (bits m 3 2 = 3 ∨ bits m 5 4 ≠ 0) then some 2
      else if isUplink p ∧ (!(fecOk mode (bits m 5 4)) ∨ (mode = 2 ∧ !(bit m 6))) then some 2
      else if bits n.w1.toNat 13 0 < 1522 ∨ 9216 < bits n.w1.toNat 13 0 then some 3
      else if 1000 < bits n.w3.toNat 17 8 then some 5
      else none

/-- Whether a port is the uplink of the current time source (R50). -/
def isTimeUplink (s : State) (p : Nat) : Bool :=
  isUplink p && 1 ≤ s.time.source && s.time.source ≤ 3 && s.time.srcIdx == p - 512

/-- The pauses of a port whose PAUSE_EXEMPT has changed from x's: a class made exempt is no longer paused, one made non-exempt while
its timer runs is paused from t on (R239, R242). -/
def exemptPauses (x y : Port) (t : Nat) : Tbl Pause :=
  (keys x.txd.pauses).foldl (fun b c =>
    let z := b.look c {}
    if bit (pExempt y) c then b.put c { z with since := none } {}
    else if bit (pExempt x) c && t < z.until_ then b.put c { z with since := some t } {}
    else b) x.txd.pauses

/-- New settings of a port: frames that have begun to arrive keep the old ones, which no frame needs 8 ms later (R245). -/
def putSettings (s : State) (p : Nat) (n : PortSet) : State :=
  let t := now16 s
  modPort s p fun x =>
    let y := { x with
      set := n
      oldSets := (t, x.set) :: x.oldSets.filter fun e => t < e.1 + 8000000 * 65536 }
    { y with txd := { y.txd with pauses := exemptPauses x y t } }

/-- PORT_SET: live fields at once; a change of MODE, SPEED, FEC or ADMIN restarts the sub-channel or PCS. -/
def bodyPortSet (h : CmdHdr) (w : List Word) (s : State) : State × Reply :=
  let p := h.port
  let x := port s p
  let n := portSetNew p w x.set
  match portSetBad p w n with
  | some d => (s, .err stInvalid d)
  | none =>
    let restart := (n.w0.toNat ^^^ x.set.w0.toNat) &&& 0x23F != 0
    if restart && ((courseOf s p).state != 0 || isTimeUplink s p) then (s, .err stWrongState)
    else
      let s1 := putSettings s p n
      if restart then
        (modPort (setLink s1 p false 0) p fun x =>
          { x with link := { x.link with restart := true, phySpeed := none, phyUp := false } }, .ok)
      else (s1, .ok)

/-- PCS_RESTART_DONE: the sub-channel or PCS runs again (R245). -/
def execPcsRestartDone (p : Nat) (s : State) : Out :=
  .next (if hasPort s p then modPort s p fun x => { x with link := { x.link with restart := false } } else s)

/-! ### SLEEP (R244) -/

/-- A refused park or sleep: PARK_REFUSED with its target and reason (R373). -/
def parkRefused (s : State) (target reason p : Nat) : State :=
  raise { s with power := { s.power with lastTarget := target, lastReason := reason, lastPort := p } } 0x2000C 2

/-- The region or die of a port, as LAST_TARGET numbers it. -/
def targetOf (p : Nat) : Nat := if p < 512 then p / 64 else 8 + dieOfPort p

/-- SLEEP of a port whose line has nothing left to finish: the link goes down, the port's objects are cleared, and a lane whose ports
all sleep powers off. -/
def sleepEnd (s : State) (p : Nat) : State :=
  let x := port s p
  if !x.link.sleeping || x.txd.tx.isSome || x.txd.pend.isSome then s
  else
    let s := clearPort true (.port p) (setLink s p false 0) p
    let s := modPort s p fun x => { x with link := { x.link with phySpeed := none, phyUp := false } }
    let q := laneOf p
    if (lanePorts q).all fun i => (port s i).link.sleeping && !(port s i).link.up then
      modLane s q fun l => { l with off := true, lock := false, recal := none, retry := false }
    else s

/-- A sleeping port whose link is down finishes nothing: what it was sending is discarded and SLEEP is entered. -/
def sleepDown (s : State) (p : Nat) : State :=
  if (port s p).link.sleeping && !(port s p).link.up then
    sleepEnd (modPort (releaseTx s p) p fun x => { x with txd := { x.txd with tx := none, pend := none } }) p
  else s

/-! ### The link (R228 to R232, R429) -/

/-- LOCAL_FAULT and REMOTE_FAULT of an uplink whose link is down: its own receiver's, or one that the other end signals (R228). -/
def faultSeen (s : State) (p : Nat) (remote : Bool) : State :=
  modPort s p fun x => { x with
    link := { x.link with localFault := isUplink p && !remote, remoteFault := isUplink p && remote } }

/-- LINK_STATE_CHANGE: sync or block lock with no fault, gained or lost. An uplink that loses it otherwise than by a remote fault has lost
block lock (R249). In MODE 0 the link comes up by control words only. -/
def execLinkStateChange (p : Nat) (up remote : Bool) (s : State) : Out :=
  .next (
    if !(hasPort s p) then s
    else if !up then
      let s := if isUplink p && !remote then modLane s (laneOf p) fun l => { l with lock := false } else s
      sleepDown (faultSeen (setLink (modPort s p fun x => { x with link := { x.link with phyUp := false } }) p false 0) p remote) p
    else if !(canLink s p) then s
    else
      let s := modLane s (laneOf p) fun l => { l with lock := true }
      let s := modPort s p fun x => { x with link := { x.link with phyUp := true } }
      if p < 512 ∧ pMode (port s p) = 0 then s
      else setLink s p true (plannedSpeed p (port s p)))

/-- IN_BAND_CONTROL_WORD: the PHY's speed (0 to 2), duplex and link in MODE 0 (R229, R230, R429). Half duplex, or a speed other
than SPEED while course or valve is not OFF, holds the link down. -/
def execInBandControlWord (p speed : Nat) (fullDuplex link : Bool) (s : State) : Out :=
  .next (
    if 512 ≤ p || pMode (port s p) != 0 || 3 ≤ speed || !(canLink s p) then s
    else
      let s := modPort s p fun x =>
        { x with link := { x.link with phySpeed := some speed, fullDuplex := fullDuplex, phyUp := link } }
      sleepDown (controlLink (modLane s (laneOf p) fun l => { l with lock := true }) p) p)

/-- LANE_ALIGN_LOSS: a QSGMII lane loses alignment and its four ports go down (R16, R228). -/
def execLaneAlignLoss (q : Nat) (s : State) : Out :=
  .next (
    if 128 ≤ q || !(hasLane s q) then s
    else (lanePorts q).foldl
      (fun s p => sleepDown (setLink (modPort s p fun x => { x with link := { x.link with phyUp := false } }) p false 0) p)
      (modLane s q fun l => { l with lock := false }))

/-! ### PORT_SLEEP and PORT_WAKE (R244) -/

/-- PORT_SLEEP: the valve goes OFF and the held frames are discarded; a frame in transmission, one that has been cut among them, is
finished first. -/
def bodyPortSleep (h : CmdHdr) (_ : List Word) (s : State) : State × Reply :=
  let p := h.port
  if (courseOf s p).state ≠ 0 then (parkRefused s (targetOf p) 2 p, .err stRefused)
  else if (port s p).link.sleeping then (s, .ok)
  else
    let s1 := (queuesOf s p).foldl discardQueue s
    let s2 := modPort s1 p fun x =>
      { x with link := { x.link with sleeping := true }, valve := {}, txd := { x.txd with ctl := [], mac := none } }
    (sleepDown (sleepEnd (gateMove (holdNow s p) (gatesNow s p) s2 p) p) p, .ok)

/-- A full recalibration of a lane begun: every port of the lane goes down (R246). -/
def startFullRecal (s : State) (q : Nat) : State :=
  (lanePorts q).foldl (fun s p => setLink s p false 0)
    (modLane s q fun l => { l with recal := some 1, retry := false, recalAt := nowNs s, lock := false, off := false })

/-- PORT_WAKE: a lane that was powered off first runs a full recalibration. -/
def bodyPortWake (h : CmdHdr) (_ : List Word) (s : State) : State × Reply :=
  let p := h.port
  if !(port s p).link.sleeping then (s, .ok)
  else
    let off := (lane s (laneOf p)).off
    let s1 := modPort s p fun x => { x with link := { x.link with sleeping := false } }
    (if off then startFullRecal s1 (laneOf p) else s1, .ok)

/-! ### Lanes (R246, R413) -/

/-- LANE_SET. -/
def bodyLaneSet (h : CmdHdr) (w : List Word) (s : State) : State × Reply :=
  if fld w 0 31 1 ≠ 0 then (s, .err stInvalid 1)
  else if fld w 1 31 24 ≠ 0 ∨ 63 < fld w 1 7 0 ∨ 15 < fld w 1 15 8 ∨ 31 < fld w 1 23 16 then (s, .err stInvalid 2)
  else (modLane s (laneOf h.port) fun l => { l with adaptEn := bit (prm w 0) 0, xmit := some (w.getD 1 0) }, .ok)

/-- LANE_RECAL. Kind 0 on a lane that runs a full recalibration leaves that one to its end (DESIGN CHOICE, log entry 135). -/
def bodyLaneRecal (h : CmdHdr) (w : List Word) (s : State) : State × Reply :=
  let q := laneOf h.port
  if fld w 0 31 1 ≠ 0 then (s, .err stInvalid 1)
  else if bit (prm w 0) 0 then
    if (lanePorts q).any fun p => (courseOf s p).state != 0 then (s, .err stWrongState)
    else (startFullRecal s q, .ok)
  else (modLane s q fun l => { l with recal := if l.recal = some 1 then some 1 else some 0, retry := false }, .ok)

/-- A latency measured after a recalibration: a free value; after an adapt it differs by at most 0.5 ns (log entry 12). -/
def newLatency (kind : Nat) (old : Word) (n : Nat) : Word :=
  if kind = 1 ∨ old = 0 then Config.freeLatency n
  else wd (clamp 0 0xFFFFFFFF ((old.toNat : Int) + ((Config.freeLatency n).toNat % 65537 : Nat) - 32768)).toNat

/-- RECAL_DONE: the lane measures its latencies again, or a failed full recalibration waits for its retry. A full one leaves the lane
aligned; an adapt leaves its alignment as it was (R246, R249). -/
def execRecalDone (lane : Nat) (ok : Bool) (s : State) : Out :=
  let l := Machine.lane s lane
  .next (match (if hasLane s lane then l.recal else none) with
    | none => s
    | some k =>
      let m (n : Nat) : Lane := { l with recal := none, lock := l.lock || k == 1, latRx := newLatency k l.latRx n, latTx := newLatency k l.latTx (n + 1) }
      let s1 := if ok then useFree (useFree (modLane s lane fun _ => m s.free))
        else modLane s lane fun l => { l with recal := none, retry := k == 1 }
      (lanePorts lane).foldl (fun s p => raisePort s p 0x024 (if ok then 16 else 32)) s1)

/-- RECAL_RETRY: a failed full recalibration runs again 100 ms after it last began (DEDUCED, log entry 136). -/
def execRecalRetry (lane : Nat) (s : State) : Out :=
  let l := Machine.lane s lane
  .next (if l.retry && hasLane s lane then startFullRecal (atNs s (l.recalAt + 100000000)) lane else s)

/-! ### Received pause and PFC (R239 to R242) -/

/-- The pause timer of class c set at t (2^-16 ns) to n quanta; ignored in the watchdog's shadow. An exempt class is not paused by it
(R239). -/
def setPause (s : State) (p t c n : Nat) : State :=
  modPort s p fun x =>
    let z := x.txd.pauses.look c {}
    let z' : Pause :=
      if t < z.ignore then z
      else if n = 0 then { z with until_ := 0, since := none }
      else { z with
        until_ := t + pauseQ16 p x n
        since := if bit (pExempt x) c then none
          else match z.since with | some b => some (if z.until_ < t then t else b) | none => some t }
    { x with txd := { x.txd with pauses := x.txd.pauses.put c z' {} } }

/-- PAUSE_RECEIVE: the oldest pause that waits comes into force at t_p. -/
def execPauseReceive (p : Nat) (s : State) : Out :=
  .next (match (if hasPort s p then (port s p).txd.rxPause else []) with
    | [] => s
    | e :: r =>
      let s := at16 (modPort s p fun x => { x with txd := { x.txd with rxPause := r } }) e.1
      (List.range 8).foldl (fun s c => setPause s p e.1 c e.2) s)

/-- PFC_RECEIVE: the times of the enabled priorities (R241). PAUSE_EXEMPT bars PFC too (R239; DEDUCED, log entry 25). -/
def execPfcReceive (p : Nat) (s : State) : Out :=
  .next (match (if hasPort s p then (port s p).txd.rxPfc else []) with
    | [] => s
    | e :: r =>
      let s := at16 (modPort s p fun x => { x with txd := { x.txd with rxPfc := r } }) e.1
      (List.range 8).foldl (fun s c =>
        if !(bit (beAt e.2 0 2) c) then s else setPause s p e.1 c (beAt e.2 (2 + 2 * c) 2)) s)

/-- PAUSE_TIMER_EXPIRE: the class resumes. -/
def execPauseTimerExpire (p c : Nat) (s : State) : Out :=
  let z := (port s p).txd.pauses.look c {}
  .next (
    if z.until_ = 0 then s
    else modPort (at16 s z.until_) p fun x =>
      { x with txd := { x.txd with pauses := x.txd.pauses.put c { z with until_ := 0, since := none } {} } })

/-- PAUSE_WD: paused without a break for PAUSE_WD, the class resumes and ignores pause frames for as long again (R242). -/
def execPauseWd (p c : Nat) (s : State) : Out :=
  let x := port s p
  let z := x.txd.pauses.look c {}
  .next (match z.since with
    | none => s
    | some b =>
      let n := pPauseWd x * 1000000 * 65536
      if n = 0 ∨ z.until_ < b + n then s
      else
        let q := x.txd.pauses.put c { until_ := 0, since := none, ignore := b + n + n } {}
        let s1 := modPort (at16 s (b + n)) p fun x => { x with txd := { x.txd with pauses := q } }
        raisePort (countPort s1 p 0x1C0 1) p 0x024 4)

/-- PAUSE_REFRESH: half of PAUSE_TIME has elapsed with the account still above LO, and the pause is sent again (R222). -/
def execPauseRefresh (p c : Nat) (s : State) : Out :=
  let x := port s p
  let t := x.txd.refresh.look c 0
  .next (
    if t = 0 || !(bit x.txd.xoff c) then s
    else armRefresh (sendPause (at16 s t) p c x.ing.pauseTime) p c)

/-! ### DDR4 (R414, R425) -/

/-- A condition of a C source as it stands; its rise is an event of the source (R328). -/
def setCond (s : State) (l : FaultLoc) (i : Nat) (b : Bool) : State :=
  let f := faultSrc s l i
  if f.cond == b then s
  else
    let s1 := { s with faults := s.faults.put (srcKey l i) { f with cond := b } {} }
    if b then pendFault s1 l i else s1

/-- A condition that stands without being an event of its source. -/
def standCond (s : State) (l : FaultLoc) (i : Nat) (b : Bool) : State :=
  { s with faults := s.faults.put (srcKey l i) { faultSrc s l i with cond := b } {} }

/-- The channel of a die trained, which ends DDR_FAIL's condition (R328). -/
def trainDdr (s : State) (d : Nat) : State := standCond (modDdrChan s d fun c => { c with trained := true, resetN := true }) (.die d) 8 false

/-- DDR_ALERT: the command is retried; an alert that persists leaves the channel not responding (DDR_FAIL). -/
def execDdrAlert (d : Nat) (persists : Bool) (s : State) : Out :=
  let s1 := count s (dieBase d + 0x2000C) 1
  .next (if !(hasDie s d) then s else if persists then setCond (modDdrChan s1 d fun c => { c with trained := false }) (.die d) 8 true else s1)

/-- DDR_EVENTN: refresh at twice the rate while low. -/
def execDdrEventn (d : Nat) (low : Bool) (s : State) : Out :=
  .next (if hasDie s d then modDdrChan s d fun c => { c with hot := low } else s)

def execPortQuery (h : CmdHdr) (w : List Word) (s : State) : Out := .next (runCmd s h 0x0301 w bodyPortQuery)
def execPortSet (h : CmdHdr) (w : List Word) (s : State) : Out := .next (runCmd s h 0x0302 w bodyPortSet)
def execPortSleep (h : CmdHdr) (w : List Word) (s : State) : Out := .next (runCmd s h 0x0303 w bodyPortSleep)
def execPortWake (h : CmdHdr) (w : List Word) (s : State) : Out := .next (runCmd s h 0x0304 w bodyPortWake)
def execLaneSet (h : CmdHdr) (w : List Word) (s : State) : Out := .next (runCmd s h 0x0305 w bodyLaneSet)
def execLaneRecal (h : CmdHdr) (w : List Word) (s : State) : Out := .next (runCmd s h 0x0306 w bodyLaneRecal)
def execPortCountRead (h : CmdHdr) (w : List Word) (s : State) : Out := .next (runCmd s h 0x0307 w bodyPortCountRead)

end Sys2Proof.Machine
end

