-- ==== Sys2Proof/Machine/CourseFrame.lean ====
section
/-! DEFINITION. Outbound course frames: read instants, bricks and their checks, the bytes of a frame (R88 to R91, R97, R98, R103). -/

namespace Sys2Proof.Machine

/-- Words of 4 bytes each sent most significant byte first. -/
def swapWords : List Byte → List Byte
  | a :: b :: c :: d :: r => d :: c :: b :: a :: swapWords r
  | l => l

/-- The plane of a port's frames: plane B of a pair, and side B of a twin. -/
def planeBit (s : State) (p : Nat) : Bool :=
  (port s p).ccfg.plane == 2 || ((port s p).ccfg.plane == 3 && s.twin.sideB)

/-- The outbound frame f of bank k of port p, where it is in use: LAUNCH and N. -/
def outFrame (s : State) (p k f : Nat) : Option (Nat × Nat) := ((outFrames s p k).find? fun y => y.1 == f).map (·.2)

/-- The bank a build takes its frame from. -/
def buildBank (u : Build) : Nat := if u.safe then 2 else b2n u.bank

/-- The brick sizes of a built frame. -/
def buildSizes (u : Build) : List Nat := u.entries.map (if u.safe then sLen else eLen)

/-- The launch instant of a built frame, in ns. -/
def buildLaunch (u : Build) : Nat := u.b + u.desc.w3.toNat

/-- The launches of a frame that is built in bank k, over the planes of its course (R103). -/
def launchesOf (s : State) (o b k f : Nat) : List (Nat × Nat) :=
  (sides s o).filterMap fun q => (outFrame s q k f).map fun y => (q, b + y.1)

/-- R(j) of port p in 2^-16 ns, for a launch at ns l (R98). -/
def readAt (s : State) (p l pos : Nat) : Nat :=
  let x := port s p
  l * 65536 + lineQ p x * pos / 100 - x.time.egress.toNat - 120 * 65536

/-- The earliest read instant of a brick at pos over the planes of a course, from the launches its build fixed (R103). -/
def planeRead (s : State) (u : Build) (pos : Nat) : Nat := ((u.launches.map fun e => readAt s e.1 e.2 pos).min?).getD 0

/-- The check of a brick (R91). -/
def brickCheck (seq : Nat) (inb : Bool) (f j : Nat) (d : List Byte) : Nat :=
  crc16 (be 2 seq ++ [by8 (128 * b2n inb + f), by8 j] ++ d)

/-- The data of the bricks of a frame built as u, in wire order, as they stood at their read instants. -/
def brickData (s : State) (p : Nat) (u : Build) : List (List Byte) :=
  u.entries.zipIdx.map fun e =>
    let t := planeRead s u (posOf (buildSizes u) e.2)
    swapWords (
      if u.safe then (List.range (sLen e.1)).map fun i => safeAt s (own s p) t (sOfs e.1 + i)
      else imgAt s t false (eAxis e.1) (eOfs e.1) (eLen e.1))

/-- An outbound course frame with source address sa (R88 to R91). -/
def courseBytes (s : State) (p : Nat) (sa : List Byte) (f : Nat) (u : Build) : List Byte :=
  let d := u.desc
  let ds := brickData s p u
  let seq := u.n % 65536
  let hd := [by8 (0x10 + 4 * b2n (planeBit s p) + f), by8 (128 * b2n u.safe + 64 * b2n u.bank), by8 ds.length, 0] ++
    be 2 seq ++ be 2 (port s (own s p)).ccfg.id
  let tci := bits d.w1.toNat 30 28 * 8192 + bits d.w1.toNat 31 31 * 4096 + bits d.w1.toNat 27 16
  let br := ds.zipIdx.flatMap fun x => x.1 ++ be 2 (brickCheck seq false f x.2 x.1)
  let body := be 6 (dAddr d) ++ sa ++ be 2 0x8100 ++ be 2 tci ++ be 2 0x88B6 ++ hd ++ be 2 (crc16 hd) ++ br ++
    List.replicate (32 - br.length) 0
  body ++ fcs body

end Sys2Proof.Machine
end

