-- ==== Sys2Proof/Machine/Queue.lean ====
section
/-! DEFINITION. The commands of the queue group, the service order and what a port sends (R72, R157, R161, R164 to R166, R191,
R206 to R225, R243). -/

namespace Sys2Proof.Machine

/-! ### Contexts and registers (R206, R227) -/

/-- The eight words of a queue context. -/
def queueWords (s : State) (q : Nat) : List Word :=
  let c := qcfg s q
  let d := qdyn s q
  [wd (c.port + 2 ^ 10 * c.service + 2 ^ 13 * b2n c.en + 2 ^ 14 * b2n c.shape + 2 ^ 15 * b2n c.spill + 2 ^ 16 * c.weight),
    wd c.credit, wd c.burst, wd (uns 32 d.b.tokens), wd d.b.last, wd (d.deficit % 2 ^ 24), wd (qCells s q % 2 ^ 25),
    wd (qFrames s q + 65536 * c.limit)]

/-- The word at offset o of a die's traffic manager block. -/
def tmReg (s : State) (d o : Nat) : Nat :=
  match o with
  | 0x000 => resUsed s d
  | 0x004 => sharedUsed s d
  | 0x008 => spillUsed s d
  | 0x01C => s.traffic.lastQueue.look d 0
  | o => reg s (dieBase d + 0x9000 + o)

/-! ### Commands on queues (R207, R210, R211, R223) -/

/-- IDs of a command: the first word and its status that is wrong, IDs standing every k words from word 1 on. -/
def idsBad (n bitsN : Nat) (present : Nat → Bool) (dieOf : Nat → Nat) (h : CmdHdr) (w : List Word) (k : Nat) : Option Reply :=
  (List.range n).findSome? fun i =>
    let j := 1 + k * i
    let id := fld w j (bitsN - 1) 0
    if fld w j 23 bitsN ≠ 0 ∨ (k = 1 ∧ fld w j 31 24 ≠ 0) then some (.err stInvalid (j + 1))
    else if !(present id) then some (.err stAbsent (j + 1))
    else if dieOf id ≠ h.die then some (.err stWrongDie (j + 1))
    else none

/-- The reply of a count field that is wrong: 1 to 16 contexts, reserved bits of word 0 zero but for those of mask m. -/
def countBad (w : List Word) (m : Nat) : Option Reply :=
  let n := fld w 0 4 0
  if n = 0 ∨ 16 < n ∨ prm w 0 &&& (0xFFFFFFFF ^^^ (m ||| 31)) ≠ 0 then some (.err stInvalid 1) else none

/-- QUEUE_QUERY. -/
def bodyQueueQuery (h : CmdHdr) (w : List Word) (s : State) : State × Reply :=
  match (countBad w 0).orElse fun _ => idsBad (fld w 0 4 0) 18 (hasQueue s) dieOfQueue h w 1 with
  | some r => (s, r)
  | none => (s, .ok ((List.range (fld w 0 4 0)).flatMap fun i => queueWords s (fld w (1 + i) 17 0)))

/-- The queues a QUEUE_WRITE writes, with their settings. -/
def queuesOfCmd (w : List Word) : List (Nat × QCfg) :=
  (List.range (fld w 0 4 0)).map fun i =>
    let j := 1 + 5 * i
    let c := prm w (j + 1)
    (fld w j 17 0,
      { port := bits c 9 0, service := bits c 12 10, en := bit c 13, shape := bit c 14, spill := bit c 15,
        weight := bits c 23 16, credit := creditOf (fld w j 31 24 * 2 ^ 32 + prm w (j + 2)), burst := prm w (j + 3),
        limit := prm w (j + 4) })

/-- The first failing check of R223 of a QUEUE_WRITE, an absent port (R2) and a change of SPILL while a frame is spilled (R224) among
them. A rate whose CREDIT does not fit its field fails check 1 (DEDUCED, log entry 28). -/
def queueWriteBad (s : State) (w : List Word) : Option Reply :=
  let l := queuesOfCmd w
  let any (f : Nat → QCfg → Bool) : Bool := l.any fun x => f x.1 x.2
  let rsv := (List.range (fld w 0 4 0)).any fun i => fld w (2 + 5 * i) 31 24 != 0
  if rsv || any fun _ c => (520 ≤ c.port && c.port != 0x3FF) || c.weight == 0 || 2 ^ 24 ≤ c.burst || 65536 ≤ c.limit ||
      2 ^ 24 ≤ c.credit then some (.err stInvalid 1)
  else if let some x := l.zipIdx.find? fun x => x.1.2.port != 0x3FF && !(hasPort s x.1.2.port) then
    some (.err stAbsent (3 + 5 * x.2))
  else if any fun q c => c.port != 0x3FF && dieOfPort c.port != dieOfQueue q then some (.err stWrongDie 2)
  else if any fun q c =>
      let o := qcfg s q
      (c.port != o.port || c.service != o.service) && (o.en || qFrames s q != 0) then some (.err stWrongState 3)
  else if any fun _ c => c.shape && c.credit == 0 then some (.err stInvalid 4)
  else if any fun _ c => c.spill && c.port != 0x3FF && (svc s c.port c.service).sched then some (.err stInvalid 7)
  else if (l.any fun x => x.2.spill != (qcfg s x.1).spill && spillUsed s (dieOfQueue x.1) != 0) then some (.err stWrongState)
  else none

/-- A queue's settings written: a change of any resets its shaper and deficit (R210). -/
def writeQueue (fill : Bool) (s : State) (x : Nat × QCfg) : State :=
  if qcfg s x.1 = x.2 then s
  else
    let s := setQcfg s x.1 x.2
    setQdyn s x.1 { qdyn s x.1 with b := freshB fill x.2.burst (curQ s), deficit := 0, visited := false, owed := false }

def queueWriteOp : TxnOp where
  prep := fun h w s =>
    (((countBad w (2 ^ 31)).orElse fun _ =>
      if (List.range (fld w 0 4 0)).any fun i => fld w (1 + 5 * i) 23 18 != 0 then some (.err stInvalid 1) else none).orElse fun _ =>
        idsBad (fld w 0 4 0) 18 (hasQueue s) dieOfQueue h w 5).orElse fun _ => queueWriteBad s w
  apply := fun _ w _ s =>
    let l := queuesOfCmd w
    .ok { s := l.foldl (writeQueue (bit (prm w 0) 31)) s, undo := l.map fun x => .queue x.1 (qcfg s x.1) }
  report := fun _ w _ _ => if (queuesOfCmd w).any fun x => x.2.shape && x.2.burst == 0 then 8 else 0
  undo := fun _ w _ m s =>
    (m.undo.foldl (fun s u => match u with
      | .queue q c => writeQueue (bit (prm w 0) 31) s (q, c)
      | _ => s) s, 1)

/-- QUEUE_FLUSH. -/
def bodyQueueFlush (h : CmdHdr) (w : List Word) (s : State) : State × Reply :=
  match (countBad w 0).orElse fun _ => idsBad (fld w 0 4 0) 18 (hasQueue s) dieOfQueue h w 1 with
  | some r => (s, r)
  | none => ((List.range (fld w 0 4 0)).foldl (fun s i => flushQueue s (fld w (1 + i) 17 0)) s, .ok)

/-! ### Services, port shapers, buffers and accounts (R213, R217, R218, R221, R223) -/

/-- The settings a SERVICE_SET carries. -/
def svcOf (w : List Word) : SvcCfg :=
  { weighted := bit (prm w 0) 3, sweight := fld w 0 11 4, sched := bit (prm w 0) 12, meter := fld w 0 14 13,
    markDei := bit (prm w 0) 15, on := bit (prm w 0) 16, credit := creditOf (rtAt w 1), burst := prm w 3,
    cir := creditOf (rtAt w 4), pir := creditOf (rtAt w 6), cbs := prm w 8, pbs := prm w 9, maxG := prm w 10, maxY := prm w 11 }

/-- A service's settings written: a change resets its shaper, deficit and meter buckets (R210). -/
def writeSvc (fill : Bool) (s : State) (p k : Nat) (c : SvcCfg) : State :=
  if svc s p k = c then s
  else
    let q := curQ s
    let s := setSvc s p k c
    acctAll (setSvcDyn s p k { svcDyn s p k with
      b := freshB fill c.burst q, tc := freshB fill c.cbs q, tp := freshB fill c.pbs q, deficit := 0, visited := false })

def serviceSetOp : TxnOp where
  prep := fun h w s =>
    let c := svcOf w
    if fld w 0 30 17 ≠ 0 ∨ c.sweight = 0 ∨ c.meter = 3 ∨ fld w 1 31 8 ≠ 0 ∨ fld w 4 31 8 ≠ 0 ∨ fld w 6 31 8 ≠ 0 ∨
        2 ^ 24 ≤ c.burst ∨ 2 ^ 24 ≤ c.credit ∨ 2 ^ 24 ≤ c.cir ∨ 2 ^ 24 ≤ c.pir then some (.err stInvalid 1)
    else if c.on ∧ c.credit = 0 then some (.err stInvalid 4)
    else if c.meter ≠ 0 ∧ (c.pir < c.cir ∨ c.cir = 0 ∨ c.pir = 0 ∨ c.cbs = 0 ∨ c.pbs = 0) then some (.err stInvalid 5)
    else if c.maxY ≠ 0 ∧ c.maxG ≠ 0 ∧ c.maxG < c.maxY then some (.err stInvalid 6)
    else if c.sched && (s.traffic.qcfg.any fun e => e.2.port == h.port && e.2.service == fld w 0 2 0 && e.2.spill) then
      some (.err stInvalid 7)
    else none
  apply := fun h w _ s =>
    let k := fld w 0 2 0
    .ok { s := writeSvc (bit (prm w 0) 31) s h.port k (svcOf w), undo := [.service h.port k (svc s h.port k)] }
  report := fun _ w _ _ => if (svcOf w).on && (svcOf w).burst == 0 then 8 else 0
  undo := fun _ w _ m s =>
    (m.undo.foldl (fun s u => match u with
      | .service p k c => writeSvc (bit (prm w 0) 31) s p k c
      | _ => s) s, 1)

/-- The settings a PORT_SHAPE_SET carries. -/
def pshapeOf (w : List Word) : PShape := { on := bit (prm w 0) 0, credit := creditOf (rtAt w 1), burst := prm w 3 }

def writeShape (fill : Bool) (s : State) (p : Nat) (c : PShape) : State :=
  if (port s p).shape = c then s
  else modPort s p fun x => { x with shape := c, shapeB := freshB fill c.burst (curQ s) }

def portShapeOp : TxnOp where
  prep := fun _ w _ =>
    let c := pshapeOf w
    if fld w 0 30 1 ≠ 0 ∨ fld w 1 31 8 ≠ 0 ∨ 2 ^ 24 ≤ c.burst ∨ 2 ^ 24 ≤ c.credit then some (.err stInvalid 1)
    else if c.on ∧ c.credit = 0 then some (.err stInvalid 4)
    else none
  apply := fun h w _ s =>
    .ok { s := writeShape (bit (prm w 0) 31) s h.port (pshapeOf w), undo := [.pshape h.port (port s h.port).shape] }
  report := fun _ w _ _ => if (pshapeOf w).on && (pshapeOf w).burst == 0 then 8 else 0
  undo := fun _ w _ m s =>
    (m.undo.foldl (fun s u => match u with
      | .pshape p c => writeShape (bit (prm w 0) 31) s p c
      | _ => s) s, 1)

/-- BUFFER_SET (R218, R220, R223, R224). -/
def bodyBufferSet (h : CmdHdr) (w : List Word) (s : State) : State × Reply :=
  let base := w64 w 3
  let size := prm w 5
  if 393216 < prm w 0 ∨ prm w 1 ≤ prm w 2 ∨ 393216 < prm w 1 + prm w 0 then (s, .err stInvalid 8)
  else if 2048 < size ∨ base % 2 ^ 20 ≠ 0 ∨ (size ≠ 0 ∧ ddrBytes s h.die < base + size * 2 ^ 20) then (s, .err stInvalid 9)
  else if spillUsed s h.die ≠ 0 then (s, .err stWrongState)
  else
    let b : BufCfg := { schedRes := prm w 0, spillOn := prm w 1, spillOff := prm w 2, spillBase := base, spillSize := size }
    (updateSpilling { s with traffic := { s.traffic with buf := s.traffic.buf.put h.die b {} } } h.die, .ok)

/-- INGRESS_SET (R221, R222). The accounts are compared with the new marks at once; a change of mode or mask begins them anew. -/
def bodyIngressSet (h : CmdHdr) (w : List Word) (s : State) : State × Reply :=
  let p := h.port
  let c : Ingress :=
    { mode := fld w 0 1 0, mask := fld w 0 9 2, pauseTime := fld w 0 25 10, hi := prm w 1, lo := prm w 2, max := prm w 3 }
  if fld w 0 31 26 ≠ 0 ∨ c.mode = 3 then (s, .err stInvalid 1)
  else if c.mode ≠ 0 ∧ (c.hi ≤ c.lo ∨ (c.max ≠ 0 ∧ c.max < c.hi) ∨ c.pauseTime = 0) then (s, .err stInvalid 10)
  else
    let s1 := modPort s p fun x =>
      if c.mode = x.ing.mode ∧ c.mask = x.ing.mask then { x with ing := c }
      else { x with ing := c, txd := { x.txd with xoff := 0, refresh := [] } }
    let cs := if c.mode = 1 then [0] else if c.mode = 2 then (List.range 8).filter fun i => bit c.mask i else []
    (cs.foldl (fun s i => acctUpdate s p i) s1, .ok)

/-- BUFFER_QUERY. -/
def bodyBufferQuery (h : CmdHdr) (_ : List Word) (s : State) : State × Reply :=
  (s, .ok (
    if h.scope = 1 then [wd (tmReg s h.die 0), wd (tmReg s h.die 4), wd (tmReg s h.die 8)]
    else
      (wd (portReg s h.port 0x584) :: (List.range 8).map fun c => wd (portReg s h.port (0x5A0 + 4 * c))) ++
        (List.range 8).map fun k => wd (svcOcc s h.port k)))

/-! ### Frames as sent (R182, R191, R217) -/

/-- Where a frame's VLAN tags end. -/
def tagEnd (b : List Byte) : Nat :=
  let e := beAt b 12 2
  if e = 0x8100 ∨ e = 0x88A8 then (if beAt b 16 2 = 0x8100 then 20 else 16) else 12

/-- Where the EtherType of a frame stands: after its tags and an R-TAG. -/
def typeAt (b : List Byte) : Nat := let n := tagEnd b; if beAt b n 2 = 0xF1C1 then n + 6 else n

/-- A frame with its FCS computed anew. -/
def refcs (b : List Byte) : List Byte := let c := b.take (b.length - 4); c ++ fcs c

/-- A copy's bytes as sent: DEI marked, R-TAG added. -/
def copyBytes (s : State) (c : Copy) : List Byte :=
  let f := frameAt s c.frame
  let n := tagEnd f.bytes
  let b := if c.yellow && n ≠ 12 then refcs (f.bytes.set 14 (f.bytes.getD 14 0 ||| 0x10)) else f.bytes
  match f.num with
  | some k => if c.rtag then refcs (b.take n ++ be 2 0xF1C1 ++ [0, 0] ++ be 2 k ++ b.drop n) else b
  | none => b

/-! ### Deficit order (R213, R214) -/

/-- An object in a deficit round: its quantum, the length it would send, whether that may start, and its place and deficit. -/
structure DItem where
  id : Nat
  quantum : Nat
  len : Nat
  ok : Bool
  deficit : Nat
  visited : Bool
  owed : Bool := false
  deriving DecidableEq, Repr

/-- The first object in deficit order whose frame may start, k being those passed over so far, at most four in all examined; with the
round's objects as they then stand, the one found first. One passed over keeps its deficit and its place. -/
def drr : Nat → List DItem → List DItem → Option (List DItem)
  | 0, _, _ => none
  | _, _, [] => none
  | fuel + 1, k, x :: r =>
    let d := if x.visited then x.deficit else x.deficit + x.quantum
    if d < x.len then drr fuel k (r ++ [{ x with deficit := d, visited := false, owed := false }])
    else if x.ok then some ({ x with deficit := d - x.len, visited := true } :: (k ++ r))
    else if 3 ≤ k.length then none
    else drr fuel (k ++ [{ x with owed := true }]) r

/-- Fuel for a round of l: the longest frame needs 145 quanta of 64 bytes. -/
def drrFuel (l : List DItem) : Nat := 200 * (l.length + 1)

/-- A list in the order of a round: those passed over, then from the first id at or after t on. -/
def turned (t : Nat) (l : List DItem) : List DItem :=
  let m := l.filter fun x => !x.owed
  l.filter (·.owed) ++ (m.filter fun x => t ≤ x.id) ++ m.filter fun x => x.id < t

/-! ### Candidates (R208, R212, R214, R215) -/

/-- A frame of the port's own with the SA in force when its preamble starts (R245). -/
def withSa (x : Port) (b : List Byte) : List Byte := refcs (b.take 6 ++ pMac x ++ b.drop 12)

/-- A candidate frame: its bytes; the copy and its queue, none for a control frame; the round it was found in; and, of a control frame,
the tag of its timestamp request and its COMMAND record. -/
structure Cand where
  bytes : List Byte
  copy : Option (Nat × Copy)
  round : List DItem
  ts : Option Nat := none
  cmd : Option (List Nat) := none
  deriving DecidableEq, Repr

/-- Whether every frame of the port but a twin frame goes in a preemptible class: on a twin-link lane (R261). -/
def sharesSeven (s : State) (p : Nat) : Bool := isTwinLane p && s.twin.role != .off

/-- The class a frame of service k goes in: its service's; on a twin-link lane class 6 for one of service 7 that is no twin frame
(R261; DESIGN CHOICE which preemptible class it is, log entry 146). -/
def classOf (s : State) (p k : Nat) (b : List Byte) : Nat :=
  if k = 7 ∧ sharesSeven s p ∧ ¬(beAt b 12 2 = 0x88B5 ∧ beAt b 14 2 = 0x4754) then 6 else k

/-- Whether a class is paused (R240). -/
def pausedClass (s : State) (x : Port) (c : Nat) : Bool := bit (pausedMask s x) c

/-- The shapers a decision of port p tests are refreshed: its own, those of its services and queues that hold frames. -/
def refreshShapers (s : State) (p : Nat) : State :=
  let q := curQ s
  let s := modPort s p fun x => if x.shape.on then { x with shapeB := refreshB x.shapeB x.shape.credit x.shape.burst q } else x
  (List.range 8).foldl (fun s k =>
    let qs := svcQueues s p k
    let c := svc s p k
    let d := svcDyn s p k
    let s := if c.on && !qs.isEmpty then setSvcDyn s p k { d with b := refreshB d.b c.credit c.burst q } else s
    qs.foldl (fun s i =>
      let c := qcfg s i
      let d := qdyn s i
      if c.shape then setQdyn s i { d with b := refreshB d.b c.credit c.burst q } else s) s) s

/-- The candidate of service k of port p at instant t in Q. -/
def candidate (s : State) (p k t : Nat) : Option Cand :=
  let x := port s p
  match (x.txd.ctl.look k []).head? with
  | some f =>
    if mayStart s p (classOf s p k f.bytes) f.bytes.length t then
      some { bytes := withSa x f.bytes, copy := none, round := [], ts := f.ts, cmd := f.cmd }
    else none
  | none =>
    let c := svc s p k
    if (c.on && (svcDyn s p k).b.tokens ≤ 0) || (x.shape.on && x.shapeB.tokens ≤ 0) then none
    else
      let l := (svcQueues s p k).filterMap fun q =>
        let qc := qcfg s q
        match (copies s q).head? with
        | none => none
        | some h =>
          if h.spilled || h.wait || (qc.shape && (qdyn s q).b.tokens ≤ 0) then none
          else
            let b := copyBytes s h
            let n := b.length
            some { id := q, quantum := 64 * qc.weight, len := n, ok := mayStart s p (classOf s p k b) n t, deficit := (qdyn s q).deficit,
                   visited := (qdyn s q).visited, owed := (qdyn s q).owed : DItem }
      match drr (drrFuel l) [] (turned (svcDyn s p k).turn l) with
      | some (y :: r) =>
        match (copies s y.id).head? with
        | some h => some { bytes := copyBytes s h, copy := some (y.id, h), round := y :: r }
        | none => none
      | _ => none

/-- A service of a port that may send at t an express frame, or with pre a preemptible one, with its candidate. -/
def eligible (s : State) (p t : Nat) (pre : Bool) (k : Nat) : Option (Nat × Cand) :=
  if pausedClass s (port s p) k then none
  else ((candidate s p k t).filter fun c => preemptible (port s p) (classOf s p k c.bytes) == pre).map fun c => (k, c)

/-- Services highest first: those that may have express frames, or preemptible ones. -/
def group (s : State) (p : Nat) (pre : Bool) : List Nat :=
  ((List.range 8).reverse).filter fun k => preemptible (port s p) k == pre || (k == 7 && sharesSeven s p)

/-- The service chosen from a group (R213), its candidate, and the weighted round. -/
def chooseFrom (s : State) (p t : Nat) (pre : Bool) : Option (Nat × Cand × List DItem) :=
  let g := group s p pre
  match (g.filter fun k => !(svc s p k).weighted).findSome? (eligible s p t pre) with
  | some x => some (x.1, x.2, [])
  | none =>
    let w := ((g.filter fun k => (svc s p k).weighted).filterMap (eligible s p t pre)).reverse
    let l := w.map fun x =>
      { id := x.1, quantum := 64 * (svc s p x.1).sweight, len := x.2.bytes.length, ok := true,
        deficit := (svcDyn s p x.1).deficit, visited := (svcDyn s p x.1).visited : DItem }
    match drr (drrFuel l) [] (turned (if pre then (port s p).txd.turnPre else (port s p).txd.deficitTurn) l) with
    | some (y :: r) => (w.find? fun x => x.1 == y.id).map fun x => (x.1, x.2, y :: r)
    | _ => none

/-! ### Starting and ending a frame (R72, R157, R164, R166, R208, R237) -/

/-- When the next preamble may start after a frame or fragment of n bytes that starts at t (2^-16 ns). -/
def freeAfter (p : Nat) (x : Port) (t n : Nat) : Nat := (t * 100 + lineQ p x * (n + 20) + 99) / 100

/-- A transmission begun; a frame's settings are those at its first fragment (R245). -/
def startTx (s : State) (p : Nat) (f : Tx) : State :=
  modPort s p fun x => { x with txd := { x.txd with
    tx := some { f with set := if f.sent = 0 then x.set else f.set }, lineFree := freeAfter p x f.t16 f.now } }

/-- A port under the settings its frame began with. -/
def underTx (x : Port) (f : Tx) : Port := { x with set := f.set }

/-- The rounds that chose a frame of service k committed, qs of its queues and ws of the weighted services of its group. A queue or
service that was not considered has its visit ended and keeps its deficit; one passed over keeps its place (R213, R214). -/
def commitRounds (s : State) (p k : Nat) (pre : Bool) (qs ws : List DItem) : State :=
  let s := qs.foldl (fun s y =>
    setQdyn s y.id { qdyn s y.id with deficit := y.deficit, visited := y.visited, owed := y.owed }) s
  let s := match qs with
    | [] => s
    | y :: _ =>
      let s := ((svcQueues s p k).filter fun q => (qdyn s q).visited && !(qs.any (·.id == q))).foldl
        (fun s q => setQdyn s q { qdyn s q with visited := false }) s
      if y.owed then s else setSvcDyn s p k { svcDyn s p k with turn := y.id }
  let s := ws.foldl (fun s y => setSvcDyn s p y.id { svcDyn s p y.id with deficit := y.deficit, visited := y.visited }) s
  match ws with
  | [] => s
  | y :: _ =>
    let s := ((group s p pre).filter fun j => (svcDyn s p j).visited && !(ws.any (·.id == j))).foldl
      (fun s j => setSvcDyn s p j { svcDyn s p j with visited := false }) s
    modPort s p fun x =>
      { x with txd := if pre then { x.txd with turnPre := y.id } else { x.txd with deficitTurn := y.id } }

/-- The timestamp request of a copy: its flow, and its sequence number or the flow's frame count (R73). -/
def tsOf (s : State) (c : Copy) : Option (Bool × Nat × Nat) :=
  let f := frameAt s c.frame
  if c.ts then some (false, f.flow, f.num.getD (f.tsTag % 65536)) else none

/-! ### The head of a queue (R151, R161, R191) -/

/-- The head frames of queue q that may never leave are discarded: one longer than its class may send (R151; an R-TAG may make it so,
R191), counted in TX_LEN_DROP (DESIGN CHOICE where R191 is not the cause, log entry 134), and, where win asks for that test, one
that no instant of the working list lets start (R161). -/
def dropHeads (win : Bool) (q : Nat) : Nat → State → State
  | 0, s => s
  | n + 1, s =>
    let p := (qcfg s q).port
    let k := (qcfg s q).service
    match (copies s q).head? with
    | none => s
    | some h =>
      let x := port s p
      let b := copyBytes s h
      let c := classOf s p k b
      let len := b.length
      if h.spilled || h.wait then s
      else if maxLen x c < len then dropHeads win q n (countPort (dropCopy s q h) p 0x1BC 1)
      else if win && x.valve.state = 2 && !(hasStart s p c len x.valve.list x.valve.vbase x.valve.vct) then
        let s := countPort (dropCopy s q h) p 0x424 1
        dropHeads win q n
          (if (qdyn s q).noWindow then s else raisePort (setQdyn s q { qdyn s q with noWindow := true }) p 0x408 4)
      else s

/-- The head of queue q tested, as when a frame reaches it. -/
def testHead (s : State) (q : Nat) : State := dropHeads true q (qFrames s q) s

/-- The heads of all queues of port p tested, as at a swap. -/
def testHeads (s : State) (p : Nat) : State := (queuesOf s p).foldl testHead s

/-- Frames of the control cores longer than their class may send (R151, R233) are discarded from its control slot and counted like those of
a queue (DESIGN CHOICE, log entry 134). -/
def dropLongCtl (s : State) (p k : Nat) : State :=
  let x := port s p
  let l := x.txd.ctl.look k []
  let m := l.filter fun f => f.bytes.length ≤ maxLen x (classOf s p k f.bytes)
  if m.length = l.length then s
  else countPort (modPort s p fun x => { x with txd := { x.txd with ctl := x.txd.ctl.put k m [] } }) p 0x1BC (l.length - m.length)

/-- The lengths of a service's next frames tested, as at a decision (R151, R191). -/
def testLengths (s : State) (p k : Nat) : State :=
  (svcQueues s p k).foldl (fun s q => dropHeads false q (qFrames s q) s) (dropLongCtl s p k)

/-- VALVE_SWAP_INSTANT: the committed start or swap takes place (R153). Every queue's head is tested again (R161). -/
def execValveSwapInstant (p : Nat) (s : State) : Out :=
  .next (match (port s p).valve.pend with
    | none => s
    | some q =>
      let s1 := modPort (atNs s q.at_) p fun x =>
        { x with valve := { x.valve with state := 2, list := q.list, vbase := q.at_, vct := q.vct, pend := none, idle := none } }
      let s2 := gateEdge s s1 p q.at_
      let s3 := raisePort s2 p 0x408 1
      testHeads (traceRec s3 (dieOfPort p) 0x05 (portBase p + 0x400) [reg s3 (portBase p + 0x410)]) p)

/-- Candidate c of service k starts at now. -/
def startCand (s : State) (p k : Nat) (c : Cand) (ws : List DItem) : State :=
  let s := countPort s p (0x500 + 0x10 * k) 1
  let cls := classOf s p k c.bytes
  let pre := preemptible (port s p) cls
  let s := commitRounds s p k pre c.round ws
  let tx : Tx := { bytes := c.bytes, t16 := now16 s, cls := cls, pre := pre, now := c.bytes.length }
  match c.copy with
  | none =>
    let s := modPort s p fun x => { x with txd := { x.txd with ctl := x.txd.ctl.put k ((x.txd.ctl.look k []).drop 1) [] } }
    let s := traceFirst s c.cmd
    clearService (startTx s p { tx with tsReq := c.ts.map fun t => (true, 0, t) }) p k
  | some (q, h) =>
    let ts := tsOf s h
    let s := setCopies s q ((copies s q).drop 1)
    let s := charge s p k q c.bytes.length
    let s := if (qdyn s q).noWindow then setQdyn s q { qdyn s q with noWindow := false } else s
    testHead (clearQueue (startTx s p { tx with copy := some (q, h), tsReq := ts }) q) q

/-- The bin of a frame length in the size counters. -/
def sizeBin (n : Nat) : Nat :=
  if n ≤ 64 then 0 else if n ≤ 127 then 1 else if n ≤ 255 then 2 else if n ≤ 511 then 3 else if n ≤ 1023 then 4
  else if n ≤ 1518 then 5 else 6

/-- The frame counters at b (octets, frames, casts) and b2 (size bins) of a port (R237). -/
def countFrame (s : State) (p b b2 : Nat) (f : List Byte) : State :=
  let n := f.length
  let s := count64 s (portBase p + b) n
  let s := countPort s p (b + 8) 1
  let cast := if f.take 6 == List.replicate 6 0xFF then 0x14 else if bit (beAt f 0 1) 0 then 0x10 else 0x0C
  countPort (countPort s p (b + cast) 1) p (b2 + 4 * sizeBin n) 1

/-- The mPacket of a preemptible transmission: fragments count on mod 4 (R164, R166). -/
def fragOf (f : Tx) : MPacket :=
  let d := (f.bytes.drop f.sent).take f.now
  if f.frags = 0 then .start d (!f.cut) false else .cont ((f.frags - 1) % 4) d (!f.cut) false

/-- A frame sent whole: counters of a good frame of 64 bytes to MAX_FRAME (R238), timestamp record, buffer cells. -/
def frameSent (s : State) (p : Nat) (f : Tx) : State :=
  let n := f.bytes.length
  let good := fcsOk f.bytes && 64 ≤ n && n ≤ pMaxFrame (underTx (port s p) f)
  let s := if good then countFrame s p 0x180 0x1A0 f.bytes else s
  let s := if beAt f.bytes 12 2 = 0x8808 then
      countPort s p (if beAt f.bytes 14 2 = 0x0101 then 0x19C else 0x198) 1
    else s
  let s := match f.tsReq with
    | some (src, fl, tag) =>
      let t := f.stamp.getD f.t16 + lineQ p (port s p) * 8 / 100
      tsRecord s p { w0 := wd (t / 65536), w1 := wd (t % 65536 + 0x10000), w2 := wd (b2n src * 2 ^ 31 + fl), w3 := wd (tag % 65536) }
    | none => s
  let s := match f.cutThrough with
    | some q => charge s p (qcfg s q).service q f.bytes.length
    | none => s
  match f.copy with
  | some c => releaseFrame s c.2
  | none => s

/-- A transmission with its bytes: a course frame's bricks as their read instants found them. -/
def withBytes (s : State) (p : Nat) (f : Tx) : Tx :=
  match f.course with
  | some c => { f with bytes := courseBytes s p (pMac (underTx (port s p) f)) c.1 c.2 }
  | none => f

/-- What port p is sending ended: a fragment becomes the pending frame, a whole frame has been sent. -/
def closeTx (s : State) (p : Nat) : State :=
  match (port s p).txd.tx with
  | none => s
  | some g =>
    let f := withBytes s p g
    let s := if 0 < f.frags then countPort s p 0x43C 1 else s
    if f.cut then
      let n : Tx := { f with sent := f.sent + f.now, frags := f.frags + 1, cut := false, now := 0 }
      emit (modPort s p fun x =>
        { x with txd := { x.txd with tx := none, pend := some n, lineFree := freeAfter p x f.t16 (f.now + 4) } })
        (.mpacket p f.t16 (fragOf f))
    else
      let s := emit (frameSent (modPort s p fun x => { x with txd := { x.txd with tx := none } }) p f)
        (if f.pre then .mpacket p f.t16 (fragOf f) else .frame p f.t16 f.bytes)
      sleepEnd s p

/-- The end of what port p is sending, at its instant. -/
def endTx (s : State) (p : Nat) : State :=
  match (port s p).txd.tx with
  | none => s
  | some f => closeTx (at16 s (txEndQ p (port s p) f / 100)) p

/-- What has ended by now is ended; a cut-through frame that has reached its limit leaves the line (R169). -/
def settleTx (s : State) (p : Nat) : State :=
  let x := port s p
  match x.txd.tx with
  | some f =>
    if onLine s p f then s
    else if f.now ≠ 0 then endTx s p
    else modPort s p fun x => { x with txd := { x.txd with
      tx := none, ended := x.txd.ended ++ [f], lineFree := freeAfter p x f.t16 f.lim } }
  | none => s

/-- FRAME_TRANSMIT_END: what port p sends ends at its own instant; a cut-through frame still arriving has none yet. -/
def execFrameTransmitEnd (p : Nat) (s : State) : Out :=
  .next (match (port s p).txd.tx with
    | some f => if f.now = 0 then s else endTx s p
    | none => s)

/-! ### The decision (R161, R191, R213) -/

/-- The MAC control frame that waits, started if the course reservations allow (R243). -/
def startMac (s : State) (p : Nat) : Option State :=
  let x := port s p
  let t := now16 s * 100
  match x.txd.mac with
  | none => none
  | some f =>
    if keepsLaunch s p (lineQ p x) t (t + lineQ p x * (f.length + 20)) then
      some (startTx (modPort s p fun x => { x with txd := { x.txd with mac := none } }) p
        { bytes := withSa x f, t16 := now16 s, cls := 8, now := f.length })
    else none

/-- The pending frame resumed where R164 allows; on a sleeping port, which finishes it whatever its gates and holds (R244), at once. -/
def resumePend (s : State) (p : Nat) : Option State :=
  let x := port s p
  match x.txd.pend with
  | none => none
  | some f =>
    let t := now16 s * 100
    let m := f.bytes.length - f.sent
    if x.link.sleeping || (!(holdAt s p t) && openThrough x f.cls t (t + fragQ p x m) && keepsLaunch s p (lineQ p x) t (t + fragQ p x m + 12 * lineQ p x)) then
      some (startTx (modPort s p fun x => { x with txd := { x.txd with pend := none } }) p { f with t16 := now16 s, now := m })
    else none

/-- EGRESS_SELECT: on a free line the next frame or fragment starts; a preemptible frame on the line is cut for an express frame
that is ready. -/
def execEgressSelect (p : Nat) (s : State) : Out :=
  let s := settleTx s p
  .next (
    if !(canSend s p) then s
    else
      let s := refreshShapers s p
      let s := (List.range 8).foldl (fun s k => testLengths s p k) s
      let x := port s p
      let t := now16 s * 100
      match x.txd.tx with
      | some f =>
        let ready := x.txd.mac.isSome || (chooseFrom s p t false).isSome
        if f.pre && ready then modPort s p fun x => cutTx p x (now16 s) else s
      | none =>
        if now16 s < x.txd.lineFree then s
        else if x.link.sleeping then (resumePend s p).getD s
        else match startMac s p with
          | some s => s
          | none => match chooseFrom s p t false with
            | some c => startCand s p c.1 c.2.1 c.2.2
            | none => match resumePend s p with
              | some s => s
              | none =>
                if x.txd.pend.isSome then s
                else match chooseFrom s p t true with
                  | some c => startCand s p c.1 c.2.1 c.2.2
                  | none => s)

/-! ### Spill and sweep (R209, R220) -/

/-- SPILL_READBACK: the first spilled frame of a queue is read back, up to four frames ahead, once the shared pool has room. -/
def execSpillReadback (q : Nat) (s : State) : Out :=
  let l := copies s q
  let d := dieOfQueue q
  .next (match l.zipIdx.find? fun x => x.1.spilled with
    | none => s
    | some (c, i) =>
      let f := frameAt s c.frame
      let n := cellsOf f.bytes.length
      let chip := f.copies ≠ 0
      if 4 ≤ i || !((ddrChan s d).trained) || (!chip && 393216 - (bufCfg s d).schedRes - sharedUsed s d < n) then s
      else
        let g := { f with copies := f.copies + 1, shared := if chip then f.shared else n }
        let s := setCopies (setFrame (updateSpilling s d) c.frame g) q (l.set i { c with spilled := false })
        let s := acctFrame (updateSpilling s d) g
        if i = 0 then testHead s q else s)

/-- The sweep's visit to a queue's shaper, a service's shaper and meter, a port shaper. -/
def sweepQueue (s : State) (q : Nat) : State :=
  let c := qcfg s q
  if c.shape then setQdyn s q { qdyn s q with b := refreshB (qdyn s q).b c.credit c.burst (curQ s) } else s

def sweepService (s : State) (p k : Nat) : State :=
  let c := svc s p k
  let d := svcDyn s p k
  let q := curQ s
  let d := if c.on then { d with b := refreshB d.b c.credit c.burst q } else d
  setSvcDyn s p k (if c.meter = 0 then d else { d with tc := refreshB d.tc c.cir c.cbs q, tp := refreshB d.tp c.pir c.pbs q })

def sweepPort (s : State) (p : Nat) : State :=
  modPort s p fun x => if x.shape.on then { x with shapeB := refreshB x.shapeB x.shape.credit x.shape.burst (curQ s) } else x

def execQueueQuery (h : CmdHdr) (w : List Word) (s : State) : Out := .next (runCmd s h 0x0901 w bodyQueueQuery)
def execQueueWrite (h : CmdHdr) (w : List Word) (s : State) : Out := .next (runCmd s h 0x0902 w (bodyJoin 0x0902 queueWriteOp))
def execQueueFlush (h : CmdHdr) (w : List Word) (s : State) : Out := .next (runCmd s h 0x0903 w bodyQueueFlush)
def execServiceSet (h : CmdHdr) (w : List Word) (s : State) : Out := .next (runCmd s h 0x0904 w (bodyJoin 0x0904 serviceSetOp))
def execPortShapeSet (h : CmdHdr) (w : List Word) (s : State) : Out := .next (runCmd s h 0x0905 w (bodyJoin 0x0905 portShapeOp))
def execBufferSet (h : CmdHdr) (w : List Word) (s : State) : Out := .next (runCmd s h 0x0906 w bodyBufferSet)
def execIngressSet (h : CmdHdr) (w : List Word) (s : State) : Out := .next (runCmd s h 0x0907 w bodyIngressSet)
def execBufferQuery (h : CmdHdr) (w : List Word) (s : State) : Out := .next (runCmd s h 0x0908 w bodyBufferQuery)

end Sys2Proof.Machine
end

