-- ==== Sys2Proof/Machine/Course.lean ====
section
/-! DEFINITION. Courses: their states and commands, outbound build and launch, inbound dissolution and merge, reflex actions (R22,
R97 to R110, R139, R140, R260, R263 to R265). -/

namespace Sys2Proof.Machine

/-! ### States (R108 to R110) -/

def modCourse (s : State) (o : Nat) (f : CourseDyn → CourseDyn) : State :=
  modPort s o fun x => { x with course := f x.course }

/-- The COURSE record of a state change of the course that port o owns. -/
def traceCourse (s : State) (o old : Nat) : State :=
  let c := (port s o).course
  if c.state = old then s
  else traceRec s (dieOfPort o) 0x03 (portBase o + 0x600)
    [old + 8 * c.state + 64 * b2n c.bank + 128 * c.cause, seqNow s o]

/-- The course that port o owns in a new state with a new cause. A stop or resume that waits is over with the state it was given in;
a port that leaves or enters OFF has its speed compared (R429). -/
def setCourse (s : State) (o st cause : Nat) : State :=
  let s1 := traceCourse (modCourse s o fun c => { c with state := st, cause := cause, stopAt := none, resumeAt := none }) o
    (port s o).course.state
  if ((port s o).course.state = 0) = (st = 0) then s1 else (sides s1 o).foldl speedHold s1

/-- The in-status cleared: at entry to ARMED and at each swap (R95). -/
def clearInStatus (s : State) (o : Nat) : State := modPort s o fun x => { x with inStat := {} }

/-- SAFE entered for a cause. -/
def enterSafe (s : State) (o cause : Nat) : State :=
  raisePort (setCourse (modCourse s o fun c => { c with safeCycles := 0, safeLast := none }) o 3 cause) o 0x608 16

/-- A safe request on the course that port o owns (R109, R110): in ARMED it decides what the start boundary enters, the first cause
requested standing (DESIGN CHOICE for causes other than COURSE_SAFE, log entry 144); in SAFE only for a stopped region it takes
hold. -/
def doSafe (s : State) (o cause : Nat) : State :=
  let c := (port s o).course
  match c.state with
  | 1 => modCourse s o fun c => { c with safeAtStart := some (c.safeAtStart.getD cause) }
  | 2 => enterSafe s o cause
  | 3 => if c.cause = 3 ∧ cause ≠ 3 then modCourse s o fun c => { c with cause := cause } else s
  | _ => s

/-- A safe request that arises on this package for the course of port p (R265): one that arises on a LEADER is forwarded; one
that arises elsewhere withholds the twin course. -/
def safeReq (s : State) (p cause : Nat) : State :=
  let o := own s p
  let live := (port s o).course.state ≠ 0
  if (port s o).ccfg.plane ≠ 3 ∨ s.twin.role = .off then doSafe s o cause
  else if s.twin.role = .leader then
    let h : CmdHdr := { scope := 3, die := dieOfPort o, region := regionOfPort o, port := o }
    let s := if live then sendRec s (regionOfPort o) (commandRec h 0x0608 [] (nowNs s)) else s
    doSafe s o cause
  else if live then { s with mirror := { s.mirror with withheld := s.mirror.withheld.put o true false } }
  else s

/-- The twin course of port o withheld no more. -/
def sendsAgain (s : State) (o : Nat) : State :=
  { s with mirror := { s.mirror with withheld := s.mirror.withheld.put o false false, withholdAt := s.mirror.withholdAt.put o 0 0 } }

/-- A swap of the course that port o owns at its boundary (R106, R107); its record carries its own k (R391). -/
def swapNow (s : State) (o : Nat) : State :=
  let b := ((port s o).course.swaps.head?).getD 0
  let k := ((port s o).course.swapKs.find? fun e => e.1 == b).getD (b, 0)
  let s := modCourse s o fun c => { c with bank := !c.bank, swaps := c.swaps.drop 1, swapKs := c.swapKs.erase k }
  traceRec (raisePort (clearInStatus s o) o 0x608 4) (dieOfPort o) 0x05 (portBase o + 0x600) [k.2]

/-- What falls due on the course that port o owns by t: swaps, then a start, a resume, a stop (R108). -/
def courseDue (s : State) (o t : Nat) : State :=
  let n := ((port s o).course.swaps.filter (· ≤ t)).length
  let s := (List.range n).foldl (fun s _ => swapNow s o) s
  let c := (port s o).course
  let done (k : Nat) (s : State) : State :=
    traceRec (raisePort s o 0x608 4) (dieOfPort o) 0x05 (portBase o + 0x600) [k]
  if c.state = 1 && c.startAt.any (· ≤ t) then
    let s := modCourse s o fun c => { c with startAt := none, safeAtStart := none }
    done c.startK (match c.safeAtStart with | some k => enterSafe s o k | none => setCourse s o 2 0)
  else if c.state = 3 && c.stopAt.any (· ≤ t) then
    let s := setCourse (modCourse s o fun c => { c with swaps := [], swapKs := [] }) o 0 0
    traceRec (sendsAgain s o) (dieOfPort o) 0x05 (portBase o + 0x600) [0]
  else if c.state = 3 && c.resumeAt.any (· ≤ t) then
    done c.resumeK (setCourse (sendsAgain s o) o 2 0)
  else s

/-- Whether port p's course engine runs: its region and the CORE domain. -/
def courseRuns (s : State) (p : Nat) : Bool := p < 512 && portRuns s p && clocksRun s && (port s (own s p)).ccfg.ct != 0

/-! ### Staleness (R102, R260) -/

/-- The evaluation of entry e, whose bond word is x. -/
def ageEntry (s : State) (o e x : Nat) : State :=
  let i := (port s o).inStat
  let put (s : State) (a : Nat) : State := modPort s o fun y => { y with inStat := { y.inStat with age := y.inStat.age.put e a 0 } }
  if i.taken.look e false then put s 0
  else
    let a := min 255 (i.age.look e 0 + 1)
    let s := put (countPort s o 0x658 1) a
    let lim := (port s o).ccfg.stale
    if lim = 0 ∨ a < lim ∨ i.ep.look e false = true then s
    else
      let s := modPort s o fun y => { y with inStat := { y.inStat with ep := y.inStat.ep.put e true false } }
      let s := raisePort s o 0x608 1
      match eAct x with
      | 1 => imgWrite s (eAxis x) (64 + eOfs x) (List.replicate (eLen x) 0)
      | 2 => safeReq s o 4
      | _ => s

/-- The line base cycle that holds t is unverified: a taken record of it was late (R262). -/
def lateIn (s : State) (t : Nat) : State :=
  let n := cycleNo s s.line.baseCt t
  let m := s.mirror
  if m.judged = some n then { s with mirror := { m with unverified := max m.unverified (min 255 (m.unvBase + 1)) } }
  else { s with mirror := { m with lateCycle := some n } }

/-- ARR_CLOSE of inbound frame f of the course that port o owns, at instant t, once. A brick that a FOLLOWER has offered and that
no taken record answers is a late record (DEDUCED, log entry 35). -/
def closeFrame (s : State) (o f t : Nat) : State :=
  let c := (port s o).course
  let k := b2n c.bank
  let d := descOf s o k (4 + f)
  if (c.state ≠ 2 ∧ c.state ≠ 3) ∨ dCount d = 0 ∨ t < (port s o).inStat.closed.look f 0 then s
  else
    let s := modPort s o fun y => { y with inStat := { y.inStat with closed := y.inStat.closed.put f (t + 1) 0 } }
    let lost := (List.range (dCount d)).any fun j =>
      (port s o).inStat.offered.look (dFirst d + j) false && !((port s o).inStat.taken.look (dFirst d + j) false)
    let s := if lost then lateIn s (t - 1000) else s
    ((entriesOf s o k (4 + f)).zipIdx).foldl (fun s e => ageEntry s o (dFirst d + e.2) e.1) s

/-- The instant of ARR_CLOSE of frame f of cycle n; on a FOLLOWER 1,000 ns later for a twin course. -/
def closeAt (s : State) (o f n : Nat) : Nat :=
  let c := (port s o).ccfg
  cycleStart s c.ct n + (descOf s o (b2n (port s o).course.bank) (4 + f)).w3.toNat +
    (if c.plane = 3 ∧ s.twin.role = .follower then 1000 else 0)

def arrCloseOf (s : State) (p f n : Nat) : State :=
  if !(courseRuns s p) || own s p ≠ p || 4 ≤ f then s
  else let t := closeAt s p f n; closeFrame (atNs s t) p f t

/-- ARR_CLOSE; a twin course of a FOLLOWER is evaluated by FOLLOWER_ARR_CLOSE. -/
def execArrClose (p f n : Nat) (s : State) : Out :=
  .next (if (port s p).ccfg.plane = 3 ∧ s.twin.role = .follower then s else arrCloseOf s p f n)

/-- FOLLOWER_ARR_CLOSE (R260). -/
def execFollowerArrClose (p f n : Nat) (s : State) : Out :=
  .next (if (port s p).ccfg.plane = 3 ∧ s.twin.role = .follower then arrCloseOf s p f n else s)

/-! ### Boundaries (R80, R95, R102, R104) -/

/-- The consecutive cycles one plane has been silent while the other was not (R104). An episode ends when its plane is heard again. -/
def silence (s : State) (o : Nat) : State :=
  let c := (port s o).course
  let a := if c.gotA then 0 else if c.gotB then min 16 (c.missedA + 1) else 0
  let b := if c.gotB then 0 else if c.gotA then min 16 (c.missedB + 1) else 0
  let ep := c.silentEp.filter fun planeB => !(if planeB then c.gotB else c.gotA)
  let hit := ep.isNone && (a = 16 || b = 16)
  let s := modCourse s o fun c =>
    { c with missedA := a, missedB := b, gotA := false, gotB := false, silentEp := if hit then some (b = 16) else ep }
  if hit then raisePort s o 0x608 2 else s

/-- COURSE_BOUNDARY: boundary n of port p's course. What fell due in the ended cycle is settled first. -/
def execCourseBoundary (p n : Nat) (s : State) : Out :=
  .next (
    if !(courseRuns s p) || own s p ≠ p then s
    else
      let t := cycleStart s (port s p).ccfg.ct n
      let s := atNs s t
      let s := if (port s p).ccfg.plane = 3 ∧ s.twin.role = .follower ∧ 0 < n then
          [0, 1, 2, 3].foldl (fun s f => if closeAt s p f (n - 1) = t then closeFrame s p f t else s) s
        else s
      let s := if (sides s p).length = 2 then silence s p else s
      let s := courseDue s p t
      modPort s p fun x => { x with inStat := { x.inStat with taken := [], offered := [], kept := [] } })

/-! ### Build and launch (R22, R97 to R99, R263) -/

/-- Whether the working bank of a course names, in an entry in use, an axis whose region does not run (R22). -/
def foreignStopped (s : State) (o : Nat) : Bool :=
  let k := b2n (port s o).course.bank
  (List.range 8).any fun i => (entriesOf s o k i).any fun e => !(regionRuns s (regionOfAxis (eAxis e)))

/-- Whether a REGION reset masks FOREIGN_STOPPED of the course that port o owns: its working bank bonds an axis of the region
(R342). -/
def foreignMasked (s : State) (o : Nat) : Bool :=
  let k := b2n (port s o).course.bank
  s.power.masks.any fun m => match m.1 with
    | .region r => m.2.all (nowNs s < ·) &&
      (List.range 8).any fun i => (entriesOf s o k i).any fun e => regionOfAxis (eAxis e) == r
    | _ => false

/-- FOREIGN_STOPPED raised. Masked, it sets its bit, fires no source and counts in SUPPRESSED. -/
def raiseForeign (s : State) (o : Nat) : State :=
  let n := raisePort s o 0x608 32
  if foreignMasked s o && n.faultPend != s.faultPend then count { n with faultPend := s.faultPend } (suppressedAddr (.port o)) 1
  else n

/-- R22 at a build: the safe course in place of the working course while a named region is stopped. On a LEADER the request is
forwarded; a twin course of another package is withheld for as long (R265). -/
def foreignTest (s : State) (o : Nat) : State :=
  let c := (port s o).course
  if foreignStopped s o then
    let s := if c.foreign then s else raiseForeign (modCourse s o fun c => { c with foreign := true }) o
    if c.state = 2 ∧ ((port s o).ccfg.plane ≠ 3 ∨ s.twin.role = .off ∨ s.twin.role = .leader) then safeReq s o 3 else s
  else
    let s := if c.foreign then modCourse s o fun c => { c with foreign := false } else s
    if c.state = 3 ∧ c.cause = 3 then setCourse s o 2 0 else s

/-- The courses in SAFE for a stopped region alone return to RUN as soon as none of the regions they name is stopped (R110). -/
def regionsAgain (s : State) : State :=
  (keys s.ports).foldl (fun s o =>
    let c := (port s o).course
    if c.state = 3 ∧ c.cause = 3 ∧ c.foreign ∧ !(foreignStopped s o) then foreignTest s o else s) s

/-- UNVERIFIED counted up to the line base cycle before the present one (R263). -/
def unverifiedBefore (s : State) : Nat :=
  let m := s.mirror
  if m.judged = some (cycleNo s s.line.baseCt (nowNs s)) then m.unvBase else m.unverified

/-- Whether frames of a twin course of port o are withheld (R263 to R265): by its gate, from the swap to a bank that differs from the
LEADER's on, for a safe request of its own, or while a region it names is stopped. -/
def withheldNow (s : State) (o : Nat) : Bool :=
  (port s o).ccfg.plane == 3 && (s.twin.role == .follower || s.twin.role == .claiming) &&
    (!(s.mirror.ok.look (dieOfPort o) false) || s.twin.k + 2 < unverifiedBefore s || s.mirror.withheld.look o false ||
      s.mirror.withholdAt.any (fun e => e.1 == o && e.2 ≤ nowNs s + 1) || (port s o).course.foreign)

/-- The bank a course sends from: its working bank in RUN, bank S in SAFE. -/
def sendBank (c : CourseDyn) : Option Nat := match c.state with | 2 => some (b2n c.bank) | 3 => some 2 | _ => none

/-- The build of frame f of port p in cycle n, which starts at b, from the course as it stands: with the bank it fixes the frame's
descriptor and brick list (R97; DESIGN CHOICE for what R97 does not list, log entry 141). -/
def buildOf (s : State) (p f n b : Nat) : Build :=
  let o := own s p
  let c := (port s o).course
  let k := if c.state = 3 then 2 else b2n c.bank
  { n := n, b := b, launches := launchesOf s o b k f, safe := c.state == 3, bank := c.bank, skip := withheldNow s o, desc := ownDesc s p k f, entries := entriesOf s p k f }

/-- COURSE_BUILD_START: 200 ns before LAUNCH the bank and the header of frame f of cycle n are fixed. Where the test of R22 there changes
the bank, frame f of the other bank has its own build start, and is not built where that has passed. -/
def execCourseBuildStart (p f n : Nat) (s : State) : Out :=
  let o := own s p
  .next (
    if !(courseRuns s p) then s
    else
      let b := cycleStart s (port s o).ccfg.ct n
      let s := courseDue s o (max b (nowNs s))
      match sendBank (port s o).course with
      | none => s
      | some k => match outFrame s p k f with
        | none => s
        | some y =>
          let s := foreignTest (atNs s (b + y.1 - 200)) o
          let u := buildOf s p f n b
          if u.entries.isEmpty || (buildBank u != k && buildLaunch u < nowNs s + 200) then s
          else modCourse (atNs s (buildLaunch u - 200)) p fun x => { x with builds := x.builds.put f (some u) none })

/-- Bank S frames launched in one more cycle (R337, R341). -/
def countSafeCycle (s : State) (o n : Nat) : State :=
  modCourse s o fun c =>
    if c.safeLast == some n then c else { c with safeCycles := c.safeCycles + 1, safeLast := some n }

/-- Whether frame of launch l and length m can be sent whole from port p (R99). -/
def launchOk (s : State) (p l m : Nat) : Bool :=
  let x := port s p
  let bq := lineQ p x
  let t0 := l * qPerNs - 8 * bq
  canSend s p && openThrough x x.vset.courseClass t0 (l * qPerNs + bq * m) && x.txd.tx.isNone && x.txd.lineFree * 100 ≤ t0

/-- COURSE_LAUNCH: frame f of cycle n as its build fixed it. Its preamble starts now; its bricks are read while it is sent. -/
def execCourseLaunch (p f n : Nat) (s : State) : Out :=
  let o := own s p
  .next (match (port s p).course.builds.look f none with
    | none => s
    | some u =>
      if u.n ≠ n || !(courseRuns s p) then s
      else
        let l := buildLaunch u
        let m := frameLen (buildSizes u)
        let t0 := (l * qPerNs - 8 * lineQ p (port s p)) / 100
        let s := settleTx (at16 s t0) p
        let s := modCourse s p fun c => { c with builds := c.builds.put f none none }
        if u.skip || !(launchOk s p l m) then countPort s o 0x660 1
        else
          let s := startTx s p
            { bytes := [], t16 := t0, cls := (port s p).vset.courseClass, now := m, course := some (f, u) }
          if u.safe then countSafeCycle (countPort s o 0x624 1) o n else countPort s o 0x620 1)

/-! ### Inbound frames (R36, R100, R101, R103, R260) -/

/-- The receive timestamp of a frame whose first DA bit crosses the pins of port p at t16: at the reference plane (R60). -/
def rxStamp (x : Port) (t16 : Nat) : Nat := t16 - x.time.ingress.toNat

/-- A course frame that has reached the end of its header, tested by R100: accepted for dissolution or dropped and counted. The
cycle it arrives in is that of its receive timestamp. -/
def courseFrameIn (s : State) (p t16 : Nat) (bytes : List Byte) : State :=
  let o := own s p
  let c := courseOf s p
  let x := port s p
  let ct := (port s o).ccfg.ct
  let h := typeAt bytes + 2
  let at_ := rxStamp x t16 / 65536
  let b := at_ - (((at_ : Int) - s.line.anchor) % ct).toNat
  let f := beAt bytes h 1 % 4
  let planeB := planeBit s p
  let k := b2n c.bank
  let d := descOf s p k (4 + f)
  let a := dAddr (ownDesc s p k (4 + f))
  let n := cycleNo s ct at_
  if (c.state ≠ 2 ∧ c.state ≠ 3) ∨ bytes.length < h + 10 ∨ ct = 0 then countPort s p 0x158 1
  else if crc16 ((bytes.drop h).take 8) ≠ beAt bytes (h + 8) 2 then countPort s o 0x630 1
  else if beAt bytes h 1 / 8 ≠ 3 ∨ beAt bytes h 1 / 4 % 2 ≠ b2n planeB ∨ beAt bytes (h + 6) 2 ≠ (port s o).ccfg.id ∨ dCount d = 0 ∨
      dCount d ≠ beAt bytes (h + 2) 1 ∨ (a ≠ 0 ∧ a ≠ beAt bytes 6 6) then countPort s o 0x634 1
  else if beAt bytes (h + 4) 2 ≠ n % 65536 then countPort s o (if planeB then 0x63C else 0x638) 1
  else
    let s := countPort s o (if planeB then 0x62C else 0x628) 1
    let s := modCourse s o fun c => if planeB then { c with gotB := true } else { c with gotA := true }
    modPort s p fun y => { y with
      inFrame := some { f := f, n := n, b := b, planeB := planeB, t16 := t16, hdr := h + 10, bytes := bytes.take (pMaxFrame x)
                        desc := d, entries := entriesOf s p k (4 + f) } }

/-- The slice of axis image bytes that wire data spell. -/
def takeBrick (s : State) (o p e x a : Nat) (planeB : Bool) (d : List Byte) : State :=
  let s := imgWrite s (eAxis x) (64 + eOfs x) (swapWords d)
  let s := modPort s o fun y => { y with
    inStat := { y.inStat with taken := y.inStat.taken.put e true false, kept := y.inStat.kept.put e d [] } }
  evalRules (countPort s o (if planeB then 0x64C else 0x648) 1) (eAxis x) a (eOfs x) (eLen x) p

/-- A good copy of the brick of entry e (bond word x) merged (R103): its data taken, or a duplicate compared. Whether it was
taken. -/
def mergeBrick (s : State) (o p e x a : Nat) (planeB : Bool) (d : List Byte) : State × Bool :=
  let i := (port s o).inStat
  let s := if i.ep.look e false then
      modPort s o fun y => { y with inStat := { y.inStat with ep := y.inStat.ep.put e false false } } else s
  if i.taken.look e false then
    let s := countPort s o 0x650 1
    (if i.kept.look e [] ≠ d then countPort s o 0x654 1 else s, false)
  else (takeBrick s o p e x a planeB d, true)

/-- A BRICK record (R268). -/
def brickRec (s : State) (o f j n a : Nat) (taken planeB : Bool) (d : List Byte) : List Byte :=
  [1] ++ be 2 (port s o).ccfg.id ++ be 2 (n % 65536) ++ [by8 (128 * b2n taken + 64 * b2n planeB + f), by8 j] ++
    be 4 (a / 65536) ++ be 2 (a % 65536) ++ d ++ be 2 (brickCheck (n % 65536) true f j d)

/-- Whether this twin holds the merge authority (R260, R269). -/
def merges (s : State) : Bool := s.twin.role == .leader || s.twin.auth

/-- Whether this twin offers its bricks to the LEADER in place of taking them (R259, R260). -/
def offers (s : State) : Bool := s.twin.role == .follower && !s.twin.lone && !s.twin.auth

/-- Where brick j of a frame being dissolved stands in its bytes, its data's length, and the instant its last check byte crosses the
pins of port p (2^-16 ns). -/
def brickSpan (s : State) (p : Nat) (i : InFrame) (j : Nat) : Nat × Nat × Nat :=
  let sz := i.entries.map eLen
  let len := sz.getD j 0
  let at_ := posOf sz j - 28 + i.hdr
  (at_, len, i.t16 + lineQ p (port s p) * (at_ + len + 2) / 100)

/-- Brick j of the frame that port p is dissolving completes (R101, R103, R260). -/
def brickIn (s : State) (p j : Nat) : State :=
  let o := own s p
  match (port s p).inFrame with
  | none => s
  | some i =>
    let d := i.desc
    let y := brickSpan s p i j
    let en := y.1 + y.2.1 + 2
    let a := y.2.2
    let e := dFirst d + j
    let x := i.entries.getD j 0
    if dCount d ≤ j ∨ j < i.done ∨ i.bytes.length < en ∨ !(courseRuns s p) then s
    else
      let s := modPort (at16 s a) p fun y => { y with inFrame := some { i with done := j + 1 } }
      let data := (i.bytes.drop y.1).take y.2.1
      if (i.b + d.w3.toNat) * 65536 < a then countPort s o 0x65C 1
      else if brickCheck (i.n % 65536) true i.f j data ≠ beAt i.bytes (en - 2) 2 then
        countPort s o (if i.planeB then 0x644 else 0x640) 1
      else if (port s o).ccfg.plane = 3 ∧ offers s then
        let s := modPort s o fun y => { y with inStat := { y.inStat with offered := y.inStat.offered.put e true false } }
        sendRec s (regionOfPort o) (brickRec s o i.f j i.n a false i.planeB data)
      else
        let m := mergeBrick s o p e x a i.planeB data
        if m.2 && (port s o).ccfg.plane == 3 && merges s then
          sendRec m.1 (regionOfPort o) (brickRec s o i.f j i.n a true i.planeB data)
        else m.1

/-- The number of the CORE cycle (1.25 ns) of an instant in 2^-16 ns (DESIGN CHOICE for the phase of its edges, log entry 148). -/
def coreNo (t16 : Nat) : Nat := t16 / 81920

/-- Whether the plane A copy of plane B port p's brick j completes in the same CORE cycle: it is first (R103). -/
def planeAFirst (s : State) (p j : Nat) : Bool :=
  let o := own s p
  o != p && match (port s p).inFrame, (port s o).inFrame with
    | some i, some k => k.f == i.f && k.b == i.b && k.done == j &&
        coreNo (brickSpan s p i j).2.2 == coreNo (brickSpan s o k j).2.2
    | _, _ => false

/-- BRICK_RECEIVE: brick j of the frame that port p is dissolving completes at A. -/
def execBrickReceive (p j : Nat) (s : State) : Out :=
  .next (brickIn (if planeAFirst s p j then brickIn s (own s p) j else s) p j)

/-! ### Reflex actions (R139, R140) -/

/-- Whether an action's target axis is out of reach now. -/
def actLost (s : State) (y : ReflexAct) : Bool :=
  y.lost || !(regionRuns s (regionOfAxis (bits y.rule.w4.toNat 13 0))) || !(clocksRun s)

/-- REFLEX_ACTION_APPLY: the actions of one instant: quick-stops, then SETs, then safe requests and events. -/
def execReflexActionApply (s : State) : Out :=
  .next (match s.reflex with
    | [] => s
    | y :: _ =>
      let t := y.t16
      let now := s.reflex.takeWhile fun z => z.t16 == t
      let s := at16 (settleAxes s (t / 65536)) t
      let s := { s with reflex := s.reflex.drop now.length }
      let s := now.foldl (fun s z =>
        if bit z.rule.w0.toNat 20 && !(actLost s z) then qstopReq s (bits z.rule.w4.toNat 13 0) 2 t else s) s
      let sets := (now.filter fun z => bit z.rule.w0.toNat 19 && !(actLost s z)).map (·.rule)
      let s := sets.foldl applySet s
      let s := { s with image := { s.image with sets := (t, sets) } }
      let s := now.foldl (fun s z => if bit z.rule.w0.toNat 21 && !z.lostSafe then safeReq s z.port 5 else s) s
      now.foldl (fun s z => if bit z.rule.w0.toNat 22 then raiseTraj s z.src 4 else s) s)

/-! ### Commands (R106 to R111) -/

/-- A boundary committed at c (R106): SWAP_K and SWAP_LATE, with the instant and k. -/
def commitBoundary (s : State) (o tb c : Nat) : State × Nat × Nat :=
  let b := firstAt tb (port s o).ccfg.ct (c + 4000)
  let s := setReg s (portBase o + 0x610) (sat32 b.2)
  (if b.2 = 0 then s else raisePort s o 0x608 8, b.1, sat32 b.2)

/-- The reply of a base time that is not a boundary, at parameter word i. -/
def baseBad (s : State) (o : Nat) (w : List Word) (i : Nat) : Option Reply :=
  if isBoundary s (port s o).ccfg.ct (ltAt w i).1 then none else some (.err stInvalid (i + 1))

/-- A number put in its place in a rising list. -/
def insertNat (x : Nat) : List Nat → List Nat
  | [] => [x]
  | y :: r => if x < y then x :: y :: r else y :: insertNat x r

def courseStartOp : TxnOp where
  prep := fun h w s =>
    let o := own s h.port
    let c := (port s o).ccfg
    if fld w 0 31 1 ≠ 0 then some (.err stInvalid 1)
    else match instantAt w 1 with
      | .error d => some (.err stInvalid d)
      | .ok _ =>
        if (port s o).course.state ≠ 0 ∨ (c.plane = 3 ∧ s.twin.role = .off) then some (.err stWrongState)
        else match courseCheck s h.port [fld w 0 0 0] with
          | some r => some r
          | none =>
            match baseBad s o w 1 with
            | some r => some r
            | none => if c.plane = 3 && !(startsOk s [newMember s 0x0606 h w]) then some (.err stInvalid) else none
  test := fun h _ ms _ s =>
    if (port s (own s h.port)).ccfg.plane = 3 && !(startsOk s ms) then some (.err stInvalid) else none
  apply := fun h w c s =>
    let o := own s h.port
    if (port s o).course.state ≠ 0 then .error (.err stWrongState)
    else
      let x := commitBoundary s o (ltAt w 1).1 c
      let s := modCourse x.1 o fun d =>
        { d with bank := bit (prm w 0) 0, startAt := some x.2.1, startK := x.2.2, safeAtStart := none, swaps := [], swapKs := [],
                 resumeAt := none, stopAt := none,
                 foreign := false, missedA := 0, missedB := 0, gotA := false, gotB := false, silentEp := none }
      .ok { s := setCourse (clearInStatus s o) o 1 0, k := x.2.2, at_ := x.2.1 }
  words := fun _ _ a => [wd a.k]
  report := fun _ _ k _ => lateBit k
  undo := fun h _ rb _ s =>
    let o := own s h.port
    let c := (port s o).course
    if c.state = 1 ∧ c.startAt.all (rb ≤ ·) then
      (setCourse (modCourse s o fun d => { d with startAt := none, safeAtStart := none, swaps := [] }) o 0 0, 2)
    else (safeReq (courseDue s o rb) o 1, 1)

/-- COURSE_SWAP (R106, R107, R109). Several swaps of one course may wait, each for its own boundary; the bank that one makes working,
which the check takes, is the one that those before it leave (DESIGN CHOICE, log entry 145). -/
def courseSwapOp : TxnOp where
  prep := fun h w s =>
    let o := own s h.port
    let c := (port s o).course
    match instantAt w 0 with
    | .error d => some (.err stInvalid d)
    | .ok _ =>
      if c.state = 0 then some (.err stWrongState)
      else match courseCheck s h.port [b2n (xor c.bank (c.swaps.length % 2 == 0))] with
        | some r => some r
        | none => baseBad s o w 0
  apply := fun h w c s =>
    let o := own s h.port
    if (port s o).course.state = 0 then .error (.err stWrongState)
    else
      let x := commitBoundary s o (ltAt w 0).1 c
      .ok { s := modCourse x.1 o fun d => { d with swaps := insertNat x.2.1 d.swaps, swapKs := d.swapKs ++ [x.2] }
            k := x.2.2, at_ := x.2.1 }
  words := fun _ _ a => [wd a.k]
  report := fun _ _ k _ => lateBit k
  undo := fun h _ rb m s =>
    let o := own s h.port
    let back (d : CourseDyn) : CourseDyn := { d with swaps := d.swaps.erase m.at_, swapKs := d.swapKs.erase (m.at_, m.k) }
    if rb ≤ m.at_ then (modCourse s o back, 2)
    else if (port s o).course.swaps.contains m.at_ then (modCourse s o back, 1)
    else (clearInStatus (modCourse s o fun d => { d with bank := !d.bank }) o, 1)

def courseResumeOp : TxnOp where
  prep := fun h w s =>
    let o := own s h.port
    match instantAt w 0 with
    | .error d => some (.err stInvalid d)
    | .ok _ => if (port s o).course.state ≠ 3 then some (.err stWrongState) else baseBad s o w 0
  apply := fun h w c s =>
    let o := own s h.port
    if (port s o).course.state ≠ 3 then .error (.err stWrongState)
    else
      let x := commitBoundary s o (ltAt w 0).1 c
      .ok { s := modCourse x.1 o fun d => { d with resumeAt := some x.2.1, resumeK := x.2.2 }, k := x.2.2, at_ := x.2.1 }
  words := fun _ _ a => [wd a.k]
  report := fun _ _ k _ => lateBit k
  undo := fun h _ rb m s =>
    let o := own s h.port
    if rb ≤ m.at_ ∨ (port s o).course.resumeAt.isSome then
      (modCourse s o fun d => { d with resumeAt := none }, if rb ≤ m.at_ then 2 else 1)
    else (safeReq s o 1, 1)

def courseStopOp : TxnOp where
  prep := fun h _ s => if (courseOf s h.port).state = 2 then some (.err stWrongState) else none
  apply := fun h _ c s =>
    let o := own s h.port
    match (port s o).course.state with
    | 0 => .ok { s := s, at_ := c }
    | 1 => .ok { s := setCourse (modCourse s o fun d => { d with startAt := none, safeAtStart := none, swaps := [] }) o 0 0, at_ := c }
    | 2 => .error (.err stWrongState)
    | _ =>
      let b := nextB s.line.anchor (port s o).ccfg.ct (c + 4000)
      .ok { s := modCourse s o fun d => { d with stopAt := some b }, at_ := b }
  words := fun _ _ a => ltWords a.at_ 0
  undo := fun h _ rb m s =>
    let o := own s h.port
    if rb ≤ m.at_ then (modCourse s o fun d => { d with stopAt := none }, 2) else (s, 0)

/-- The CRC-32C of the bank that a swap makes working: entries and descriptors without the per-side fields (R264). -/
def bankCrc (s : State) (o : Nat) : Nat :=
  let c := (port s o).course
  let b := bankSel (port s o).ccfg (b2n (xor c.bank (c.swaps.length % 2 == 0)))
  crc32c (wordsBe ((List.range 256).map (fun i => b.entries.look i 0) ++ (List.range 8).flatMap fun i =>
    let d : Desc := b.descs.look i {}
    [d.w2, if i < 4 then 0 else d.w3]))

/-- COURSE_SAFE: rejected in OFF. -/
def courseSafeBad (h : CmdHdr) (_ : List Word) (s : State) : Option Reply :=
  if (courseOf s h.port).state = 0 then some (.err stWrongState) else none

def doCourseSafe (h : CmdHdr) (_ : List Word) (s : State) : State := doSafe s (own s h.port) 1

/-- COURSE_SAFE as it is given here. A CLAIMING package is not LEADER and forwards nothing: it withholds a twin course, as for any request
that arises on it (R265). -/
def doSafeHere (h : CmdHdr) (w : List Word) (s : State) : State :=
  if s.twin.role == .claiming && (port s (own s h.port)).ccfg.plane == 3 then safeReq s h.port 1 else doCourseSafe h w s

def execCourseStart (h : CmdHdr) (w : List Word) (s : State) : Out := .next (runLater s h 0x0606 w (bodyTxn 0x0606 courseStartOp))
def execCourseSwap (h : CmdHdr) (w : List Word) (s : State) : Out :=
  .next (runLater s h 0x0607 w (bodyTxnFwd 0x0607 courseSwapOp fun h _ s => [wd (bankCrc s (own s h.port))]))
def execCourseSafe (h : CmdHdr) (w : List Word) (s : State) : Out :=
  .next (runCmd s h 0x0608 w (bodyFwd 0x0608 courseSafeBad doSafeHere))
def execCourseResume (h : CmdHdr) (w : List Word) (s : State) : Out :=
  .next (runLater s h 0x0609 w (bodyTxnFwd 0x0609 courseResumeOp fun _ _ _ => []))
def execCourseStop (h : CmdHdr) (w : List Word) (s : State) : Out :=
  .next (runLater s h 0x060A w (bodyTxnFwd 0x060A courseStopOp fun _ _ _ => []))

end Sys2Proof.Machine
end

