-- ==== Sys2Proof/Machine/Safe.lean ====
section
/-! DEFINITION. FAULTn, the line safety outputs, safe states and detector masks: the shared parts of chapter 12 (R338 to R340, R342
to R344). -/

namespace Sys2Proof.Machine

/-! ### Levels (R327, R334) -/

/-- The place and source of a key of the fault table. -/
def keyLoc (k : Nat) : FaultLoc × Nat :=
  let l := k / 32
  (if l < 600 then .port l else if l < 610 then .region (l - 600) else if l < 620 then .die (l - 610) else .package, k % 32)

/-- The current level of a set source of the fault table. -/
def entryLevel (e : Nat × FaultSrc) : Nat :=
  let x := keyLoc e.1
  min 3 (baseLevel x.1 x.2 + b2n e.2.t + b2n e.2.u)

/-- Whether any status or collector holds a set source at level n or above. -/
def anyAt (s : State) (n : Nat) : Bool := s.faults.any fun e => e.2.sticky && n ≤ entryLevel e

/-! ### FAULTn (R343) -/

/-- Whether a case of R343 holds FAULTn low. -/
def faultnCase (s : State) : Bool :=
  anyAt s 2 || s.safety.clockSafe || s.power.pinHeld || s.clock.state == .clockWait

/-- FAULTn asserted: a new assertion starts a minimum pulse. -/
def assertFaultn (s : State) : State :=
  if s.safety.asserted then s
  else { s with safety := { s.safety with
    asserted := true, relPend := false, pulseEnd := some (nowNs s + 1000 * s.safety.pulse) } }

/-- A release of FAULTn: ignored while a case holds, and kept for the end of the pulse where it still runs. -/
def releaseFaultn (s : State) : State :=
  if !s.safety.asserted || faultnCase s then s
  else if s.safety.pulseEnd.isSome then { s with safety := { s.safety with relPend := true } }
  else { s with safety := { s.safety with asserted := false } }

/-- FAULTN_PULSE_END: the minimum pulse ends; a release that waited takes effect unless a case holds. -/
def execFaultnPulseEnd (s : State) : Out :=
  .next (match s.safety.pulseEnd with
    | none => s
    | some t =>
      let s := atNs s t
      let go := s.safety.relPend && !(faultnCase s)
      { s with safety := { s.safety with pulseEnd := none, relPend := false, asserted := s.safety.asserted && !go } })

/-- FAULTN_RELEASE: RELEASE of register 0x100 (R349). -/
def execFaultnRelease (s : State) : Out := .next (busWrite s 0x30100 releaseFaultn)

/-! ### Line safety outputs (R344) -/

/-- Whether LSO may not be driven. -/
def lsoBarred (s : State) : Bool := s.safety.safeLatch || s.safety.clockSafe || anyAt s 3

/-- LSO_DRIVE_WRITE: a write that sets a bit while barred is ignored and sets LSO_REFUSED. -/
def execLsoDriveWrite (v : BitVec 8) (s : State) : Out :=
  .next (busWrite s 0x30104 fun s =>
    if v != 0 && lsoBarred s then markFresh { s with safety := { s.safety with lsoRefused := true } } 0x30108 1024
    else { s with safety := { s.safety with lsoDrive := v } })

/-- LSO_SET. -/
def bodyLsoSet (_ : CmdHdr) (w : List Word) (s : State) : State × Reply :=
  if fld w 0 31 8 ≠ 0 then (s, .err stInvalid 1)
  else if lsoBarred s then (s, .err stRefused)
  else ({ s with safety := { s.safety with lsoDrive := BitVec.ofNat 8 (prm w 0) } }, .ok)

/-- FAULTN_SET. -/
def bodyFaultnSet (_ : CmdHdr) (w : List Word) (s : State) : State × Reply :=
  if fld w 0 31 10 ≠ 0 ∨ prm w 0 = 0 ∨ 1000 < prm w 0 then (s, .err stInvalid 1)
  else if fld w 1 31 1 ≠ 0 then (s, .err stInvalid 2)
  else
    let s := { s with safety := { s.safety with pulse := prm w 0 } }
    (if bit (prm w 1) 0 then releaseFaultn s else s, .ok)

/-! ### Safe states (R338 to R340) -/

/-- Region safe: safe requests for the region's ports, quick-stop requests with cause 3 for its axes at t (2^-16 ns). -/
def regionSafe (s : State) (r t : Nat) : State :=
  let s := (portsOf r).foldl (fun s p => safeReq s p 2) s
  ((keys s.axes).filter fun a => regionOfAxis a == r).foldl (fun s a => qstopReq s a 3 t) s

/-- Package safe. -/
def packageSafe (s : State) (t : Nat) : State :=
  let s := (List.range (4 * nDies s)).foldl (fun s r => regionSafe s r t) s
  assertFaultn { s with safety := { s.safety with lsoDrive := 0, safeLatch := true } }

/-- The frames on the lines and being cut are lost as every transmitter goes to electrical idle. -/
def dropTx (s : State) : State :=
  (keys s.ports).foldl (fun s p =>
    sleepEnd (modPort (releaseTx s p) p fun x => { x with txd := { x.txd with tx := none, pend := none } }) p) s

/-- The twin courses of a package that is not LEADER withheld, as for a safe request of its own (R265). -/
def withholdTwins (s : State) : State :=
  if s.twin.role = .off ∨ s.twin.role = .leader then s
  else (keys s.ports).foldl (fun s p =>
    if (port s p).ccfg.plane = 3 ∧ (port s p).course.state ≠ 0 then
      { s with mirror := { s.mirror with withheld := s.mirror.withheld.put p true false } }
    else s) s

/-- Clock-loss safe (R340): LSO released, FAULTn low, transmitters idle; package safe as far as clocks allow: every course not OFF
in SAFE with cause 2, every axis not OFF in STOPPED with cause 3, holding its last P. -/
def clockLossSafe (s : State) : State :=
  let s := withholdTwins (dropTx s)
  let s := (keys s.ports).foldl (fun s p =>
    if (port s p).course.state = 0 then s
    else if (port s p).course.state = 3 then modCourse s p fun c => { c with cause := 2 }
    else enterSafe (modCourse s p fun c => { c with startAt := none, safeAtStart := none }) p 2) s
  let s := (keys s.axes).foldl (fun s a =>
    if (axis s a).dyn.state = 0 then s
    else modAxis (setAxisState s a 5 3) a fun x =>
      { x with dyn := { x.dyn with v := 0, a := 0 }
               run := { x.run with cache := [], qstop := none, decided := none, offAt := none, directAt := none } }) s
  assertFaultn { s with safety := { s.safety with lsoDrive := 0, safeLatch := true, clockSafe := true } }

/-! ### Detector masks (R342) -/

/-- Whether the mask of a reset covers a source. -/
def maskCovers (k : ResetKind) (l : FaultLoc) (i : Nat) : Bool :=
  match k with
  | .port p => l == .port p
  | .region r => match l with
    | .port p => p < 512 && p / 64 == r
    | .region q => q == r
    | _ => false
  | .die d => match l with
    | .port p => dieOfPort p == d
    | .region r => r / 4 == d
    | .die e => e == d || i == 11 || i == 12
    | .package => false
  | _ => true

/-- Whether a source is masked now. -/
def masked (s : State) (l : FaultLoc) (i : Nat) : Bool :=
  s.power.masks.any fun m => maskCovers m.1 l i && m.2.all (nowNs s < ·)

/-- The mask of a reset begun, in place of those it covers. -/
def beginMask (s : State) (k : ResetKind) : State :=
  { s with power := { s.power with masks := s.power.masks.filter (fun m => m.1 != k) ++ [(k, none)] } }

/-- The mask of a reset that has ended runs 16 SLOW cycles more. -/
def endMask (s : State) (k : ResetKind) : State :=
  { s with power := { s.power with masks := s.power.masks.map fun m => if m.1 = k then (k, some (nowNs s + 640)) else m } }

/-- RESET_MASK_END: the mask is over, and each C source in it whose condition holds fires as a new episode; not CLOCK_LOSS in the
start-up after POR, which its clocks have yet to end (R361; DEDUCED, log entry 44). -/
def execResetMaskEnd (k : ResetKind) (s : State) : Out :=
  .next (match s.power.masks.find? fun m => m.1 == k with
    | some (_, some t) =>
      let s := atNs s t
      let s := { s with power := { s.power with masks := s.power.masks.filter (fun m => m.1 != k) } }
      s.faults.foldl (fun s e =>
        let x := keyLoc e.1
        if e.2.cond && !e.2.sticky && !(k == .por && x == (.package, 0)) && maskCovers k x.1 x.2 && !(masked s x.1 x.2) then pendFault s x.1 x.2 else s) s
    | _ => s)

def execFaultnSet (h : CmdHdr) (w : List Word) (s : State) : Out := .next (runCmd s h 0x0B04 w bodyFaultnSet)
def execLsoSet (h : CmdHdr) (w : List Word) (s : State) : Out := .next (runCmd s h 0x0B05 w bodyLsoSet)

end Sys2Proof.Machine
end

