-- ==== Sys2Proof/Machine/Hyith.lean ====
section
/-! DEFINITION. Hyith links: control blocks, time words and samples, credit, the system tree and its commands (R61 to R63, R271 to
R276, R280). -/

namespace Sys2Proof.Machine

/-! ### Control blocks (R271, R272) -/

/-- Whether uplink u runs as a Hyith link now. -/
def hyOn (s : State) (u : Nat) : Bool :=
  let x := port s (512 + u)
  u < 8 && hasPort s (512 + u) && pMode x == 2 && x.link.up && portRuns s (512 + u) && clocksRun s

/-- Whether uplink u may send control blocks now: it is neither squelched nor idle under clock-loss safe (R337, R340), and no frame of
unknown end is on the line. -/
def hySends (s : State) (u : Nat) : Bool :=
  let x := port s (512 + u)
  hyOn s u && canSend s (512 + u) && !(x.txd.tx.any fun f => f.now == 0)

/-- A time in short time with fraction, its six bytes: short time, then FRAC. -/
def short48 (t16 : Nat) : List Byte := be 6 (t16 % 2 ^ 48)

/-- A control block sent on uplink u at the first idle position from now on, which it then occupies for 5.12 ns: KIND, P1 to P11
and the block check. -/
def sendBlock (s : State) (u kind : Nat) (pl : List Byte) : State :=
  let x := port s (512 + u)
  let b := by8 kind :: (pl ++ List.replicate (11 - pl.length) 0)
  let s := modPort s (512 + u) fun x => { x with txd := { x.txd with lineFree := max (now16 s) x.txd.lineFree + 335545 } }
  if x.link.squelched || s.safety.clockSafe then s else emit s (.block u (b ++ be 2 (crc16 b)))

/-- A control block received on uplink u: its 14 bytes when it is good and of the KIND its row names. A bad one counts in
BLOCK_BAD_CNT, one of a reserved KIND in UNKNOWN_CNT. -/
def blockIn (s : State) (u kind : Nat) (blk : List Byte) : Except State Unit :=
  if !(hyOn s u) then .error s
  else if blk.length ≠ 14 ∨ crc16 (blk.take 12) ≠ beAt blk 12 2 then
    .error (raise (count s (0xA0020 + 0x100 * u) 1) (0xA000C + 0x100 * u) 1)
  else
    let k := beAt blk 0 1
    if k = 0 ∨ 9 < k then .error (raise (count s (0xA0024 + 0x100 * u) 1) (0xA000C + 0x100 * u) 2)
    else if k ≠ kind then .error s
    else .ok ()

/-! ### The tree (R274 to R276) -/

/-- The time link record of uplink u. -/
def tlink (s : State) (u : Nat) : TimeLink := s.time.links.look u {}
def modTlink (s : State) (u : Nat) (f : TimeLink → TimeLink) : State :=
  { s with time := { s.time with links := s.time.links.put u (f (tlink s u)) {} } }

/-- Whether uplink u is the time source link. -/
def isSource (s : State) (u : Nat) : Bool := s.time.source == 1 && s.time.srcIdx == u

/-- The depth a package takes: the master 0, else one below the sender on its time source link; 0 without one (DEDUCED, log entry
31). -/
def depthRaw (s : State) : Nat := if s.sys.devno = 0 ∨ s.time.source ≠ 1 then 0 else (hlink s s.time.srcIdx).peerDepth + 1
def depth (s : State) : Nat := min 6 (depthRaw s)

/-- The backup position of this package, 1 to 4; 0 where it is none. -/
def backupPos (s : State) : Nat :=
  match s.sys.backups.findIdx? fun b => b == some s.sys.devno with | some i => i + 1 | none => 0

/-- The root as this package knows it: position (0xFF none) and device number. -/
def rootOf (s : State) : Nat × Nat :=
  if s.sys.devno = 0 then (0, 0)
  else if s.sys.acting then (backupPos s, s.sys.devno)
  else if s.time.source = 1 then let l := hlink s s.time.srcIdx; (l.rootPos, l.rootDev)
  else (0xFF, 0)

/-- Whether uplink u is a further link to its peer (R277): the peer's ROOT blocks arrive on another Hyith link too, which is PARENT, or
which has the route ranges or, where neither or both have any, the lower number (DEDUCED, log entry 32). -/
def isFurther (s : State) (u : Nat) : Bool :=
  let l := hlink s u
  l.heard && (List.range 8).any fun v =>
    let m := hlink s v
    v != u && m.heard && m.peerDev == l.peerDev && pMode (port s (512 + v)) == 2 &&
      !(s.twin.role != .off && isTwinLane (512 + v)) &&
      (s.sys.parent == v || (if m.ranges.isEmpty == l.ranges.isEmpty then v < u else l.ranges.isEmpty))

/-- LROLE of uplink u (R280; DEDUCED for codes 2 and 5, log entry 32). -/
def lrole (s : State) (u : Nat) : Nat :=
  if pMode (port s (512 + u)) ≠ 2 then 0
  else if s.twin.role ≠ .off ∧ isTwinLane (512 + u) then 3
  else if s.sys.parent = u then 1
  else if s.sys.standby = u then 4
  else if isFurther s u then 5 else 2

/-- Whether a valid TIME word arrived on link u within HOLD_TO. -/
def twOk (s : State) (u : Nat) : Bool :=
  (hlink s u).wordAt.any fun t => nowNs s ≤ t + 1000 * s.time.params.holdTo

/-! ### Sending time words (R61, R273, R274) -/

/-- The credit a link holds: the command frames it may still send. -/
def credit (l : HLink) : Nat := (l.limit + 65536 - l.sent) % 65536

/-- TIME_WORD_SEND: the words of the next slot of link u, at the first idle opportunity at or after its multiple of 1,024 ns; one
held back past the next multiple takes that one's place. A further link carries no line time (R277). -/
def execTimeWordSend (u : Nat) (s : State) : Out :=
  .next (
    if !(hySends s u) then s
    else
      let i := max ((nowNs s + 1023) / 1024) (tlink s u).wordDue
      let t := max (i * 1024 * 65536) (port s (512 + u)).txd.lineFree
      let e := t / (1024 * 65536)
      let s := at16 s t
      let k := tlink s u
      let q := k.txSeq
      let long := decide (i ≤ e - e % 1024)
      let child := lrole s u == 2
      let further := lrole s u == 5
      let s := if further || (child && 6 < depthRaw s) then s
        else
          let s := sendBlock s u 1 (by8 q :: short48 t)
          modTlink s u fun k => { k with txSeq := (q + 1) % 256, tx := (q, t % 2 ^ 48) :: k.tx.take 15 }
      let s := match (if further then none else k.rxSeq) with
        | some r => sendBlock s u 2 (by8 r :: short48 k.rxT4)
        | none => s
      let s := if long && !further then sendBlock s u 3 (by8 q :: be 6 (t / (65536 * 1000000000))) else s
      let s := if long then
          let r := rootOf s
          sendBlock s u 8 ([by8 r.1, by8 (depth s)] ++ be 3 s.sys.devno ++ be 3 r.2)
        else s
      let l := hlink s u
      let due := l.limitSent != l.rxLimit || 63 ≤ k.slots
      let s := if due then modHlink (sendBlock s u 6 (be 2 l.rxLimit)) u fun l => { l with limitSent := l.rxLimit } else s
      modTlink s u fun k => { k with wordDue := e + 1, slots := if due then 0 else k.slots + 1 })

/-! ### Receiving time words (R62, R63, R276) -/

/-- Whether sequence number n follows o; the first one does. -/
def follows (o : Option Nat) (n : Nat) : Bool := o.all fun x => (x + 1) % 256 == n

/-- A package held in HOLDOVER for HOLD_TO takes STANDBY as its time source when that link carries TIME words under a live root
(R276): no permit is granted. An acting root keeps its own time. -/
def standbySwitch (s : State) (u : Nat) : State :=
  let t := s.time
  if s.sys.standby = u && !s.sys.acting && t.state == .holdover && t.source == 1 && t.srcIdx != u && (hlink s u).rootPos ≤ 4 &&
      decide (t.lastSample + 2000 * t.params.holdTo ≤ nowNs s) then
    let s := { s with time := { t with
      srcIdx := u, samples := [], sampleQ := [], rateHist := [], goodRun := 0, offLarge := false, lastSample := nowNs s } }
    setTState s .acquire false
  else s

/-- TIME_WORD_RECEIVE: a TIME block whose first bit arrives at t16. -/
def execTimeWordReceive (u : Nat) (blk : List Byte) (t16 : Nat) (s : State) : Out :=
  .next (match blockIn s u 1 blk with
    | .error e => e
    | .ok () =>
      let s := at16 s t16
      let q := beAt blk 1 1
      let s := modTlink s u fun k =>
        { k with rxNew := follows k.rxSeq q, rxSeq := some q, rxT3 := beAt blk 2 6, rxT4 := t16 % 2 ^ 48 }
      let s := modHlink s u fun l => { l with wordAt := some (nowNs s) }
      let s := if s.sys.parent = u then { s with sys := { s.sys with lostEp := false } } else s
      standbySwitch s u)

/-- D and the offset of a sample, in 2^-16 ns (R62): t1 to t4 mod 2^48, asymmetry a. Halves below 2^-16 ns are dropped. -/
def linkSample (t1 t2 t3 t4 : Nat) (a : Int) : Int × Int :=
  let d (x y : Nat) : Int := sgn 48 (x + 2 ^ 48 - y)
  let dd := d t4 t1 - d t3 t2
  (dd / 2, (2 * d t3 t4 + dd + a) / 2)

/-- ECHO_RECEIVE: with a new time word, a sample; D is kept for every link, the offset taken on the time source link. -/
def execEchoReceive (u : Nat) (blk : List Byte) (s : State) : Out :=
  .next (match blockIn s u 2 blk with
    | .error e => e
    | .ok () =>
      let k := tlink s u
      let q := beAt blk 1 1
      let s := modTlink s u fun k => { k with echoSeq := some q, rxNew := false }
      match (k.tx.find? fun x => x.1 == q).map (·.2) with
      | none => s
      | some t1 =>
        if !(k.rxNew && follows k.echoSeq q) then s
        else
          let x := linkSample t1 (beAt blk 2 6) k.rxT3 k.rxT4 k.a
          let s := modTlink s u fun k => { k with d := x.1 }
          if isSource s u then { s with time := { s.time with sampleQ := s.time.sampleQ ++ [x.2] } } else s)

/-- EPOCH_RECEIVE: the first epoch word on the time source link gives SEC at its slot's time word. -/
def execEpochReceive (u : Nat) (blk : List Byte) (s : State) : Out :=
  .next (match blockIn s u 3 blk with
    | .error e => e
    | .ok () =>
      let k := tlink s u
      if !(isSource s u) || s.time.secKnown then s
      else
        let at_ := if k.rxSeq = some (beAt blk 1 1) then now16 s - (now16 s - k.rxT4) % 2 ^ 48 else now16 s
        { s with time := { s.time with secKnown := true, epochSec := some (beAt blk 2 6), epochAt := at_ } })

/-- ROOT_RECEIVE: what the peer says of itself and of the root; DEVNO_CLASH, DEPTH_EXCEEDED and ROOT_CHANGE. -/
def execRootReceive (u : Nat) (blk : List Byte) (s : State) : Out :=
  .next (match blockIn s u 8 blk with
    | .error e => e
    | .ok () =>
      let pos := beAt blk 1 1
      let dev := beAt blk 3 3 % 2 ^ 18
      let root := beAt blk 6 3 % 2 ^ 18
      let s := modHlink s u fun l => { l with
        heard := true, peerDev := dev, peerDepth := min 6 (beAt blk 2 1), rootPos := if pos ≤ 4 then pos else 0xFF, rootDev := root,
        belowAt := if pos < backupPos s then some (nowNs s) else l.belowAt }
      let s := if dev = s.sys.devno then raise s (0xA000C + 0x100 * u) 4 else s
      if !(isSource s u) then s
      else
        let deep := decide (6 < depthRaw s)
        let s := if deep && !s.sys.depthEp then raise s (0xA000C + 0x100 * u) 8 else s
        let r := pos * 2 ^ 18 + root + 1
        let changed := s.sys.lastRoot != 0 && s.sys.lastRoot != r
        let s := { s with sys := { s.sys with depthEp := deep, lastRoot := r } }
        if changed then raise s 0xA0804 1 else s)

/-! ### Credit (R273) -/

/-- CREDIT_RECEIVE. -/
def execCreditReceive (u : Nat) (blk : List Byte) (s : State) : Out :=
  .next (match blockIn s u 6 blk with
    | .error e => e
    | .ok () => modHlink s u fun l => { l with limit := beAt blk 1 2 })

/-- HYITH_COMMAND_SEND: the oldest command frame waiting on link u enters its control slot under credit. The control cores make no
frame between a flip B and their resumption: it waits (R383). -/
def execHyithCommandSend (u : Nat) (s : State) : Out :=
  let l := hlink s u
  let c := pMgmtClass (port s (512 + u))
  .next (match l.outQ with
    | [] => s
    | f :: r =>
      if !(hyOn s u) || s.sec.flipped || credit l = 0 || 2 ^ 15 ≤ credit l || !((port s (512 + u)).txd.ctl.look c []).isEmpty then s
      else
        let s := modHlink s u fun l => { l with outQ := r, sent := (l.sent + 1) % 65536 }
        ctlAdd (count s (0xA0028 + 0x100 * u) 1) (512 + u) c f)

/-! ### Backup roots (R276) -/

/-- MASTER_TIMEOUT: a backup whose PARENT has been silent for MASTER_TO, and that no better root has reached for as long, acts as
root; MASTER_LOST is raised when PARENT's silence is reached. -/
def execMasterTimeout (s : State) : Out :=
  let y := s.sys
  let ms := 1000000 * y.masterTo
  let par := max y.setAt ((hlink s y.parent).wordAt.getD 0) + ms
  let low := (s.hlinks.filterMap (·.2.belowAt)).foldl max y.setAt + ms
  .next (
    if backupPos s = 0 ∨ y.acting ∨ 8 ≤ y.parent ∨ !(clocksRun s) then s
    else
      let s := atNs s (if y.lostEp then max par low else par)
      let s := if y.lostEp then s else raise { s with sys := { s.sys with lostEp := true } } 0xA0804 2
      if low ≤ nowNs s then raise { s with sys := { s.sys with acting := true } } 0xA0804 4 else s)

/-- The return of an acting root to the master at its boundary: corrections then run by rate alone. -/
def rootReturn (s : State) (t : Nat) : State :=
  if s.sys.returnAt.any (· ≤ t) then
    { s with
      sys := { s.sys with acting := false, returnAt := none }
      time := { s.time with permit := false, permitSeq := false, stepDefRaised := false } }
  else s

/-- A base time that is no line base cycle boundary, at parameter word i. -/
def lineBad (s : State) (w : List Word) (i : Nat) : Option Reply :=
  match instantAt w i with
  | .error d => some (.err stInvalid d)
  | .ok t => if isBoundary s s.line.baseCt t then none else some (.err stInvalid (i + 1))

def sysRootReturnOp : TxnOp where
  prep := fun _ w s =>
    match lineBad s w 0 with
    | some r => some r
    | none => if s.sys.acting then none else some (.err stWrongState)
  apply := fun _ w c s =>
    if !s.sys.acting then .error (.err stWrongState)
    else
      let b := firstAt (ltAt w 0).1 s.line.baseCt (c + 4000)
      .ok { s := { s with sys := { s.sys with returnAt := some b.1 } }, k := sat32 b.2, at_ := b.1 }
  words := fun _ _ a => [wd a.k]
  report := fun _ _ k _ => lateBit k
  undo := fun _ _ rb m s => if rb ≤ m.at_ then ({ s with sys := { s.sys with returnAt := none } }, 2) else (s, 0)

/-! ### Registers (R280) -/

/-- The word at offset o of the registers of link u. -/
def hyReg (s : State) (u o : Nat) : Nat :=
  let l := hlink s u
  match o with
  | 0x00 => lrole s u + 8 * b2n (twOk s u)
  | 0x04 => l.peerDev + 2 ^ 18 * l.peerDepth
  | 0x08 => credit l
  | o => reg s (0xA0000 + 0x100 * u + o)

/-- The word at offset o of the system registers, from 0x800 on. -/
def sysReg (s : State) (o : Nat) : Nat :=
  match o with
  | 0x800 =>
    let p := (rootOf s).1
    s.sys.devno + 2 ^ 18 * depth s + 2 ^ 21 * (if p ≤ 4 then p else 5) + 2 ^ 24 * b2n s.sys.acting
  | o => reg s (0xA0000 + o)

/-! ### Commands (R278, R306) -/

/-- SYS_QUERY: words 0x800 and 0x804, the backups as SYS_SET carries them, and the link roles, 4 bits per uplink (DESIGN CHOICE,
log entry 33). -/
def bodySysQuery (_ : CmdHdr) (_ : List Word) (s : State) : State × Reply :=
  let b := s.sys.backups.map fun x => match x with | some d => wd (d + 2 ^ 18) | none => 0
  let r := ((List.range (4 * nDies s)).map fun u => lrole s u * 16 ^ u).sum
  (s, .ok ([wd (sysReg s 0x800), wd (sysReg s 0x804)] ++ b ++ [wd r]))

/-- The reply of the first rule a SYS_SET breaks. -/
def sysSetBad (s : State) (w : List Word) : Option Reply :=
  let par := fld w 0 21 18
  let sta := fld w 0 25 22
  let ill (x : Nat) : Bool := 8 ≤ x && x ≤ 14
  let abs (x : Nat) : Bool := x < 8 && !(hasPort s (512 + x))
  if fld w 0 31 26 ≠ 0 ∨ ill par ∨ ill sta then some (.err stInvalid 1)
  else if abs par ∨ abs sta then some (.err stAbsent 1)
  else match [1, 2, 3, 4].find? fun i => fld w i 31 19 != 0 with
    | some i => some (.err stInvalid (i + 1))
    | none =>
      if prm w 5 = 0 ∨ 10000 < prm w 5 ∨ 1000 * prm w 5 < s.time.params.holdTo then some (.err stInvalid 6) else none

/-- SYS_SET (R274). -/
def bodySysSet (_ : CmdHdr) (w : List Word) (s : State) : State × Reply :=
  match sysSetBad s w with
  | some r => (s, r)
  | none =>
    let s := { s with
      hlinks := s.hlinks.mapVals (fun l => { l with belowAt := none }) {}
      sys := { s.sys with
        devno := fld w 0 17 0
        parent := fld w 0 21 18
        standby := fld w 0 25 22
        backups := [1, 2, 3, 4].map fun i => if bit (prm w i) 18 then some (fld w i 17 0) else none
        masterTo := prm w 5
        acting := false
        lostEp := false
        returnAt := none
        setAt := nowNs s } }
    (s, .ok)

/-- SYS_ROUTE_SET (R275). -/
def bodySysRouteSet (h : CmdHdr) (w : List Word) (s : State) : State × Reply :=
  let n := fld w 0 3 0
  if fld w 0 31 4 ≠ 0 ∨ 8 < n then (s, .err stInvalid 1)
  else match (List.range (2 * n)).find? fun i => fld w (1 + i) 31 18 != 0 with
    | some i => (s, .err stInvalid (2 + i))
    | none =>
      (modHlink s (h.port - 512) fun l => { l with
        ranges := (List.range n).map fun i => (prm w (1 + 2 * i), prm w (2 + 2 * i)) }, .ok)

/-- HYITH_QUERY: words 0x00 to 0x30. -/
def bodyHyithQuery (h : CmdHdr) (_ : List Word) (s : State) : State × Reply :=
  (s, .ok ((List.range 13).map fun i => wd (hyReg s (h.port - 512) (4 * i))))

def execSysQuery (h : CmdHdr) (w : List Word) (s : State) : Out := .next (runCmd s h 0x0E01 w bodySysQuery)
def execSysSet (h : CmdHdr) (w : List Word) (s : State) : Out := .next (runCmd s h 0x0E02 w bodySysSet)
def execSysRouteSet (h : CmdHdr) (w : List Word) (s : State) : Out := .next (runCmd s h 0x0E03 w bodySysRouteSet)
def execSysRootReturn (h : CmdHdr) (w : List Word) (s : State) : Out := .next (runLater s h 0x0E04 w (bodyTxn 0x0E04 sysRootReturnOp))
def execHyithQuery (h : CmdHdr) (w : List Word) (s : State) : Out := .next (runCmd s h 0x0E05 w bodyHyithQuery)

end Sys2Proof.Machine
end

