-- ==== Sys2Proof/Machine/Flow.lean ====
section
/-! DEFINITION. The flow table: contexts, placement, policer, recovery, sweep and the commands of the flow group (R173 to R178,
R185, R187 to R205). -/

namespace Sys2Proof.Machine

/-! ### Contexts (R173 to R175) -/

def flow (s : State) (f : Nat) : Ctx := s.traffic.flows.look f {}
def setFlow (s : State) (f : Nat) (c : Ctx) : State :=
  { s with traffic := { s.traffic with flows := s.traffic.flows.put f c {} } }

/-- The words of a context. -/
def ctxWords (c : Ctx) : List Word := [c.w0, c.w1, c.w2, c.w3, c.w4, c.w5, c.w6, c.w7]

/-- The context of eight words. -/
def ctxOf (l : List Word) : Ctx :=
  let g (i : Nat) : Word := l.getD i 0
  { w0 := g 0, w1 := g 1, w2 := g 2, w3 := g 3, w4 := g 4, w5 := g 5, w6 := g 6, w7 := g 7 }

/-- A word with bits [hi:lo] replaced. -/
def setBits (w : Word) (hi lo v : Nat) : Word :=
  wd (w.toNat - bits w.toNat hi lo * 2 ^ lo + v % 2 ^ (hi - lo + 1) * 2 ^ lo)

def cKind (c : Ctx) : Nat := bits c.w0.toNat 3 0
def cNext (c : Ctx) : Nat := bits c.w0.toNat 31 12
/-- STREAM fields. -/
def stRec (c : Ctx) : Nat := bits c.w1.toNat 19 0
def stCnt (c : Ctx) : Nat := bits c.w2.toNat 19 0
def stQueue (c : Ctx) : Nat := bits c.w3.toNat 17 0
def stMaxSdu (c : Ctx) : Nat := bits c.w4.toNat 31 16
def stLast (c : Ctx) : Nat := bits c.w1.toNat 31 20 * 1024 + bits c.w2.toNat 29 20
def stPol (c : Ctx) : Bool := bit c.w0.toNat 8
def stSeqGen (c : Ctx) : Bool := bit c.w0.toNat 9
def stCut (c : Ctx) : Bool := bit c.w0.toNat 6
/-- RECOVERY fields. -/
def rcH (c : Ctx) : Nat := bits c.w1.toNat 21 16
def rcRcnt (c : Ctx) : Nat := bits c.w6.toNat 19 0
def rcAny (c : Ctx) : Bool := bit c.w0.toNat 6

/-- The pointers of a context, in order of its words, each with the kind it must name. -/
def pointers (c : Ctx) : List (Nat × Nat) :=
  match cKind c with
  | 1 => [(cNext c, 2)]
  | 2 => [(cNext c, 3), (stRec c, 4), (stCnt c, 5)]
  | 3 => [(cNext c, 3)]
  | 4 => [(cNext c, 4), (rcRcnt c, 6)]
  | _ => []

/-- Pointer i of a context replaced. -/
def setPointer (c : Ctx) (i v : Nat) : Ctx :=
  match cKind c, i with
  | 1, 0 | 2, 0 | 3, 0 | 4, 0 => { c with w0 := setBits c.w0 31 12 v }
  | 2, 1 => { c with w1 := setBits c.w1 19 0 v }
  | 2, 2 => { c with w2 := setBits c.w2 19 0 v }
  | 4, 1 => { c with w6 := setBits c.w6 19 0 v }
  | _, _ => c

/-- The key of a MATCH. -/
def cKey (c : Ctx) : List Byte := wordsLe [c.w1, c.w2, c.w3, c.w4, c.w5]

/-- The two buckets of a key. -/
def bucket1 (k : List Byte) : Nat := crc32c k % 65536
def bucket2 (k : List Byte) : Nat := crc32c (k ++ [0x5A]) % 65536

/-- The flow IDs of bucket b of die d. -/
def bucketIds (d b : Nat) : List Nat := (List.range 8).map fun i => d * 524288 + 8 * b + i

/-- The flow IDs that the members of open transactions hold, those of command h with parameters w, or those of the others
(R299). -/
def heldFlows (s : State) (own : Bool) (h : CmdHdr) (w : List Word) : List Nat :=
  s.txns.flatMap fun t => (t.members.filter fun m => (decide (m.h = h) && m.w == w) == own).flatMap fun m =>
    m.held.filterMap fun u => match u with | .flow f => some f | _ => none

/-- Used slots of a bucket, taken being slots that are held. -/
def bucketUsed (s : State) (taken : List Nat) (d b : Nat) : Nat :=
  ((bucketIds d b).filter fun f => cKind (flow s f) != 0 || taken.contains f).length

def freeSlot (s : State) (taken : List Nat) (d b : Nat) : Option Nat :=
  (bucketIds d b).find? fun f => cKind (flow s f) == 0 && !(taken.contains f)

/-- The contexts of die d that are not FREE. -/
def dieFlows (s : State) (d : Nat) : List (Nat × Ctx) := s.traffic.flows.filter fun e => dieOfFlow e.1 == d && cKind e.2 != 0

/-- The bucket with the most free slots, the lowest of several: among the buckets in use and the first that is not. -/
def emptiest (s : State) (taken : List Nat) (d : Nat) : Nat :=
  let n := min 65536 ((dieFlows s d).length + taken.length + 1)
  ((List.range n).foldl (fun (a : Nat × Nat) b => let u := bucketUsed s taken d b; if u < a.2 then (b, u) else a) (0, 9)).1

/-- The place of a new context (R175), taken being slots that are held. -/
def placeFor (s : State) (taken : List Nat) (d : Nat) (c : Ctx) : Option Nat :=
  if cKind c = 1 then (freeSlot s taken d (bucket1 (cKey c))).orElse fun _ => freeSlot s taken d (bucket2 (cKey c))
  else freeSlot s taken d (emptiest s taken d)

/-- The MATCH of a key on die d. -/
def matchOf (s : State) (d : Nat) (k : List Byte) : Option Nat :=
  (bucketIds d (bucket1 k) ++ bucketIds d (bucket2 k)).find? fun f => cKind (flow s f) == 1 && cKey (flow s f) == k

/-! ### Counters and events (R200, R205) -/

def fdie (s : State) (d : Nat) : FlowDie := s.traffic.fdie.look d {}
def modFdie (s : State) (d : Nat) (f : FlowDie → FlowDie) : State :=
  { s with traffic := { s.traffic with fdie := s.traffic.fdie.put d (f (fdie s d)) {} } }

/-- An event of flow f: its bit, LAST_FLOW and LAST_KIND. -/
def flowEvent (s : State) (f k : Nat) : State :=
  let d := dieOfFlow f
  raise (modFdie s d fun x => { x with lastFlow := f, lastKind := k }) (dieBase d + 0x8000) (2 ^ k)

/-- Word i of a context, and the context with it replaced. -/
def ctxGet (c : Ctx) (i : Nat) : Nat := ((ctxWords c).getD i 0).toNat
def ctxSet (c : Ctx) (i v : Nat) : Ctx := ctxOf ((ctxWords c).set i (wd v))

/-- The counter in word i of context f raised by n; nothing where f is none for context self. -/
def countCtx (s : State) (self f i n : Nat) : State :=
  if f = self then s
  else
    let c := flow s f
    let o := ctxGet c i
    let s1 := setFlow s f (ctxSet c i (o + n))
    if bit o 31 != bit ((o + n) % 2 ^ 32) 31 then flowEvent s1 f 4 else s1

/-- RX_BYTES of a COUNT. -/
def countBytes (s : State) (self f n : Nat) : State :=
  if f = self then s
  else
    let c := flow s f
    let o := ctxGet c 2 + ctxGet c 3 * 2 ^ 32
    let v := (o + n) % 2 ^ 64
    let s1 := setFlow s f (ctxSet (ctxSet c 2 v) 3 (v / 2 ^ 32))
    if bit o 63 != bit v 63 then flowEvent s1 f 4 else s1

/-- RESETS (half 0) or LATENT_ERRS (half 1) of an RCOUNT, 16 bits each. -/
def countHalf (s : State) (self f half : Nat) : State :=
  if f = self then s
  else
    let c := flow s f
    let lo := 16 * half
    let o := bits c.w7.toNat (lo + 15) lo
    let s1 := setFlow s f { c with w7 := setBits c.w7 (lo + 15) lo (o + 1) }
    if o % 32768 = 32767 then flowEvent s1 f 4 else s1

/-! ### Policer (R187 to R189) -/

/-- The tokens of a STREAM refreshed. -/
def refreshStream (s : State) (f : Nat) : State :=
  let c := flow s f
  let q := curQ s
  let t := min (bits c.w6.toNat 23 0 * 256) (c.w7.toNat + bits c.w5.toNat 23 0 * ((q + 2 ^ 22 - stLast c) % 2 ^ 22))
  setFlow s f { c with w1 := setBits c.w1 31 20 (q / 1024), w2 := setBits c.w2 29 20 q, w7 := wd t }

/-- A frame of charge n bytes at the policer of STREAM f: the state, and whether it passes. -/
def police (s : State) (f n : Nat) : State × Bool :=
  if !(stPol (flow s f)) then (s, true)
  else
    let s := refreshStream s f
    let c := flow s f
    if n * 256 ≤ c.w7.toNat then (setFlow s f { c with w7 := wd (c.w7.toNat - n * 256) }, true)
    else (flowEvent (countCtx s f (stCnt c) 4 1) f 2, false)

/-- R188: the charge of a cut-through frame corrected from c0 to n bytes. -/
def refund (s : State) (f c0 n : Nat) : State :=
  let c := flow s f
  let t := min (bits c.w6.toNat 23 0 * 256 : Int) (max 0 (c.w7.toNat + ((c0 : Int) - n) * 256))
  setFlow s f { c with w7 := wd t.toNat }

/-- The policer's state set anew (R177, R189). -/
def freshStream (s : State) (full : Bool) (c : Ctx) : Ctx :=
  { c with
    w1 := setBits c.w1 31 20 (curQ s / 1024)
    w2 := setBits c.w2 29 20 (curQ s)
    w7 := if full then wd (bits c.w6.toNat 23 0 * 256) else 0 }

/-! ### Recovery (R192 to R197) -/

/-- A reset of RECOVERY f. -/
def recovReset (s : State) (f : Nat) : State :=
  let c := flow s f
  let s := setFlow s f { c with w0 := setBits c.w0 6 6 1, w3 := setBits c.w3 27 20 0 }
  let s := modFdie s (dieOfFlow f) fun x => { x with skew := x.skew.put f false false }
  flowEvent (countHalf s f (rcRcnt c) 0) f 3

/-- The reset timer test of a RECOVERY. -/
def recovTimer (s : State) (f : Nat) : State :=
  let c := flow s f
  if !(rcAny c) && bits c.w3.toNat 10 0 * 1000000 ≤ (shortNs s + 2 ^ 32 - c.w4.toNat) % 2 ^ 32 then recovReset s f else s

/-- The distance of sequence numbers, signed. -/
def seqDist (n r : Nat) : Int := sgn 16 (n + 65536 - r % 65536)

/-- A duplicate discarded. -/
def recovDup (s : State) (f : Nat) : State :=
  let c := flow s f
  countCtx (setFlow s f { c with w7 := wd (sat32 (c.w7.toNat + 1)) }) f (rcRcnt c) 2 1

/-- A rogue frame discarded, and SEQ_SKEW. -/
def recovRogue (s : State) (f : Nat) : State :=
  let c := flow s f
  let n := min 255 (bits c.w3.toNat 27 20 + 1)
  let s := countCtx (setFlow s f { c with w3 := setBits c.w3 27 20 n }) f (rcRcnt c) 4 1
  let lim := bits c.w3.toNat 19 12
  if lim = 0 ∨ n < lim ∨ (fdie s (dieOfFlow f)).skew.look f false = true then s
  else flowEvent (modFdie s (dieOfFlow f) fun x => { x with skew := x.skew.put f true false }) f 0

/-- vector of R193 on number n. -/
def recovVector (s : State) (f n : Nat) : State × Bool :=
  let c := flow s f
  let h := rcH c
  let hist := c.w2.toNat
  let d := seqDist n (bits c.w1.toNat 15 0)
  if rcAny c then
    (setFlow s f { c with w0 := setBits c.w0 6 6 0, w1 := setBits c.w1 15 0 n, w2 := wd (2 ^ h - 1) }, true)
  else if (h : Int) ≤ d ∨ d ≤ -(h : Int) then (recovRogue s f, false)
  else if d ≤ 0 then
    let i := (-d).toNat
    if bit hist i then (recovDup s f, false)
    else (countCtx (setFlow s f { c with w2 := wd (hist + 2 ^ i) }) f (rcRcnt c) 3 1, true)
  else
    let k := d.toNat
    let lost := ((List.range k).filter fun i => !(bit hist (h - 1 - i))).length
    let s := setFlow s f { c with w1 := setBits c.w1 15 0 n, w2 := wd (hist * 2 ^ k % 2 ^ h ||| 1) }
    let s := if lost = 0 then s else countCtx s f (rcRcnt c) 5 lost
    (if 1 < k then countCtx s f (rcRcnt c) 3 1 else s, true)

/-- match of R194 on number n. -/
def recovMatch (s : State) (f n : Nat) : State × Bool :=
  let c := flow s f
  let r := bits c.w1.toNat 15 0
  let c' := { c with w0 := setBits c.w0 6 6 0, w1 := setBits c.w1 15 0 n }
  if rcAny c then (setFlow s f c', true)
  else if n = r then (recovDup s f, false)
  else
    let s := setFlow s f c'
    (if seqDist n r = 1 then s else countCtx s f (rcRcnt c) 3 1, true)

/-- One stage of recovery on a frame with number n, or without one (R192, R196). -/
def recovStage (s : State) (f : Nat) (n : Option Nat) : State × Bool :=
  let s := recovTimer s f
  let c := flow s f
  match n with
  | none => (countCtx s f (rcRcnt c) 6 1, bit c.w0.toNat 5)
  | some n =>
    let r := if bit c.w0.toNat 4 then recovMatch s f n else recovVector s f n
    if !r.2 then r
    else
      let c := flow r.1 f
      (countCtx (setFlow r.1 f { c with w4 := wd (shortNs s), w5 := wd (sat32 (c.w5.toNat + 1)) }) f (rcRcnt c) 1 1, true)

/-- Step 7 of R179 for STREAM f: both stages. -/
def recoverFrame (s : State) (f : Nat) (n : Option Nat) : State × Bool :=
  let r := stRec (flow s f)
  if r = f then (s, true)
  else
    let x := recovStage s r n
    let r2 := cNext (flow s r)
    if !x.2 ∨ r2 = r then x else recovStage x.1 r2 n

/-! ### Egress sets (R185) -/

/-- A replica chain from p, named by self, at most fuel long. -/
def replicas (s : State) : Nat → Nat → Nat → List Nat
  | 0, _, _ => []
  | fuel + 1, self, p => if p = self then [] else p :: replicas s fuel p (cNext (flow s p))

/-- The egress set of STREAM f: queue, and whether the copy carries an R-TAG. -/
def egressSet (s : State) (f : Nat) : List (Nat × Bool) :=
  let c := flow s f
  (if bit c.w0.toNat 4 then [(stQueue c, bit c.w0.toNat 5)] else []) ++
    (replicas s 15 f (cNext c)).map fun r => (bits (flow s r).w1.toNat 17 0, bit (flow s r).w0.toNat 4)

/-! ### Configuration checks (R202) -/

/-- Reserved bits of each word of a context, by kind. -/
def ctxRsv (k : Nat) : List Nat :=
  let o := 0xFFFFFFFF
  match k with
  | 1 => [0xFF0, 0, 0, 0, 0, 0, 0, o]
  | 2 => [0xC00, 0, 0xC0000000, 0xFFFC0000, 0, 0, 0xFF000000, 0]
  | 3 => [0xFE0, 0xFFFC0000, o, o, o, o, o, o]
  | 4 => [0, 0xFFC00000, 0, 0xF0000800, 0, 0, 0xFFF00000, 0]
  | 5 | 6 => [0xFFFFFFF0, 0, 0, 0, 0, 0, 0, 0]
  | _ => [o, o, o, o, o, o, o, o]

/-- Check 1 of a context as a command carries it, with its rate. -/
def ctxCheck1 (c : Ctx) (rate : Nat) : Bool :=
  1 ≤ cKind c && cKind c ≤ 6 && ((ctxWords c).zip (ctxRsv (cKind c))).all (fun x => x.1.toNat &&& x.2 == 0) &&
    (cKind c != 2 || creditOf rate < 2 ^ 24)

def ctxCheck2 (s : State) (f : Nat) (c : Ctx) : Bool :=
  (pointers c).all fun p => p.1 == f || cKind (flow s p.1) == p.2

/-- Check 3: named contexts and the port of a key on the context's die (R13, R174). -/
def ctxCheck3 (f : Nat) (c : Ctx) : Bool :=
  let p := beAt (cKey c) 0 2
  (pointers c).all (fun p => dieOfFlow p.1 == dieOfFlow f) && (cKind c != 1 || 520 ≤ p || dieOfPort p == dieOfFlow f)

/-- The first word of a context that names a context, queue or port the part lacks (R2); loc are its local references. -/
def ctxAbsent (s : State) (c : Ctx) (loc : Nat) : Option Nat :=
  let ptr (i w : Nat) : Option Nat :=
    match (pointers c)[i]? with
    | some p => if bit loc i || hasFlow s p.1 then none else some w
    | none => none
  let p := beAt (cKey c) 0 2
  match cKind c with
  | 1 => (ptr 0 0).orElse fun _ => if p < 520 && !(hasPort s p) then some 1 else none
  | 2 => (((ptr 0 0).orElse fun _ => ptr 1 1).orElse fun _ => ptr 2 2).orElse fun _ =>
      if bit c.w0.toNat 4 && !(hasQueue s (stQueue c)) then some 3 else none
  | 3 => (ptr 0 0).orElse fun _ => if hasQueue s (bits c.w1.toNat 17 0) then none else some 1
  | 4 => (ptr 0 0).orElse fun _ => ptr 1 6
  | _ => none

/-- Whether a replica chain ends within n contexts. -/
def chainEnds (s : State) : Nat → Nat → Nat → Bool
  | 0, self, p => p == self
  | n + 1, self, p => p == self || chainEnds s n p (cNext (flow s p))

def ctxCheck4 (s : State) (f : Nat) (c : Ctx) : Bool :=
  match cKind c with
  | 2 => chainEnds s 15 f (cNext c) && decide ((egressSet s f).map (·.1)).Nodup
  | 3 => chainEnds s 14 f (cNext c)
  | _ => true

def ctxCheck5 (s : State) (f : Nat) (c : Ctx) : Bool :=
  cKind c != 4 || cNext c == f || cNext (flow s (cNext c)) == cNext c

def ctxCheck6 (f : Nat) (c : Ctx) : Bool := cKind c != 2 || !(stCut c) || stRec c == f

def ctxCheck7 (s : State) (f : Nat) (c : Ctx) : Bool :=
  cKind c != 2 || stRec c != f || stSeqGen c ||
    !(bit c.w0.toNat 5 || (replicas s 15 f (cNext c)).any fun r => bit (flow s r).w0.toNat 4)

def ctxCheck8 (c : Ctx) : Bool :=
  match cKind c with
  | 2 => stMaxSdu c == 0 || (64 ≤ stMaxSdu c && stMaxSdu c ≤ 9216)
  | 4 => 2 ≤ rcH c && rcH c ≤ 32 && 1 ≤ bits c.w3.toNat 10 0 && bits c.w3.toNat 10 0 ≤ 2000
  | _ => true

def ctxCheck9 (c : Ctx) : Bool :=
  let k := cKey c
  let b (i : Nat) : Nat := beAt k i 1
  let p := beAt k 0 2
  cKind c != 1 || (1 ≤ b 4 && b 4 ≤ 3 && b 2 < 16 && b 7 == 0 && b 5 < 64 &&
    (b 4 == 3 || (b 5 == 0 && b 6 == 0 && beAt k 14 6 == 0)) && (p == 0x3FF || p < 520))

/-- The first failing check from 2 on, over the contexts of die d as they stand; only contexts of ids are new (R202). -/
def flowChecks (s : State) (d : Nat) : Option Reply :=
  let l := dieFlows s d
  let ok (n : Nat) (f : Nat → Ctx → Bool) : Option Reply :=
    if l.all fun e => f e.1 e.2 then none else some (.err (if n = 3 then stWrongDie else stInvalid) n)
  let ms := (l.filter fun e => cKind e.2 == 1).map fun e => cKey e.2
  [ok 2 (ctxCheck2 s), ok 3 ctxCheck3, ok 4 (ctxCheck4 s), ok 5 (ctxCheck5 s), ok 6 ctxCheck6, ok 7 (ctxCheck7 s),
    ok 8 (fun _ c => ctxCheck8 c), ok 9 (fun _ c => ctxCheck9 c),
    if ms.Nodup then none else some (.err stInvalid 10)].findSome? id

/-! ### FLOW_ADD, FLOW_WRITE, FLOW_DELETE (R175, R176, R189, R203) -/

/-- Context i a command carries, n words each, ctl at j: its control word and eight words, a STREAM's rate turned into CREDIT. -/
def carried (w : List Word) (i : Nat) : Nat × Nat × Ctx :=
  let j := 1 + 9 * i
  let ctl := prm w j
  let c := ctxOf ((w.drop (j + 1)).take 8)
  let rate := bits ctl 31 24 * 2 ^ 32 + c.w5.toNat
  (ctl, rate, if cKind c = 2 then { c with w5 := wd (creditOf rate) } else c)

/-- A new context with its state fields as after a reset. -/
def bornCtx (s : State) (c : Ctx) : Ctx :=
  match cKind c with
  | 1 => { c with w6 := 0 }
  | 2 => freshStream s true { c with w4 := setBits c.w4 15 0 0 }
  | 4 => { c with w0 := setBits (setBits c.w0 6 6 1) 11 11 0, w1 := setBits c.w1 15 0 0, w2 := 0, w3 := setBits c.w3 27 20 0,
                  w4 := 0, w5 := 0, w7 := 0 }
  | 5 | 6 => { w0 := c.w0 }
  | _ => c

/-- The contexts of a FLOW_ADD placed one after the other, in the slots given where it holds them; none where one finds no place. -/
def placeAll (taken : List Nat) (d : Nat) : List Nat → List Ctx → State → Option (State × List Nat)
  | _, [], s => some (s, [])
  | own, c :: r, s => match own.head?.orElse fun _ => placeFor s taken d c with
    | none => none
    | some f => (placeAll taken d (own.drop 1) r (setFlow s f (bornCtx s c))).map fun x => (x.1, f :: x.2)

/-- The places of the contexts of a FLOW_ADD: those its member holds since it was prepared, else places that no other member
holds (R175, R299). -/
def placesOf (h : CmdHdr) (w : List Word) (l : List Ctx) (s : State) : Option (State × List Nat) :=
  placeAll (heldFlows s false h w) h.die (heldFlows s true h w) l s

/-- Whether every local reference of a command names one of its own contexts; one past them names no context (R202 check 2). -/
def localsIn (w : List Word) : Bool :=
  (List.range (fld w 0 4 0)).all fun i =>
    let x := carried w i
    (pointers x.2.2).zipIdx.all fun p => !(bit x.1 p.2) || decide (p.1.1 < fld w 0 4 0)

/-- Local references resolved: position i of the command becomes the flow ID placed there. -/
def resolve (ids : List Nat) (w : List Word) (s : State) : State :=
  ids.zipIdx.foldl (fun s x =>
    let ctl := (carried w x.2).1
    let c := flow s x.1
    setFlow s x.1 ((pointers c).zipIdx.foldl (fun c p => if bit ctl p.2 then setPointer c p.2 (ids.getD p.1.1 0) else c) c)) s

/-- The reply of the first absent context, queue or port a command's contexts name, m the mask of local references. -/
def carriedAbsent (s : State) (w : List Word) (m : Nat) : Option Reply :=
  (List.range (fld w 0 4 0)).findSome? fun i =>
    let x := carried w i
    (ctxAbsent s x.2.2 (x.1 &&& m)).map fun k => .err stAbsent (3 + 9 * i + k)

/-- A FLOW_ADD on the state: the new state and the IDs, or its failure. -/
def flowAddTry (h : CmdHdr) (w : List Word) (s : State) : Except Reply (State × List Nat) :=
  let l := (List.range (fld w 0 4 0)).map (carried w)
  if !(l.all fun x => ctxCheck1 x.2.2 x.2.1) then .error (.err stInvalid 1)
  else if !(localsIn w) then .error (.err stInvalid 2)
  else if let some r := carriedAbsent s w 7 then .error r
  else match placesOf h w (l.map (·.2.2)) s with
    | none => .error (.err stNoSpace)
    | some x =>
      let s1 := resolve x.2 w x.1
      match flowChecks s1 h.die with
      | some r => .error r
      | none => .ok (s1, x.2)

/-- The frames of STREAM f that are still arriving lose the correction of their charge (R176, R188). -/
def forgetCharge (s : State) (f : Nat) : State :=
  (keys s.ports).foldl (fun s p =>
    match (port s p).txd.cutIn with
    | some i => if i.flow = f then modPort s p fun x => { x with txd := { x.txd with cutIn := some { i with charge := none } } } else s
    | none => s) s

/-- Context f made FREE; it ends an episode of SEQ_SKEW. -/
def freeCtx (s : State) (f : Nat) : State :=
  modFdie (setFlow (forgetCharge s f) f {}) (dieOfFlow f) fun x => { x with skew := x.skew.put f false false }

/-- The effective rate of a CREDIT, in b/s (R187, R208): FLOW_QUERY and QUEUE_QUERY give the CREDIT it follows from. -/
def effectiveRate (credit : Nat) : Nat := credit * 1000000000 / 2 ^ 15

/-- REPORT of a FLOW_ADD or FLOW_WRITE: SMALL_BURST (R202). -/
def smallBurst (w : List Word) : Nat :=
  let small (c : Ctx) : Bool :=
    cKind c == 2 && stPol c && bits c.w6.toNat 23 0 < (if stMaxSdu c = 0 then 1522 else stMaxSdu c)
  if (List.range (fld w 0 4 0)).any fun i => small (carried w i).2.2 then 4 else 0

def flowAddOp : TxnOp where
  prep := fun h w s =>
    match (countBad w 0).orElse fun _ =>
        ((List.range (fld w 0 4 0)).find? fun i => fld w (1 + 9 * i) 23 3 != 0).map fun i => .err stInvalid (2 + 9 * i) with
    | some r => some r
    | none => match flowAddTry h w s with | .error r => some r | .ok _ => none
  apply := fun h w _ s =>
    match flowAddTry h w s with
    | .error r => .error r
    | .ok x => .ok { s := x.1, undo := x.2.map fun f => .flow f {} }
  words := fun _ _ a => a.undo.filterMap fun u => match u with | .flow f _ => some (wd f) | _ => none
  holds := fun h w s => match flowAddTry h w s with | .ok x => x.2.map .flow | .error _ => []
  report := fun _ w _ _ => smallBurst w
  undo := fun _ _ _ m s =>
    (m.undo.foldl (fun s u => match u with | .flow f _ => freeCtx s f | _ => s) s, 1)

/-- A context written: its settings from n, its state and counters from o (R176, R189). -/
def writtenCtx (s : State) (fill : Bool) (o n : Ctx) : Ctx :=
  match cKind n with
  | 1 => { n with w6 := o.w6 }
  | 2 =>
    let c := { n with
      w1 := setBits n.w1 31 20 (stLast o / 1024), w2 := setBits n.w2 29 20 (stLast o), w4 := setBits n.w4 15 0 o.w4.toNat
      w7 := o.w7 }
    if o.w5 = n.w5 ∧ o.w6 = n.w6 ∧ stPol o = stPol n then c else freshStream s fill c
  | 4 => { n with
      w0 := setBits (setBits n.w0 6 6 (b2n (rcAny o))) 11 11 (b2n (bit o.w0.toNat 11)), w1 := setBits n.w1 15 0 o.w1.toNat
      w2 := wd (o.w2.toNat % 2 ^ rcH n), w3 := setBits n.w3 27 20 (bits o.w3.toNat 27 20), w4 := o.w4, w5 := o.w5, w7 := o.w7 }
  | 5 | 6 => o
  | _ => n

/-- Context f written: a policer that is set anew owes nothing to a frame still arriving (R188, R189). -/
def writeCtx (s : State) (fill : Bool) (f : Nat) (n : Ctx) : State :=
  let o := flow s f
  let s := if o.w5 = n.w5 ∧ o.w6 = n.w6 ∧ stPol o = stPol n then s else forgetCharge s f
  setFlow s f (writtenCtx s fill o n)

/-- A FLOW_WRITE on the state. -/
def flowWriteTry (h : CmdHdr) (w : List Word) (s : State) : Except Reply State :=
  let l := (List.range (fld w 0 4 0)).map fun i => (fld w (1 + 9 * i) 19 0, (carried w i).2)
  if !(l.all fun x => ctxCheck1 x.2.2 x.2.1 && cKind x.2.2 == cKind (flow s x.1)) then .error (.err stInvalid 1)
  else if let some r := carriedAbsent s w 0 then .error r
  else
    let s1 := l.foldl (fun s x => writeCtx s (bit (prm w 0) 5) x.1 x.2.2) s
    match flowChecks s1 h.die with
    | some r => .error r
    | none => .ok s1

def flowWriteOp : TxnOp where
  prep := fun h w s =>
    match (countBad w 32).orElse fun _ => idsBad (fld w 0 4 0) 20 (hasFlow s) dieOfFlow h w 9 with
    | some r => some r
    | none => match flowWriteTry h w s with | .error r => some r | .ok _ => none
  apply := fun h w _ s =>
    match flowWriteTry h w s with
    | .error r => .error r
    | .ok s1 => .ok {
        s := s1
        undo := (List.range (fld w 0 4 0)).map fun i => .flow (fld w (1 + 9 * i) 19 0) (flow s (fld w (1 + 9 * i) 19 0)) }
  report := fun _ w _ _ => smallBurst w
  undo := fun _ w _ m s =>
    (m.undo.foldl (fun s u => match u with
      | .flow f c => writeCtx s (bit (prm w 0) 5) f c
      | _ => s) s, 1)

/-- Whether a pointer of the die or a port default names context f. -/
def named (s : State) (f : Nat) : Bool :=
  ((dieFlows s (dieOfFlow f)).any fun e => e.1 != f && (pointers e.2).any fun p => p.1 == f) ||
    s.ports.any fun e => bit e.2.ident.w0.toNat 22 && e.2.ident.dflt == f

/-- Contexts freed in order; the word of the first that is FREE or still named. -/
def deleteAll : List Nat → Nat → State → Except Reply State
  | [], _, s => .ok s
  | f :: r, i, s =>
    if cKind (flow s f) = 0 then .error (.err stInvalid i)
    else if named s f then .error (.err stWrongState i)
    else deleteAll r (i + 1) (freeCtx s f)

/-- The IDs of a command whose parameters are IDs. -/
def idsOf (hi : Nat) (w : List Word) : List Nat := (List.range (fld w 0 4 0)).map fun i => fld w (1 + i) hi 0

def flowDeleteOp : TxnOp where
  prep := fun h w s =>
    match (countBad w 0).orElse fun _ => idsBad (fld w 0 4 0) 20 (hasFlow s) dieOfFlow h w 1 with
    | some r => some r
    | none => match deleteAll (idsOf 19 w) 2 s with | .error r => some r | .ok _ => none
  apply := fun _ w _ s =>
    match deleteAll (idsOf 19 w) 2 s with
    | .error r => .error r
    | .ok s1 => .ok {
        s := s1
        undo := ((idsOf 19 w).map fun f => .flow f (flow s f)) ++
          ((idsOf 19 w).filter fun f => (fdie s (dieOfFlow f)).skew.look f false).map fun f => .skew f }
  undo := fun _ _ _ m s =>
    (m.undo.foldl (fun s u => match u with
      | .flow f c => setFlow s f c
      | .skew f => modFdie s (dieOfFlow f) fun x => { x with skew := x.skew.put f true false }
      | _ => s) s, 1)

/-! ### The other commands (R181, R198, R199, R203) -/

/-- Whether a profile of METHOD m and MASK k is allowed. -/
def profOk (m k : Nat) : Bool := m ≤ 3 && !((m == 1 || m == 2) && bits k 6 1 != 0)

/-- FLOW_PORT_SET. -/
def bodyFlowPortSet (h : CmdHdr) (w : List Word) (s : State) : State × Reply :=
  let w0 := prm w 0
  let d := fld w 1 19 0
  if bits w0 31 23 ≠ 0 ∨ !(profOk (bits w0 2 0) (bits w0 10 3)) ∨ !(profOk (bits w0 13 11) (bits w0 21 14)) then (s, .err stInvalid 1)
  else if fld w 1 31 20 ≠ 0 then (s, .err stInvalid 1)
  else if bit w0 22 ∧ hasFlow s d = false then (s, .err stAbsent 2)
  else if bit w0 22 ∧ cKind (flow s d) ≠ 2 then (s, .err stInvalid 2)
  else if bit w0 22 ∧ dieOfFlow d ≠ dieOfPort h.port then (s, .err stWrongDie 3)
  else (modPort s h.port fun x => { x with ident := { w0 := w.getD 0 0, dflt := d } }, .ok)

/-- FLOW_LATENT_SET. -/
def bodyFlowLatentSet (h : CmdHdr) (w : List Word) (s : State) : State × Reply :=
  let l : Latent := { paths := fld w 0 6 3, diff := fld w 1 15 0, test := fld w 1 23 16, reset := fld w 2 7 0 }
  if fld w 0 31 7 ≠ 0 ∨ l.paths < 2 ∨ 8 < l.paths then (s, .err stInvalid 1)
  else if fld w 1 31 24 ≠ 0 ∨ l.test = 0 then (s, .err stInvalid 2)
  else if fld w 2 31 8 ≠ 0 ∨ l.reset = 0 then (s, .err stInvalid 3)
  else ({ s with traffic := { s.traffic with latent := s.traffic.latent.put (8 * h.die + fld w 0 2 0) l {} } }, .ok)

def flowRecovResetOp : TxnOp where
  prep := fun h w s =>
    match (countBad w 0).orElse fun _ => idsBad (fld w 0 4 0) 20 (hasFlow s) dieOfFlow h w 1 with
    | some r => some r
    | none => ((idsOf 19 w).zipIdx.find? fun f => cKind (flow s f.1) != 4).map fun f => .err stInvalid (f.2 + 2)
  apply := fun _ w c s => .ok { s := (idsOf 19 w).foldl recovReset s, at_ := c }
  undo := fun _ _ _ _ s => (s, 0)

/-- FLOW_QUERY. -/
def bodyFlowQuery (h : CmdHdr) (w : List Word) (s : State) : State × Reply :=
  if fld w 0 31 1 ≠ 0 then (s, .err stInvalid 1)
  else if bit (prm w 0) 0 then
    match matchOf s h.die (wordsLe ((w.drop 1).take 5)) with
    | some f => (s, .ok (ctxWords (flow s f)))
    | none => (s, .err stAbsent 2)
  else if fld w 1 31 20 ≠ 0 then (s, .err stInvalid 2)
  else if !(hasFlow s (prm w 1)) then (s, .err stAbsent 2)
  else if dieOfFlow (prm w 1) ≠ h.die then (s, .err stWrongDie 2)
  else (s, .ok (ctxWords (flow s (prm w 1))))

/-- FLOW_COUNT_READ; CLEAR zeroes the counters in the same instant. -/
def bodyFlowCountRead (h : CmdHdr) (w : List Word) (s : State) : State × Reply :=
  match (countBad w (2 ^ 31)).orElse fun _ => idsBad (fld w 0 4 0) 20 (hasFlow s) dieOfFlow h w 1 with
  | some r => (s, r)
  | none =>
    let l := idsOf 19 w
    match l.zipIdx.find? fun f => cKind (flow s f.1) != 5 && cKind (flow s f.1) != 6 with
    | some f => (s, .err stInvalid (f.2 + 2))
    | none =>
      let r := l.flatMap fun f => ctxWords (flow s f)
      (if bit (prm w 0) 31 then l.foldl (fun s f => setFlow s f { w0 := (flow s f).w0 }) s else s, .ok r)

/-- FLOW_TABLE_QUERY. -/
def bodyFlowTableQuery (h : CmdHdr) (w : List Word) (s : State) : State × Reply :=
  let k := wordsLe ((w.drop 1).take 5)
  if fld w 0 31 1 ≠ 0 then (s, .err stInvalid 1)
  else if bit (prm w 0) 0 ∧ beAt k 0 2 < 520 ∧ hasPort s (beAt k 0 2) = false then (s, .err stAbsent 2)
  else (s, .ok [wd (524288 - (dieFlows s h.die).length),
    if bit (prm w 0) 0 then wd (bucketUsed s [] h.die (bucket1 k) + 16 * bucketUsed s [] h.die (bucket2 k)) else 0])

/-! ### The sweep (R178, R195, R199) -/

/-- SWEEP_VISIT. -/
def execSweepVisit (v : SweepTarget) (s : State) : Out :=
  .next (match v with
    | .flow f =>
      let c := flow s f
      if !(dieRuns s (dieOfFlow f)) || !(clocksRun s) then s
      else if cKind c = 2 ∧ stPol c = true then refreshStream s f
      else if cKind c = 4 then recovTimer s f
      else s
    | .queue q => if dieRuns s (dieOfQueue q) && clocksRun s then sweepQueue s q else s
    | .service p k => if portRuns s p && clocksRun s && decide (k < 8) then sweepService s p k else s
    | .portShaper p => if portRuns s p && clocksRun s then sweepPort s p else s)

/-- The latent error test of RECOVERY f at the end of pass k, and its latent reset. -/
def latentTest (s : State) (k f : Nat) : State :=
  let c := flow s f
  let l := s.traffic.latent.look (8 * dieOfFlow f + bits c.w0.toNat 10 8) {}
  if cKind c ≠ 4 ∨ bit c.w0.toNat 7 = false then s
  else
    let diff := (((c.w5.toNat * (l.paths - 1) : Nat) : Int) - c.w7.toNat).natAbs
    let s := if k % l.test = 0 ∧ l.diff < diff then
        flowEvent (countHalf (setFlow s f { c with w0 := setBits c.w0 11 11 1 }) f (rcRcnt c) 1) f 1
      else s
    if k % l.reset = 0 then
      let c := flow s f
      setFlow s f { c with w0 := setBits c.w0 11 11 0, w5 := 0, w7 := 0 }
    else s

/-- SWEEP_PASS_END. -/
def execSweepPassEnd (d : Nat) (s : State) : Out :=
  let k := (fdie s d).sweepNo
  .next (
    if !(dieRuns s d) || !(clocksRun s) then s
    else
      let s := (dieFlows s d).foldl (fun s e => latentTest s k e.1) s
      modFdie s d fun x => { x with sweepNo := (k + 1) % 2 ^ 32 })

/-- The exit from DIE-PARK (R177): policers full, every RECOVERY reset. -/
def flowUnpark (s : State) (d : Nat) : State :=
  (dieFlows s d).foldl (fun s e =>
    if cKind e.2 = 2 ∧ stPol e.2 = true then setFlow s e.1 (freshStream s true (flow s e.1))
    else if cKind e.2 = 4 then recovReset s e.1 else s) s

/-- The word at offset o of a die's flow block. -/
def flowReg (s : State) (d o : Nat) : Nat :=
  match o with
  | 0x008 => (fdie s d).lastFlow + 2 ^ 20 * (fdie s d).lastKind
  | 0x00C => (fdie s d).sweepNo
  | o => reg s (dieBase d + 0x8000 + o)

def execFlowQuery (h : CmdHdr) (w : List Word) (s : State) : Out := .next (runCmd s h 0x0801 w bodyFlowQuery)
def execFlowAdd (h : CmdHdr) (w : List Word) (s : State) : Out := .next (runCmd s h 0x0802 w (bodyJoin 0x0802 flowAddOp))
def execFlowWrite (h : CmdHdr) (w : List Word) (s : State) : Out := .next (runCmd s h 0x0803 w (bodyJoin 0x0803 flowWriteOp))
def execFlowDelete (h : CmdHdr) (w : List Word) (s : State) : Out := .next (runCmd s h 0x0804 w (bodyJoin 0x0804 flowDeleteOp))
def execFlowPortSet (h : CmdHdr) (w : List Word) (s : State) : Out := .next (runCmd s h 0x0805 w bodyFlowPortSet)
def execFlowLatentSet (h : CmdHdr) (w : List Word) (s : State) : Out := .next (runCmd s h 0x0806 w bodyFlowLatentSet)
def execFlowRecovReset (h : CmdHdr) (w : List Word) (s : State) : Out :=
  .next (runLater s h 0x0807 w (bodyTxn 0x0807 flowRecovResetOp))
def execFlowCountRead (h : CmdHdr) (w : List Word) (s : State) : Out := .next (runCmd s h 0x0808 w bodyFlowCountRead)
def execFlowTableQuery (h : CmdHdr) (w : List Word) (s : State) : Out := .next (runCmd s h 0x0809 w bodyFlowTableQuery)

end Sys2Proof.Machine
end

