-- ==== Sys2Proof/Machine/Ingress.lean ====
section
/-! DEFINITION. Arriving frames: the MAC, interception, identification, the stream's steps, cut-through and reassembly (R36, R38,
R163, R167 to R169, R179 to R186, R191, R234 to R236, R268, R273). -/

namespace Sys2Proof.Machine

/-! ### Headers (R182) -/

/-- VID, PCP and DEI of the outer tag; the port's defaults where the frame has none. -/
def vidOf (x : Port) (b : List Byte) : Nat :=
  let v := beAt b 14 2 % 4096
  if tagEnd b = 12 ∨ v = 0 then pDefVid x else v
def pcpOf (x : Port) (b : List Byte) : Nat := if tagEnd b = 12 then pDefPcp x else beAt b 14 2 / 8192
def deiOf (b : List Byte) : Bool := tagEnd b != 12 && bit (beAt b 14 2) 12

/-- Whether a frame is IPv4, and whether PROF_IP applies to it. -/
def isIpv4 (b : List Byte) : Bool := beAt b (typeAt b) 2 == 0x0800
def profIp (b : List Byte) : Bool :=
  let h := typeAt b + 2
  isIpv4 b && beAt b h 1 / 16 == 4 && 5 ≤ beAt b h 1 % 16 && beAt b (h + 6) 2 % 8192 == 0

/-- METHOD and MASK of the profile that applies to a frame. -/
def profileOf (x : Port) (b : List Byte) : Nat × Nat :=
  let w := x.ident.w0.toNat
  if profIp b then (bits w 13 11, bits w 21 14) else (bits w 2 0, bits w 10 3)

/-- The lookup key of a frame on port p. -/
def keyOf (p : Nat) (x : Port) (b : List Byte) : List Byte :=
  let m := (profileOf x b).1
  let k := (profileOf x b).2
  let h := typeAt b + 2
  let ip := m == 3 && isIpv4 b
  let g (i : Nat) (o n : Nat) : List Byte := if ip && !(bit k i) then be n (beAt b o n) else List.replicate n 0
  let proto := beAt b (h + 9) 1
  let l4 := h + 4 * (beAt b h 1 % 16)
  let has := ip && (proto == 6 || proto == 17 || proto == 132)
  let mac := if m = 1 then b.take 6 else if m = 2 then (b.drop 6).take 6 else []
  be 2 (if bit k 7 then 0x3FF else p) ++ be 2 (if bit k 0 then 0 else vidOf x b) ++ [by8 m] ++
    (if ip && !(bit k 3) then [by8 (beAt b (h + 1) 1 / 4)] else [0]) ++ g 4 (h + 9) 1 ++ [0] ++
    (if m = 3 then g 1 (h + 12) 4 ++ g 2 (h + 16) 4 else mac ++ [0, 0]) ++
    (if has then g 5 l4 2 ++ g 6 (l4 + 2) 2 else [0, 0, 0, 0])

/-- How many bytes of a frame its identification fields take: to the last byte its key takes, and to the end of an R-TAG directly
after its tags (R184). -/
def idEnd (x : Port) (b : List Byte) : Nat :=
  let m := (profileOf x b).1
  let k := (profileOf x b).2
  let n := tagEnd b
  let h := typeAt b + 2
  let l4 := h + 4 * (beAt b h 1 % 16)
  let proto := beAt b (h + 9) 1
  let has := proto == 6 || proto == 17 || proto == 132
  let f (c : Bool) (e : Nat) : Nat := if c then e else 0
  let ip := if m = 3 && isIpv4 b then
      [f (!(bit k 3)) (h + 2), f (!(bit k 4)) (h + 10), f (!(bit k 1)) (h + 16), f (!(bit k 2)) (h + 20),
        f (has && !(bit k 5)) (l4 + 2), f (has && !(bit k 6)) (l4 + 4)]
    else []
  ([f (m = 1) 6, f (m = 2) 12, f (m != 0 && !(bit k 0) && n != 12) 16, f (beAt b n 2 = 0xF1C1) (n + 6)] ++ ip).foldl max 0

/-! ### Identification (R181, R183) -/

/-- The STREAM of a frame with its counts, or none where it is discarded. -/
def identify (s : State) (p : Nat) (b : List Byte) : State × Option Nat :=
  let x := port s p
  let m := (profileOf x b).1
  let s := if profIp b && m != 0 then countPort s p 0x310 1 else s
  match (if m = 0 then none else matchOf s (dieOfPort p) (keyOf p x b)) with
  | some f =>
    let c := flow s f
    let o := c.w6.toNat
    let s := setFlow s f { c with w6 := wd (o + 1) }
    let s := if o % 2 ^ 31 = 2 ^ 31 - 1 then flowEvent s f 4 else s
    (countPort s p 0x300 1, some (cNext c))
  | none =>
    if bit x.ident.w0.toNat 22 then (countPort s p 0x304 1, some x.ident.dflt) else (countPort s p 0x308 1, none)

/-- The STREAM a frame would take, without counting. -/
def streamOf (s : State) (p : Nat) (b : List Byte) : Option Nat :=
  let x := port s p
  match (if (profileOf x b).1 = 0 then none else matchOf s (dieOfPort p) (keyOf p x b)) with
  | some f => some (cNext (flow s f))
  | none => if bit x.ident.w0.toNat 22 then some x.ident.dflt else none

/-! ### Sequence numbers (R191) -/

/-- The number of a frame's R-TAG, where its STREAM decodes it. -/
def numOf (c : Ctx) (f : Nat) (b : List Byte) : Option Nat :=
  if (stRec c ≠ f ∨ stSeqGen c = true) ∧ beAt b (tagEnd b) 2 = 0xF1C1 then some (beAt b (tagEnd b + 4) 2) else none

/-- A frame of fewer than 64 bytes padded, its FCS computed anew (R233). -/
def padded (b : List Byte) : List Byte :=
  if 64 ≤ b.length then b else refcs (b.take (b.length - 4) ++ List.replicate (64 - b.length) 0 ++ [0, 0, 0, 0])

/-- A frame without its R-TAG, FCS computed anew, padded to 64 bytes where it is shorter then (DEDUCED, log entry 138). -/
def stripTag (b : List Byte) : List Byte := let n := tagEnd b; padded (refcs (b.take n ++ b.drop (n + 6)))

/-- Step 8: the generated number, which replaces a decoded one. -/
def genSeq (s : State) (f : Nat) (n : Option Nat) : State × Option Nat :=
  let c := flow s f
  if stSeqGen c then
    let g := bits c.w4.toNat 15 0
    (setFlow s f { c with w4 := setBits c.w4 15 0 (g + 1) }, some g)
  else (s, n)

/-! ### Storage (R185, R191, R218, R219) -/

/-- The transmitted-frame count of STREAM f, the TAG of its copies without a number. A flow without a COUNT has none: its TAG is 0 (DESIGN
CHOICE, log entry 139). -/
def countTag (s : State) (f : Nat) : Nat :=
  let c := flow s f
  if stCnt c = f then 0 else ctxGet (flow s (stCnt c)) 6

/-- A frame of a STREAM as held, with its TAG. -/
def heldFrame (s : State) (p t16 f tag : Nat) (b : List Byte) (num : Option Nat) (strip : Bool) : Frame :=
  let x := port s p
  { bytes := if strip then stripTag b else b, port := p, pcp := some (pcpOf x b), num := num, flow := f
    tsTag := tag
    rx16 := t16 - x.time.ingress.toNat }

/-- A copy of frame g with key k (its number without the die) offered to queue q; one that comes to the head there is tested. -/
def storeCopy (g : Frame) (len : Nat) (dei ts : Bool) (k : Nat) (s : State) (q : Nat × Bool) : State :=
  let key := 2 * k + dieOfQueue q.1
  let s := admitCopy s q.1 key g { frame := key, rtag := q.2, ts := ts } len dei
  if (copies s q.1).head?.any (fun c => c.frame == key && !c.wait) then testHead s q.1 else s

/-- A new frame key. -/
def newKey (s : State) : State := { s with traffic := { s.traffic with nextKey := s.traffic.nextKey + 1 } }

/-- Copies of a frame offered to queues: one held frame on each die. -/
def storeCopies (s : State) (g : Frame) (len : Nat) (dei ts : Bool) (l : List (Nat × Bool)) : State :=
  l.foldl (storeCopy g len dei ts s.traffic.nextKey) (newKey s)

/-- Steps 5 to 9 of R179 for a stored frame of STREAM f. -/
def streamSteps (s : State) (p t16 f : Nat) (b : List Byte) : State :=
  let c := flow s f
  let n := b.length
  let s := countBytes (countCtx s f (stCnt c) 1 1) f (stCnt c) n
  if stMaxSdu c ≠ 0 ∧ stMaxSdu c < n then countCtx s f (stCnt c) 5 1
  else
    let x := police s f n
    if !x.2 then x.1
    else
      let num := numOf c f b
      let y := recoverFrame x.1 f num
      if !y.2 then y.1
      else
        let z := genSeq y.1 f num
        let l := egressSet z.1 f
        if l.isEmpty then countCtx z.1 f (stCnt c) 7 1
        else
          let s := countCtx z.1 f (stCnt c) 6 1
          let s := if stCut c then l.foldl (fun s q => if (qcfg s q.1).port = 0x3FF then s else countPort s (qcfg s q.1).port 0x42C 1) s
            else s
          storeCopies s (heldFrame s p t16 f (countTag s f) b z.2 num.isSome) n (deiOf b) (bit c.w0.toNat 7) l

/-! ### Twin frames (R268) -/

/-- The twin course of die d with a COURSE_ID: the port that owns it. -/
def twinPort (s : State) (d id : Nat) : Option Nat :=
  (keys s.ports).find? fun p => p < 512 && dieOfPort p == d && (port s p).ccfg.plane == 3 && (port s p).ccfg.id == id

/-- The size of the record that bytes b begin with, on lane p; none for a reserved or unknown one. -/
def recSize (s : State) (p : Nat) (b : List Byte) : Option Nat :=
  match beAt b 0 1 with
  | 1 => match twinPort s (dieOfPort p) (beAt b 1 2) with
    | none => none
    | some o => ((sizesOf s o (b2n (port s o).course.bank) (4 + beAt b 5 1 % 4))[beAt b 6 1]?).map (· + 15)
  | 2 => some 72
  | 3 => some (8 + 4 * beAt b 2 2)
  | 4 => some 88
  | _ => none

/-- Up to n records of a frame, o bytes into it; t0 its arrival and q its byte time in Q. -/
def splitRecs (s : State) (p t0 q : Nat) : Nat → Nat → List Byte → State
  | 0, _, _ => s
  | n + 1, o, b => match recSize s p b with
    | none => count s 0x60020 1
    | some k =>
      if b.length < k then count s 0x60020 1
      else
        let r : TwinRec := { lane := p, t := t0 + q * (o + k) / 100, bytes := b.take k }
        let s := { s with mirror := { s.mirror with recQ := s.mirror.recQ ++ [r] } }
        splitRecs s p t0 q n (o + k) (b.drop k)

/-- A twin frame on uplink p: its records, or its discard. -/
def twinFrameIn (s : State) (p t16 : Nat) (b : List Byte) : State :=
  if !(isTwinLane p) ∨ beAt b 16 1 ≠ 1 ∨ beAt b 17 1 = 0 then count s 0x60020 1
  else if s.twin.role = .off then s
  else splitRecs s p t16 (lineQ p (port s p)) (beAt b 17 1) 22 ((b.take (b.length - 4)).drop 22)

/-! ### Interception (R38, R180, R236, R273) -/

/-- Frames waiting in the control cores' input queue. -/
def inputUsed (s : State) : Nat := s.mgmtQ.length + s.hyithQ.length

/-- A command frame for the control cores; payload at o. One for the other die's pair crosses to it whether or not the die bridge is up
(DESIGN CHOICE: R38 gives no loss; log entry 174). -/
def interceptCmd (s : State) (p t16 o : Nat) (b : List Byte) : State :=
  let rx := rxStamp (port s p) t16
  let s := countPort s p 0x30C 1
  let pl := (b.take (b.length - 4)).drop o
  let hy := isUplink p && pMode (port s p) == 2
  let s := if hy then count s (0xA002C + 0x100 * (p - 512)) 1 else s
  if 256 ≤ inputUsed s then raisePort (countPort s p 0x15C 1) p 0x024 64
  else if hy then
    let w := beAt pl 0 4
    { s with hyithQ := s.hyithQ ++
        [{ uplink := p - 512, origin := w % 2 ^ 18, hops := w / 2 ^ 18 % 16, bytes := pl.drop 4, rx16 := rx }] }
  else
    { s with mgmtQ := s.mgmtQ ++
        [{ port := p, sa := BitVec.ofNat 48 (beAt b 6 6), tags := (b.take (tagEnd b)).drop 12, bytes := pl, rx16 := rx }] }

/-- Whether a frame is a time protocol message that the control cores take on port p. -/
def isPtp (x : Port) (b : List Byte) : Bool :=
  let role := bits x.time.cfg.toNat 1 0
  let h := typeAt b + 2
  let l4 := h + 4 * (beAt b h 1 % 16)
  (beAt b (typeAt b) 2 == 0x88F7 && (role == 1 || role == 2)) ||
    (role == 2 && bit x.time.cfg.toNat 12 && profIp b && beAt b (h + 9) 1 == 17 &&
      (beAt b (l4 + 2) 2 == 319 || beAt b (l4 + 2) 2 == 320))

/-- A message of the control cores for a control slot. Between B and the resumption of an activation they send none: it leaves at the
resumption (R383). -/
def coreSend (s : State) (p c : Nat) (f : CtlFrame) : State :=
  if s.sec.flipped then { s with sec := { s.sec with due := s.sec.due ++ [(p, c, f)] } } else ctlAdd s p c f

/-- A time protocol message taken by the control cores with its timestamp (R59). One of another domain and a management message are
discarded and counted; a delay request is answered. The message's fields lie as the standards that R59 names have them, and the answer's
content is theirs (PRESUMED, log entry 137). -/
def ptpIn (s : State) (p t16 : Nat) (b : List Byte) : State :=
  let x := port s p
  let c := x.time.cfg.toNat
  let h := typeAt b + 2
  let o := if beAt b (typeAt b) 2 = 0x88F7 then h else h + 4 * (beAt b h 1 % 16) + 8
  let m := (b.take (b.length - 4)).drop o
  let rx := rxStamp x t16
  let s := countPort s p 0x30C 1
  let k := beAt m 0 1 % 16
  if beAt m 4 1 ≠ bits c 11 4 ∨ k = 13 then
    modPort s p fun x => { x with ptp := { x.ptp with discards := x.ptp.discards + 1 } }
  else
    let s := modPort s p fun x => { x with ptp := { x.ptp with rx := some (m, rx) } }
    if (k = 2 ∧ bit c 2) ∨ (k = 1 ∧ !(bit c 2) ∧ !(isTimeUplink s p)) then
      coreSend s p (pMgmtClass x)
        { bytes := padded (refcs (Config.freePtp m rx ++ [0, 0, 0, 0])), ts := if bit c 3 then some (beAt m 30 2) else none }
    else s

/-! ### The MAC (R234, R235, R239) -/

/-- A MAC control frame that has ended. -/
def macControl (s : State) (p : Nat) (b : List Byte) : State :=
  let fc := pRxFc (port s p)
  let tp := now16 s + 64 * 65536
  let o := typeAt b + 2
  match beAt b o 2 with
  | 0x0001 =>
    let s := countPort s p 0x118 1
    if fc = 1 then modPort s p fun x => { x with txd := { x.txd with rxPause := x.txd.rxPause ++ [(tp, beAt b (o + 2) 2)] } } else s
  | 0x0101 =>
    let s := countPort s p 0x11C 1
    if fc = 2 then modPort s p fun x => { x with txd := { x.txd with rxPfc := x.txd.rxPfc ++ [(tp, b.drop (o + 2))] } } else s
  | _ => countPort s p 0x120 1

/-- The MAC's counters of a frame by its length and FCS; whether it is good. -/
def macCount (s : State) (p : Nat) (b : List Byte) : State × Bool :=
  let ok := fcsOk b
  if b.length < 64 then (countPort s p (if ok then 0x144 else 0x148) 1, false)
  else if pMaxFrame (port s p) < b.length then (countPort s p (if ok then 0x14C else 0x150) 1, false)
  else if !ok then (countPort s p 0x140 1, false)
  else (countFrame s p 0x100 0x124 b, true)

/-- Whether a frame is of EtherType 0x88B6 (R182). -/
def isCourseFrame (b : List Byte) : Bool := beAt b (typeAt b) 2 == 0x88B6

/-- Whether a frame is one for the twin engine, or of its kind: untagged, of EtherType 0x88B5, on an uplink, beginning with the twin magic
(R268). -/
def isTwinFrame (p : Nat) (b : List Byte) : Bool :=
  isUplink p && typeAt b == 12 && beAt b 12 2 == 0x88B5 && beAt b 14 2 == 0x4754

/-- Whether it is tagged as a course frame may be: by one 802.1Q tag or by none (R89). -/
def courseTagged (b : List Byte) : Bool := typeAt b == 12 || (typeAt b == 16 && beAt b 12 2 == 0x8100)

/-! ### Cut-through (R168, R169, R188) -/

/-- Whether port p receives at all. -/
def receives (s : State) (p : Nat) : Bool := (port s p).link.up && portRuns s p && clocksRun s

/-- Whether a copy for queue q of the frame that begins with head is cut through at now (R168), arriving on port p; a preemptible frame that
R166 will cut may be on the line. -/
def mayCut (s : State) (p q : Nat) (head : List Byte) : Bool :=
  let c := qcfg s q
  let e := c.port
  let x := port s e
  let k := classOf s e c.service head
  let idle := match x.txd.tx with
    | none => decide (x.txd.lineFree ≤ now16 s)
    | some f => f.pre && ((cutTx e x (now16 s)).txd.tx.any (·.cut))
  decide (e < 520) && c.en && !(zeroBurst s c) && !(portOff x) && canSend s e && !(preemptible x k) &&
    decide (lineQ p (port s p) ≤ lineQ e x) && (copies s q).isEmpty && !(pausedClass s x c.service) &&
    mayStart s e k (maxLen x k) (now16 s * 100) && idle

/-- The length at which a copy of class k of port x is ended at the latest, as sent, d being what its R-TAG adds to or takes from the
length as received (R169, R186). A copy that an R-TAG would make longer than MAX_FRAME ends there (DEDUCED, log entry 140). -/
def cutLim (x : Port) (k sdu : Nat) (d : Int) : Nat :=
  min (pMaxFrame x) (((if sdu = 0 then maxLen x k else min sdu (maxLen x k) : Nat) : Int) + d).toNat

/-- What a copy's R-TAG adds to the length of its frame: 6 bytes more or less, or nothing. -/
def tagDelta (strip : Bool) (num : Option Nat) (rtag : Bool) : Int :=
  (if rtag && num.isSome then 6 else 0) - (if strip then 6 else 0)

/-- A cut-through copy begun on queue q's port, of class k, ended at the latest at lim bytes, its arrival's key j: the preemptible frame on
the line ends first. -/
def startCut (s : State) (q k lim j : Nat) (ts : Option (Bool × Nat × Nat)) : State :=
  let c := qcfg s q
  let e := c.port
  let s := match (port s e).txd.tx with
    | some _ => closeTx (modPort s e fun x => cutTx e x (now16 s)) e
    | none => s
  let t := max (now16 s) (port s e).txd.lineFree
  let s := countPort (countPort s e 0x428 1) e (0x500 + 0x10 * c.service) 1
  let s := if (qdyn s q).noWindow then setQdyn s q { qdyn s q with noWindow := false } else s
  modPort s e fun x => { x with txd := { x.txd with
    tx := some { bytes := [], t16 := t, cls := k, now := 0, cutThrough := some q, tsReq := ts, set := x.set, lim := lim, key := j } } }

/-- A frame that began to arrive on port p at t16 is judged by the live settings in force then (R245). -/
def settingsAt (x : Port) (t : Nat) : PortSet := ((x.oldSets.filter fun e => t < e.1).getLast?.map (·.2)).getD x.set

def underSettings (s : State) (p t16 : Nat) (f : State → State) : State :=
  let x := port s p
  if x.oldSets.all (·.1 ≤ t16) then f s
  else modPort (f (modPort s p fun x => { x with set := settingsAt x t16 })) p fun y => { y with set := x.set }

/-- One copy of a CUT frame with key k at its decision, d what its R-TAG adds: cut through, its TS record tagged w, or stored in a place that
waits for the frame's end. What the first ones have come to: the copies cut and those stored. -/
def decideCopy (p k f w : Nat) (c : Ctx) (d : Bool → Int) (head : List Byte)
    (a : State × List (Nat × Nat × Bool) × List (Nat × Bool)) (q : Nat × Bool) :
    State × List (Nat × Nat × Bool) × List (Nat × Bool) :=
  let e := (qcfg a.1 q.1).port
  let ts := bit c.w0.toNat 7
  if mayCut a.1 p q.1 head then
    let cls := classOf a.1 e (qcfg a.1 q.1).service head
    (startCut a.1 q.1 cls (cutLim (port a.1 e) cls (stMaxSdu c) (d q.2)) k (if ts then some (false, f, w) else none),
      a.2.1 ++ [(q.1, e, q.2)], a.2.2)
  else
    (putCopy (if e = 0x3FF then a.1 else countPort a.1 e 0x42C 1) q.1 { frame := 2 * k + dieOfQueue q.1, rtag := q.2, ts := ts, wait := true },
      a.2.1, a.2.2 ++ [q])

/-- The copies a CUT frame of STREAM f leaves by at its decision: cut through, or stored in a place that waits for the frame's end,
where the tests that need its length are made (R168, R179; DEDUCED, log entry 154). -/
def decideCopies (s : State) (p f : Nat) (c : Ctx) (num : Option Nat) (strip : Bool) (head : List Byte) :
    State × List (Nat × Nat × Bool) × List (Nat × Bool) :=
  (egressSet s f).foldl
    (decideCopy p s.traffic.nextKey f (num.getD (countTag s f % 65536)) c (tagDelta strip num) head) (newKey s, [], [])

/-- A frame of a STREAM with CUT set, once its identification fields are in: steps 4 to 9. -/
def cutDecision (s : State) (p t16 : Nat) (head : List Byte) : State :=
  match streamOf s p head with
  | none => s
  | some f =>
    let c := flow s f
    let x := port s p
    let et := beAt head (typeAt head) 2
    let taken := isCourseFrame head || et == 0x8808 || isTwinFrame p head || (et == 0x88B5 && pMgmt x) || isPtp x head
    if cKind c ≠ 2 || !(stCut c) || taken || x.txd.cutIn.isSome then s
    else
      let s := (identify (at16 s (t16 + lineQ p x * idEnd x head / 100)) p head).1
      let s := countCtx s f (stCnt c) 1 1
      let ch := if stMaxSdu c = 0 then 1522 else stMaxSdu c
      let put (s : State) (i : CutIn) : State := modPort s p fun x => { x with txd := { x.txd with cutIn := some i } }
      let y := police s f ch
      if !y.2 then put y.1 { t16 := t16, flow := f, ctx := c, drop := true }
      else
        let num := numOf c f head
        let z := genSeq y.1 f num
        let i : CutIn := { t16 := t16, flow := f, ctx := c, num := z.2, charge := if stPol c then some ch else none
                           strip := num.isSome, key := z.1.traffic.nextKey }
        if (egressSet z.1 f).isEmpty then put (countCtx z.1 f (stCnt c) 7 1) i
        else
          let s := countCtx z.1 f (stCnt c) 6 1
          let r := decideCopies s p f c z.2 num.isSome head
          put r.1 { i with cuts := r.2.1, stores := r.2.2, tag := countTag s f }

/-- How many bytes of a frame on port p the steps before identification and the choice of its profile take (R179 to R182): its tags and
EtherType; of an 0x88B5 frame on an uplink the magic; of an IPv4 frame the header to the fragment offset, and to the UDP ports where the
port takes time messages over UDP. -/
def headEnd (p : Nat) (x : Port) (b : List Byte) : Nat :=
  let h := typeAt b + 2
  let udp := bits x.time.cfg.toNat 1 0 == 2 && bit x.time.cfg.toNat 12
  let l4 := h + 4 * (beAt b h 1 % 16)
  if isIpv4 b then
    if !udp then h + 8
    else if h + 10 ≤ b.length && !(profIp b && beAt b (h + 9) 1 == 17) then h + 10
    else max (h + 10) (l4 + 4)
  else if isUplink p && beAt b (typeAt b) 2 == 0x88B5 then h + 2
  else h

/-- CUT_THROUGH_DECISION: head is what has arrived of a frame; at the end of its identification fields (R184) a frame of a STREAM with
CUT set passes steps 4 to 9. A head that ends before what those steps and the ones before them take decides nothing yet. -/
def execCutThroughDecision (p t16 : Nat) (head : List Byte) (s : State) : Out :=
  .next (if !(receives s p) || head.length < max (headEnd p (port s p) head) (idEnd (port s p) head) then s
    else underSettings s p t16 fun s => cutDecision s p t16 head)

/-- A frame ended with the complement of its correct FCS. -/
def stomped (b : List Byte) : List Byte := b ++ (fcs b).map (fun x => ~~~x)

/-- What leaves a cut-through copy's port for a frame b, whose receipt stops one byte past mf (R234) and which is sent up to lim bytes
(R169): its bytes, and 2 where it was truncated, 1 where it was stomped. -/
def cutBytes (b : List Byte) (strip : Bool) (num : Option Nat) (rtag : Bool) (mf lim : Nat) : List Byte × Nat :=
  let bad := !(fcsOk b) || decide (mf < b.length)
  let b := b.take (mf + 1)
  let n := tagEnd b
  let d := b.take (b.length - 4)
  let d := if strip then d.take n ++ d.drop (n + 6) else d
  let d := match num with
    | some k => if rtag then d.take n ++ be 2 0xF1C1 ++ [0, 0] ++ be 2 k ++ d.drop n else d
    | none => d
  if lim < d.length + 4 then (stomped (d.take (lim - 4)), 2)
  else if b.length < 64 ∨ bad then (stomped (d ++ List.replicate (60 - d.length) 0), 1)
  else
    let e := d ++ List.replicate (60 - d.length) 0
    (e ++ fcs e, 0)

/-- The transmission of the cut-through copy of an arrival: on the line, or ended there at its limit (true). -/
def cutTxOf (s : State) (i : CutIn) (x : Nat × Nat × Bool) : Option (Tx × Bool) :=
  let y := (port s x.2.1).txd
  let mine (f : Tx) : Bool := f.now == 0 && f.cutThrough == some x.1 && f.key == i.key
  match y.tx.filter mine with
  | some f => some (f, false)
  | none => (y.ended.find? mine).map fun f => (f, true)

/-- A cut-through copy of the frame b that arrived on port p as it leaves. -/
def cutCopy (s : State) (p : Nat) (i : CutIn) (b : List Byte) (x : Nat × Nat × Bool) : List Byte × Nat :=
  cutBytes b i.strip i.num x.2.2 (pMaxFrame (port s p))
    (match cutTxOf s i x with | some f => f.1.lim | none => 9216)

/-- A cut-through copy's end, known when its frame has arrived; gates that close while it is on the line count in OVERRUN as they do (R160,
R169). -/
def endCut (s : State) (p : Nat) (i : CutIn) (b : List Byte) (x : Nat × Nat × Bool) : State :=
  let e := x.2.1
  match cutTxOf s i x with
  | none => s
  | some (f, done) =>
    let r := cutCopy s p i b x
    let n := r.1.length
    let g := { f with bytes := r.1, now := n }
    let s :=
      if done then
        emit (frameSent (modPort s e fun y => { y with txd := { y.txd with ended := y.txd.ended.erase f } }) e g) (.frame e f.t16 r.1)
      else modPort s e fun y => { y with txd := { y.txd with tx := some g, lineFree := freeAfter e y f.t16 n } }
    match r.2 with
    | 2 => ctError s e 0x434
    | 1 => ctError s e 0x430
    | _ => s

/-- A stored copy's end: the copy admitted to the place that waits for it, or discarded (R169, R186). -/
def endStore (s : State) (p : Nat) (i : CutIn) (b : List Byte) (good long : Bool) (q : Nat × Bool) : State :=
  let k := 2 * i.key + dieOfQueue q.1
  let e := (qcfg s q.1).port
  if !(waits s q.1 k) then s
  else
    let s :=
      if !good then (if e = 0x3FF then s else ctError s e 0x430)
      else if long then s
      else storeCopy (heldFrame s p i.t16 i.flow i.tag b i.num i.strip) b.length (deiOf b) (bit i.ctx.w0.toNat 7) i.key s q
    let s := unwait s q.1 k
    if (copies s q.1).head?.any (fun c => !c.wait) then testHead s q.1 else s

/-- The end of a frame of a CUT STREAM: bytes counted, charge corrected, OVERSIZE counted once, cut copies ended, stored copies admitted
or discarded. Its counters are those of the STREAM as read at the decision, while their context is still a COUNT (R176, R188,
R200). -/
def finishCut (s : State) (p : Nat) (i : CutIn) (b : List Byte) (good : Bool) : State :=
  let s := modPort s p fun x => { x with txd := { x.txd with cutIn := none } }
  let cnt := if cKind (flow s (stCnt i.ctx)) = 5 then stCnt i.ctx else i.flow
  let s := countBytes s i.flow cnt b.length
  if i.drop then s
  else
    let sdu := stMaxSdu i.ctx
    let ends := i.cuts.map fun x => (cutCopy s p i b x).2
    let long := sdu ≠ 0 && sdu < b.length
    let s := match i.charge with
      | some ch => refund s i.flow ch (if fcsOk b && ends.all (· == 0) then b.length else 0)
      | none => s
    let tooLong := (sdu ≠ 0 && ends.any (· == 2)) || (long && good && !i.stores.isEmpty)
    let s := if tooLong then countCtx s i.flow cnt 5 1 else s
    i.stores.foldl (fun s q => endStore s p i b good long q) (i.cuts.foldl (fun s x => endCut s p i b x) s)

/-! ### The ingress order (R179) -/

/-- Steps 3 to 9 for a good frame that has ended. A frame that begins with the twin magic on any uplink goes to the twin engine or is
discarded (R268). -/
def afterMac (s : State) (p t16 : Nat) (b : List Byte) : State :=
  let x := port s p
  let o := typeAt b
  let et := beAt b o 2
  if et = 0x8808 then macControl s p b
  else if isTwinFrame p b then twinFrameIn s p t16 b
  else if et = 0x88B5 ∧ pMgmt x = true then interceptCmd s p t16 (o + 2) b
  else if isPtp x b then ptpIn s p t16 b
  else
    let y := identify s p b
    match y.2 with
    | none => y.1
    | some f => if cKind (flow y.1 f) = 2 then streamSteps y.1 p t16 f b else y.1

/-- A frame that has arrived on port p, its first DA bit at t16 and its end at tEnd. A course frame is tested at the end of its header;
one tagged otherwise than R89 allows is dropped and counted (R36). -/
def frameIn (s : State) (p t16 tEnd : Nat) (b : List Byte) : State :=
  underSettings s p t16 fun s =>
    let q := lineQ p (port s p)
    if isCourseFrame b && 64 ≤ b.length then
      let s := (macCount (at16 s (t16 + q * (typeAt b + 12) / 100)) p b).1
      if courseTagged b then courseFrameIn s p t16 b else countPort s p 0x158 1
    else
      let s := at16 s tEnd
      let m := macCount s p b
      match (port s p).txd.cutIn with
      | some i =>
        if i.t16 = t16 then finishCut m.1 p i b m.2
        else if m.2 then afterMac m.1 p t16 b else m.1
      | none => if m.2 then afterMac m.1 p t16 b else m.1

/-- A frame on the pins of port p. -/
def frameOnPins (s : State) (p t16 : Nat) (b : List Byte) (symErr : Bool) : State :=
  if !(receives s p) then s
  else
    let s := if symErr then countPort s p 0x154 1 else s
    frameIn s p t16 (t16 + lineQ p (port s p) * b.length / 100) b

/-- FRAME_RECEIVE. -/
def execFrameReceive (p t16 : Nat) (bytes : List Byte) (symErr : Bool) (s : State) : Out := .next (frameOnPins s p t16 bytes symErr)

/-- TWIN_FRAME_RECEIVE: a frame on uplink u that begins with the twin magic. -/
def execTwinFrameReceive (u t16 : Nat) (bytes : List Byte) (s : State) : Out := .next (frameOnPins s (512 + u) t16 bytes false)

/-! ### mPackets (R163, R167) -/

/-- MPACKET_RECEIVE: verify and respond, and reassembly of one preemptible frame. A reassembled frame that contains an invalid code group
counts in RX_SYMBOL_ERR (R250). -/
def execMpacketReceive (p t16 : Nat) (m : MPacket) (s : State) : Out :=
  let x := port s p
  let asm (s : State) (a : Option (List Byte × Nat × Nat × Bool)) : State := modPort s p fun x => { x with txd := { x.txd with asm := a } }
  let sym (s : State) (b : Bool) : State := if b then countPort s p 0x154 1 else s
  .next (
    if !(receives s p) then s
    else
      let s := at16 s t16
      match m with
      | .verify => if peEn x && canSend s p then emit s (.mpacket p (now16 s) .respond) else s
      | .respond =>
        if x.pre.deadline.isNone then s
        else peChanged s (modPort s p fun x => { x with pre := { x.pre with okay := true, deadline := none } }) p
      | .unknown => countPort s p 0x44C 1
      | .start d fin symErr =>
        if fin then frameIn (sym (asm s none) symErr) p t16 (t16 + lineQ p x * d.length / 100) d else asm s (some (d, 0, t16, symErr))
      | .cont n d fin symErr =>
        let s := countPort s p 0x440 1
        match x.txd.asm with
        | none => countPort s p 0x448 1
        | some (b, k, t0, e) =>
          if k ≠ n then countPort (asm s none) p 0x448 1
          else if fin then
            frameIn (sym (countPort (asm s none) p 0x444 1) (e || symErr)) p t0 (t16 + lineQ p x * d.length / 100) (b ++ d)
          else asm s (some (b ++ d, (n + 1) % 4, t0, e || symErr)))

end Sys2Proof.Machine
end

