-- ==== Sys2Proof/Machine/Twin.lean ====
section
/-! DEFINITION. Twins: roles, claim, breath, mirroring, twin records, handover and synchronisation (R251 to R270, R278, R279). -/

namespace Sys2Proof.Machine

/-! ### Roles (R253, R255) -/

def rCode : Role → Nat
  | .off => 0 | .follower => 1 | .claiming => 2 | .leader => 3

/-- The twin-link lanes of the part, as uplink numbers, and their port numbers. -/
def twinUplinks (s : State) : List Nat := if s.otp.part5124 then [2, 3, 6, 7] else [2, 3]

/-- Whether the twin engine and the course engine run. -/
def twinRuns (s : State) : Bool := clocksRun s && s.power.held.isNone && !s.power.pinHeld

/-- The number of the line base cycle that holds t. -/
def lineNo (s : State) (t : Nat) : Nat := cycleNo s s.line.baseCt t

/-- The cycle number nearest the present one that ends in the 32 bits x. -/
def nearCycle (s : State) (x : Nat) : Nat :=
  ((((nowNs s : Int) - s.line.anchor) / s.line.baseCt) + sgn 32 (x + 2 ^ 32 - lineNo s (nowNs s))).toNat

/-- LEAD_OUTn released: high (R254). -/
def releaseLead (s : State) : State :=
  if s.twin.claimOut then emit { s with twin := { s.twin with claimOut := false } } (.lead (nowNs s)) else s

/-- BREATH_OUT falls: at the midpoint, or now where the square wave ends before it (R256). -/
def breathFall (s : State) : State :=
  match s.twin.breathHigh with
  | some m => emit { s with twin := { s.twin with breathHigh := none } } (.breathLow (min (nowNs s) m))
  | none => s

/-- The level of BREATH_OUT. -/
def breathLevel (s : State) : Bool := s.twin.breathHigh.any (nowNs s < ·) && twinRuns s

/-- A change of role, with its record; a new FOLLOWER counts silence from zero. The step from CLAIMING to LEADER leaves LEAD_OUTn as it is
(R254). -/
def setRole (s : State) (r : Role) : State :=
  let o := s.twin.role
  if o = r then s
  else
    let s := if r = .leader then s else releaseLead s
    let s := if r = .off then breathFall s else s
    let y := { s.twin with role := r }
    let y := match r with
      | .follower => { y with pinSilent := 0, linkSilent := 0, pinSeen := false, linkSeen := false, auth := false, failover := false }
      | .leader => { y with auth := false, failover := false, viaLoss := false }
      | .off => { y with auth := false, failover := false, lone := false, pinSilent := 0, linkSilent := 0, partner := 0, wordSeen := none }
      | .claiming => y
    let s := { s with twin := y, mirror := if r = .off then {} else s.mirror }
    traceRec s 0 0x08 0x60000 [rCode o + 8 * rCode r, lineNo s (nowNs s)]

/-- Whether the partner's claim is live (R254; DEDUCED at exactly 3 x BASE_CT, log entry 36). -/
def claimLive (s : State) : Bool := s.twin.claimEdge.any fun e => decide (nowNs s < e + 3 * s.line.baseCt)

/-- Whether the firmware refresh is current (R254): running cores refresh the claim all the time, and a refresh lasts 2 ms. -/
def fwCurrent (s : State) : Bool := coresRun s || decide (nowNs s ≤ s.twin.fwRefresh + 2000000)

/-- MIRROR_OK of every die. -/
def mirrorAll (s : State) : Bool := (List.range (nDies s)).all fun d => s.mirror.ok.look d false

/-- LEAD_IN_EDGE: an edge that LEAD_INn shows at t, pulses shorter than 100 ns already ignored. In CLAIMING side B gives way. -/
def execLeadInEdge (t : Nat) (s : State) : Out :=
  .next (
    if !(twinRuns s) then s
    else
      let s := atNs s t
      let s := { s with twin := { s.twin with claimEdge := some t } }
      if s.twin.role = .claiming ∧ s.twin.sideB = true then raise (setRole s .follower) 0x60004 2 else s)

/-- CLAIM_DEAD. -/
def execClaimDead (s : State) : Out :=
  .next (match s.twin.claimEdge with
    | some e => if twinRuns s then
        let s := atNs s (e + 3 * s.line.baseCt)
        { s with twin := { s.twin with claimEdge := none } }
      else s
    | none => s)

/-! ### Breath (R256, R257, R259) -/

/-- Whether t lies in the line base cycle whose boundary was done last. -/
def inLast (s : State) (t : Nat) : Bool := s.line.last.any fun n => decide (t < cycleStart s s.line.baseCt (n + 1))

/-- BREATH_IN_EDGE: a rising edge at t. -/
def execBreathInEdge (t : Nat) (s : State) : Out :=
  .next (
    if !(twinRuns s) then s
    else
      let s := atNs s t
      { s with twin := { s.twin with breathIn := some t, pinSeen := s.twin.pinSeen || inLast s t } })

/-- BREATH_WORD_RECEIVE on a twin-link lane at t: one that names the cycle it arrives in breaks that cycle's silence, in time for
R259 up to 2,000 ns after the boundary; it carries the partner's state. -/
def execBreathWordReceive (u : Nat) (blk : List Byte) (t : Nat) (s : State) : Out :=
  .next (match blockIn s u 5 blk with
    | .error e => e
    | .ok () =>
      if !((twinUplinks s).contains u) || s.twin.role == .off then s
      else
        let s := atNs s t
        let m := lineNo s t
        if beAt blk 2 4 ≠ m then s
        else
          let b := t - ((t : Int) - s.line.anchor).toNat % s.line.baseCt
          let y := s.twin
          { s with twin := { y with
              linkSeen := y.linkSeen || inLast s t
              partner := beAt blk 1 1
              wordSeen := some m
              lone := y.lone && decide (b + 2000 < t) } })

/-- LONE: no breath word of cycle m by B_m + 2,000 ns. -/
def execLone (m : Nat) (s : State) : Out :=
  .next (
    if !(twinRuns s) || s.twin.role != .follower || s.twin.wordSeen == some (m % 2 ^ 32) then s
    else
      let s := atNs s (cycleStart s s.line.baseCt m + 2000)
      { s with twin := { s.twin with lone := true } })

/-- The breath word of cycle n on every twin-link lane. -/
def sendBreath (s : State) (n : Nat) : State :=
  let y := s.twin
  let p := b2n (y.role == .leader) + 2 * b2n y.sideB + 4 * b2n (mirrorAll s) + 8 * b2n (y.role == .claiming)
  (twinUplinks s).foldl (fun s u =>
    if hySends s u then sendBlock s u 5 (by8 p :: (be 4 n ++ be 3 s.sys.devno)) else s) s

/-! ### What a boundary does (R254 to R258, R269) -/

/-- Silence of the cycle that boundary n ends, and the path faults of R257. -/
def countSilence (s : State) (n : Nat) : State :=
  let y := s.twin
  let t := cycleStart s s.line.baseCt n
  let pin := if y.pinSeen then 0 else min 256 (y.pinSilent + 1)
  let link := if y.linkSeen then 0 else min 256 (y.linkSilent + 1)
  let f (p l : Nat) : Nat :=
    let a := decide (y.k ≤ p)
    let b := decide (y.k ≤ l)
    (if a && !b then 8 else 0) + (if b && !a then 16 else 0) + (if a && b then 32 else 0)
  let bs := f pin link &&& (0xFFFFFFFF ^^^ f y.pinSilent y.linkSilent)
  let s := { s with twin := { y with
    pinSilent := pin
    linkSilent := link
    pinLast := y.pinSeen
    linkLast := y.linkSeen
    pinSeen := y.breathIn.any fun e => decide (t ≤ e)
    linkSeen := y.wordSeen == some (n % 2 ^ 32) } }
  if bs = 0 then s else raise s 0x60004 bs

/-- Claims, yields and the entry to LEADER at boundary t. -/
def claimStep (s : State) (t : Nat) : State :=
  let y := s.twin
  let live := claimLive s
  match y.role with
  | .off => s
  | .follower =>
    let lost := y.k ≤ y.pinSilent && y.k ≤ y.linkSilent
    if (lost || y.failover) && !live then
      setRole { s with twin := { y with viaLoss := lost && !y.failover, claimAt := t } } .claiming
    else s
  | .claiming =>
    if t ≤ y.claimAt then s
    else raise (setRole (if y.viaLoss then count s 0x60028 1 else s) .leader) 0x60004 1
  | .leader =>
    if !live then s else if y.sideB then setRole s .follower else raise s 0x60004 4

/-- LEAD_OUTn and BREATH_OUT at boundary t. -/
def twinPins (s : State) (t : Nat) : State :=
  let s := if s.twin.role != .off then emit { s with twin := { s.twin with breathHigh := some (t + s.line.baseCt / 2) } } (.breath t) else s
  if (s.twin.role == .claiming || s.twin.role == .leader) && fwCurrent s then
    emit { s with twin := { s.twin with claimOut := !s.twin.claimOut } } (.lead t)
  else releaseLead s

/-- The handover at its boundary (R269). -/
def handoverNow (s : State) : State :=
  let done (s : State) : State := raise { s with mirror := { s.mirror with handover := none } } 0x60004 1024
  match s.twin.role with
  | .leader => done (setRole s .follower)
  | .follower => done { s with twin := { s.twin with auth := true, failover := mirrorAll s } }
  | _ => { s with mirror := { s.mirror with handover := none } }

/-- HANDOVER_BOUNDARY. -/
def execHandoverBoundary (s : State) : Out :=
  .next (match s.mirror.handover with
    | some b => if twinRuns s then handoverNow (atNs s b) else s
    | none => s)

/-- A handover block for B_h = b on every twin-link lane. -/
def sendHandover (s : State) (b : Nat) : State :=
  (twinUplinks s).foldl (fun s u => if hySends s u then sendBlock s u 9 (0 :: be 4 (lineNo s b)) else s) s

/-- Handover blocks of the 8 cycles before B_h, and a handover whose boundary is t. -/
def handoverAt (s : State) (t : Nat) : State :=
  match s.mirror.handover with
  | none => s
  | some b =>
    if b ≤ t then handoverNow s
    else if s.twin.role == .leader && b ≤ t + 8 * s.line.baseCt then sendHandover s b
    else s

/-- HANDOVER_RECEIVE: the partner learns B_h. -/
def execHandoverReceive (u : Nat) (blk : List Byte) (s : State) : Out :=
  .next (match blockIn s u 9 blk with
    | .error e => e
    | .ok () =>
      if !((twinUplinks s).contains u) || s.twin.role != .follower then s
      else { s with mirror := { s.mirror with handover := some (cycleStart s s.line.baseCt (nearCycle s (beAt blk 2 4))) } })

/-! ### Digests (R262) -/

/-- Both digests of region r, where they are of one cycle, compared. Both twins compare, so that a LEADER that becomes FOLLOWER
keeps sending (DEDUCED, log entry 34). -/
def compareDigests (s : State) (r : Nat) : State :=
  let m := s.mirror
  let a := m.own.look r (0, 0)
  let b := m.got.look r (0, 0)
  if a.1 = 0 ∨ a.1 ≠ b.1 then s
  else if a.2 = b.2 then { s with mirror := { m with matched := m.matched.put r a.1 0 } }
  else
    let d := r / 4
    raise (count { s with mirror := { m with ok := m.ok.put d false false, okRun := m.okRun.put d 0 0 } } 0x60010 1) 0x60004 64

/-- DIGEST_BLOCK_RECEIVE. -/
def execDigestBlockReceive (u : Nat) (blk : List Byte) (s : State) : Out :=
  .next (match blockIn s u 7 blk with
    | .error e => e
    | .ok () =>
      let r := beAt blk 1 1
      if !((twinUplinks s).contains u) || s.twin.role == .off || !(hasRegion s r) then s
      else compareDigests { s with mirror := { s.mirror with got := s.mirror.got.put r (beAt blk 2 2 + 1, beAt blk 4 8) (0, 0) } } r)

/-- DIGEST_PUBLISH: the digest of region r captured at boundary n is published, and sent to the twin. -/
def execDigestPublish (r n : Nat) (s : State) : Out :=
  .next (match (digest s r).cap with
    | none => s
    | some c =>
      if c.1 ≠ n % 2 ^ 32 || !(regionRuns s r) || !(clocksRun s) then s
      else
        let s := modDigest s r fun d => { d with val := c.2, cycle := c.1, cap := none }
        if s.twin.role = .off then s
        else
          let s := match twinLane s r with
            | some p => if hySends s (p - 512) then sendBlock s (p - 512) 7 (by8 r :: (be 2 (n % 65536) ++ be 8 c.2)) else s
            | none => s
          compareDigests { s with mirror := { s.mirror with own := s.mirror.own.put r (n % 65536 + 1, c.2) (0, 0) } } r)

/-- DIGEST_DEADLINE: cycle n is judged at B_n + 6,000 ns. -/
def execDigestDeadline (n : Nat) (s : State) : Out :=
  .next (
    if !(twinRuns s) || s.twin.role == .off || s.mirror.judged == some (n % 2 ^ 32) then s
    else
      let s := atNs s (cycleStart s s.line.baseCt n + 6000)
      let m := s.mirror
      let k := n % 65536 + 1
      let all := (List.range (4 * nDies s)).all fun r => (m.got.look r (0, 0)).1 == k
      let m := (List.range (nDies s)).foldl (fun m d =>
        let good := (List.range 4).all fun i => m.matched.look (4 * d + i) 0 == k
        let run := if good then min 16 (m.okRun.look d 0 + 1) else 0
        { m with okRun := m.okRun.put d run 0, ok := if run = 16 then m.ok.put d true false else m.ok }) m
      let good := all && m.lateCycle != some (n % 2 ^ 32)
      { s with mirror := { m with
          unvBase := m.unverified
          unverified := if good then 0 else min 255 (m.unverified + 1)
          judged := some (n % 2 ^ 32)
          lateCycle := none } })

/-! ### Twin frames (R261, R268) -/

/-- The records that go in one frame: how many, given the room and the count left. -/
def frameTake : Nat → Nat → List TwinRec → Nat
  | 0, _, _ => 0
  | _, _, [] => 0
  | k + 1, room, r :: l => if r.bytes.length ≤ room then 1 + frameTake k (room - r.bytes.length) l else 0

/-- The axis of an AXSYNC record that would now reach the twin after the axis's next decision instant (R270). -/
def lateSync (s : State) (r : TwinRec) : Option Nat :=
  let a := beAt r.bytes 2 2
  let ct := (axis s a).cfg.ct
  if beAt r.bytes 0 1 ≠ 4 ∨ nowNs s + 500 + 2000 < nextB s.line.anchor ct (r.t / 65536 + 1) then none else some a

/-- The axes of AXSYNC records that could not be sent are synchronised again from a later boundary (R270). -/
def syncAgain (s : State) (as : List Nat) : State :=
  if as.isEmpty then s else { s with mirror := { s.mirror with syncing := true, syncQ := s.mirror.syncQ ++ as } }

/-- TWIN_FRAME_SEND: the records that wait for lane u leave in one frame. When the lane carries none, its records move to the
other lane of the die, or are dropped. -/
def execTwinFrameSend (u : Nat) (s : State) : Out :=
  let p := 512 + u
  let q := if u % 2 = 0 then p + 1 else p - 1
  let mine := s.mirror.txQ.filter fun r => r.lane == p
  .next (
    if mine.isEmpty || !(twinRuns s) || !(isTwinLane p) then s
    else if !(laneUsable s p) then
      let m := s.mirror
      if laneUsable s q then
        { s with mirror := { m with txQ := m.txQ.map fun r => if r.lane = p then { r with lane := q } else r } }
      else
        let s := syncAgain s ((mine.filter fun r => beAt r.bytes 0 1 == 4).map fun r => beAt r.bytes 2 2)
        raise (count { s with mirror := { s.mirror with txQ := m.txQ.filter fun r => r.lane != p } } 0x60024 mine.length) 0x60004 256
    else
      let s := syncAgain s (mine.filterMap (lateSync s))
      let mine := mine.filter fun r => (lateSync s r).isNone
      let m := s.mirror
      if mine.isEmpty then { s with mirror := { m with txQ := m.txQ.filter fun r => r.lane != p } } else
      let n := frameTake 255 1496 mine
      let rs := mine.take n
      let fs := m.fseq.look p 0
      let mac := s.twin.partnerMac.look u (0, 0)
      let b := be 2 mac.2.toNat ++ be 4 mac.1.toNat ++ pMac (port s p) ++ be 2 0x88B5 ++ be 2 0x4754 ++ [1, by8 n] ++ be 4 fs ++
        rs.flatMap (·.bytes)
      let b := b ++ List.replicate (60 - b.length) 0
      let s := { s with mirror := { m with
        txQ := m.txQ.filter (fun r => r.lane != p) ++ mine.drop n
        fseq := m.fseq.put p ((fs + 1) % 2 ^ 32) 0 } }
      ctlPut (count s 0x60018 n) p 7 (b ++ fcs b))

/-- The first waiting record of a type, and the queue without it. -/
def takeRec (ty : Nat) : List TwinRec → Option (TwinRec × List TwinRec)
  | [] => none
  | r :: l => if beAt r.bytes 0 1 = ty then some (r, l) else (takeRec ty l).map fun x => (x.1, r :: x.2)

/-- A time in short time with fraction (2^-16 ns, mod 2^48) extended to the present (R45). -/
def near16 (s : State) (x : Nat) : Nat := ((now16 s : Int) + sgn 48 (x + 2 ^ 48 - now16 s % 2 ^ 48)).toNat

/-- The next record of a type, used by f. -/
def withRec (s : State) (ty : Nat) (f : State → TwinRec → State) : State :=
  match takeRec ty s.mirror.recQ with
  | none => s
  | some x =>
    if !(twinRuns s) || s.twin.role == .off then s
    else f (at16 { s with mirror := { s.mirror with recQ := x.2 } } x.1.t) x.1

def usedRec (s : State) : State := count s 0x6001C 1

/-- BRICK_RECORD_RECEIVE. -/
def execBrickRecordReceive (s : State) : Out :=
  .next (withRec s 1 fun s r =>
    let b := r.bytes
    match twinPort s (dieOfPort r.lane) (beAt b 1 2) with
    | none => s
    | some o =>
      let fl := beAt b 5 1
      let f := fl % 4
      let j := beAt b 6 1
      let planeB := bit fl 6
      let k := b2n (port s o).course.bank
      let d := descOf s o k (4 + f)
      let n := b.length
      let data := (b.drop 13).take (n - 15)
      let ct := (port s o).ccfg.ct
      let cyc := cycleNo s ct (r.t / 65536)
      let base := nextB s.line.anchor ct (r.t / 65536 + 1) - ct
      let e := dFirst d + j
      let x := entryOf s o k e
      let now := cyc % 65536 = beAt b 3 2
      let live := (port s o).course.state = 2 ∨ (port s o).course.state = 3
      if brickCheck (beAt b 3 2) true f j data ≠ beAt b (n - 2) 2 then countPort s o (if planeB then 0x644 else 0x640) 1
      else if ¬ live ∨ dCount d ≤ j ∨ !(courseRuns s o) then s
      else if merges s && !(bit fl 7) then
        if ¬ now ∨ (base + d.w3.toNat) * 65536 < r.t then countPort s o 0x65C 1
        else
          let m := mergeBrick (usedRec s) o o e x r.t planeB data
          if m.2 then sendRec m.1 (regionOfPort o) (brickRec s o f j cyc r.t true planeB data) else m.1
      else if offers s && bit fl 7 then
        if ¬ now ∨ (base + d.w3.toNat + 1000) * 65536 < r.t then
          lateIn (raise (count s 0x60014 1) 0x60004 128) (if now then base + d.w3.toNat else base - ct + d.w3.toNat)
        else if (port s o).inStat.taken.look e false then s
        else takeBrick (usedRec s) o o e x (near16 s (beAt b 7 6)) planeB data
      else s)

/-- DIRECT_RECORD_RECEIVE: the LEADER's copy becomes the staging entry, and the out half of an axis in DIRECT. -/
def execDirectRecordReceive (s : State) : Out :=
  .next (withRec s 2 fun s r =>
    let a := beAt r.bytes 2 2
    let d := (r.bytes.drop 8).take 64
    if s.twin.role != .follower || !(hasAxis s a) || !(axis s a).cfg.direct then s
    else
      let s := stagingPut (usedRec s) a 0 d
      if (axis s a).dyn.state = 6 then imgWrite s a 0 d else s)

/-! ### Forwarded commands (R264) -/

/-- The check of a forwarded command on the FOLLOWER: the tests its LEADER makes. -/
def fwdCheck (s : State) (op : Nat) (h : CmdHdr) (w : List Word) : Bool :=
  let u := { s with twin := { s.twin with role := .leader } }
  (match headerTests u { h with path := .hyith 0 s.twin.partnerDev } op (if op = 0x0607 then w.take 3 else w) with
    | some _ => false
    | none => true) && (stoppedTarget s op h w).isNone

/-- The parts of the opcodes of class Transaction that are forwarded. -/
def fwdOpOf (op : Nat) : Option TxnOp :=
  match op with
  | 0x0705 => some axisStartOp
  | 0x0707 => some axisOffOp
  | 0x0607 => some courseSwapOp
  | 0x0609 => some courseResumeOp
  | 0x060A => some courseStopOp
  | _ => none

/-- A forwarded command of class Transaction has been done at c, or has failed. -/
def noteFwd (s : State) (c : Nat) (m : Option Member) : State :=
  { s with mirror := { s.mirror with fwdDone := s.mirror.fwdDone ++ [(c, m)] } }

/-- A forwarded command of class Transaction at its instant c, and what its rollback needs. -/
def fwdTxn (f : TxnOp) (s : State) (op : Nat) (h : CmdHdr) (w : List Word) (c : Nat) : State :=
  if (f.prep h w s).isSome || (f.test h w [newMember s op h w] c s).isSome then noteFwd s c none
  else match f.apply h w c s with
    | .ok a => noteFwd a.s c (some { newMember s op h w with k := a.k, at_ := a.at_, undo := a.undo, applied := true })
    | .error _ => noteFwd s c none

/-- R304 on a FOLLOWER: at R_b of a C at which a forwarded member failed, here or on the LEADER, the others are rolled back, the last first.
Whether the LEADER failed is a free value (DESIGN CHOICE, log entry 40). -/
def fwdRollback (s : State) (t : Nat) : State :=
  let due := s.mirror.fwdDone.filter fun e => nextLine s (e.1 + 10000) ≤ t
  let s := { s with mirror := { s.mirror with fwdDone := s.mirror.fwdDone.filter fun e => t < nextLine s (e.1 + 10000) } }
  ((due.map (·.1)).eraseDups).foldl (fun s c =>
    let l := due.filter fun e => e.1 == c
    let kept := Config.freePartner s.free && l.all fun e => e.2.isSome
    if kept then useFree s
    else l.reverse.foldl (fun s e => match e.2 with
      | some m => match fwdOpOf m.op with | some f => (f.undo m.h m.w t m s).1 | none => s
      | none => s) (useFree s)) s

/-- The effect of a forwarded command at its instant c. -/
def fwdApply (s : State) (op : Nat) (h : CmdHdr) (w : List Word) (c : Nat) : State :=
  let t (f : TxnOp) : State := fwdTxn f s op h w c
  let g (chk : CmdHdr → List Word → State → Option Reply) (f : CmdHdr → List Word → State → State) : State :=
    if (chk h w s).isSome then s else f h w s
  match op with
  | 0x0703 => g reflexSetBad doReflexSet
  | 0x0704 => g (fun _ w s => axisBad s w 18) doReflexArm
  | 0x0705 => t axisStartOp
  | 0x0706 => g (fun _ w s => axisBad s w 14) doAxisQstop
  | 0x0707 => t axisOffOp
  | 0x0607 => t courseSwapOp
  | 0x0608 => g courseSafeBad doCourseSafe
  | 0x0609 => t courseResumeOp
  | 0x060A => t courseStopOp
  | _ => s

/-- COMMAND_RECORD_RECEIVE: the packet is prepared on the FOLLOWER for its T_c. -/
def execCommandRecordReceive (s : State) : Out :=
  .next (withRec s 3 fun s r =>
    let l := toWordsBe 4096 (r.bytes.drop 8)
    let h := pktHdr (.hyith (r.lane - 512) s.twin.partnerDev) l
    let op := pktOp l
    let w := pktParams l
    let tc := near16 s (beAt r.bytes 4 4 * 65536) / 65536
    if s.twin.role != .follower || l.length < 5 || crc32c (wordsBe (l.take (l.length - 1))) ≠ prm l (l.length - 1) then s
    else if !(fwdCheck s op h w) then s
    else
      let s := usedRec s
      { s with mirror := { s.mirror with fwd := s.mirror.fwd ++ [{ op := op, h := h, w := w, at_ := tc }] } })

/-- The waiting forwarded command with the earliest instant, the first of them. -/
def nextFwd : List Fwd → Option Fwd
  | [] => none
  | f :: r => match nextFwd r with | some g => if g.at_ < f.at_ then some g else some f | none => some f

/-- FORWARDED_COMMAND_COMMIT: the next forwarded command takes effect at T_c. A FOLLOWER whose bank differs from the LEADER's
withholds the course from the swap on, or from an earlier one. -/
def execForwardedCommandCommit (s : State) : Out :=
  .next (match nextFwd s.mirror.fwd with
    | none => s
    | some f =>
      if !(clocksRun s) then s
      else
        let s := atNs s f.at_
        let s := { s with mirror := { s.mirror with fwd := s.mirror.fwd.erase f } }
        let o := own s f.h.port
        if (stoppedTarget s f.op f.h f.w).isSome then if (fwdOpOf f.op).isSome then noteFwd s f.at_ none else s
        else if f.op = 0x0607 ∧ s.twin.role ≠ .leader ∧ bankCrc s o ≠ prm f.w 3 then
          let b := (commitBoundary s o (ltAt f.w 0).1 f.at_).2.1
          let s := fwdApply s f.op f.h (f.w.take 3) f.at_
          let v := s.mirror.withholdAt.look o 0
          raise { s with mirror := { s.mirror with
            withholdAt := s.mirror.withholdAt.put o (if v = 0 then b + 1 else min v (b + 1)) 0 } } 0x60004 512
        else fwdApply s f.op f.h (if f.op = 0x0607 then f.w.take 3 else f.w) f.at_)

/-! ### Synchronisation (R270) -/

/-- The latest boundary of an axis at or before now. -/
def lastBoundary (s : State) (a : Nat) : Nat :=
  let ct := (axis s a).cfg.ct
  nextB s.line.anchor ct (nowNs s + 1) - ct

/-- An instant as SEC, NS and FRAC 0. -/
def longBytes (t : Nat) : List Byte := be 6 (t / 1000000000) ++ be 4 (t % 1000000000) ++ [0, 0]

/-- The segments of a cache. -/
def goodSegs (c : List Cached) : Nat := (c.filter fun x => match x with | .seg _ => true | .bad => false).length

/-- An AXSYNC record of axis a. SEG_SEQ is that of the segment at GET (DEDUCED, log entry 37). -/
def axsyncRec (s : State) (a : Nat) : List Byte :=
  let x := axis s a
  let d := x.dyn
  let g (v : Int) : List Byte := be 8 (uns 64 v)
  let dir := x.cfg.direct
  let st := if d.state = 1 then x.run.s0 else x.run.segStart
  let seg := if dir then List.replicate 18 0 else
    be 2 ((d.segExp + 65536 - goodSegs x.run.cache) % 65536) ++ be 4 d.get ++ longBytes st
  let q := match x.run.qstop with
    | some q =>
      if d.state ≠ 4 then List.replicate 32 0
      else if q.set then longBytes q.anchor ++ g q.a0 ++ g q.a1 ++ be 4 q.t
      else
        let z := profileFrom q.start (q.start - x.cfg.ct) x.cfg.dec d.p d.v
        longBytes z.anchor ++ g z.a0 ++ g z.a1 ++ be 4 z.t
    | none => List.replicate 32 0
  [4, 0] ++ be 2 a ++ be 4 (lastBoundary s a % 2 ^ 32) ++ [by8 d.state, by8 (d.cause + 16 * d.fired)] ++ seg ++
    g d.p ++ g d.v ++ g d.a ++ q ++ List.replicate 4 0

/-- Whether a record of axis a sent now reaches the twin before the axis's next decision instant. -/
def syncInTime (s : State) (a : Nat) : Bool := nowNs s + 1000 < lastBoundary s a + (axis s a).cfg.ct - 2000

/-- At a boundary up to 256 of the axes still to be synchronised leave; one whose record would come too late, or found no room, waits for
a later boundary. On the LEADER the synchronisation is over at the first boundary that finds nothing waiting or unsent; on the FOLLOWER at
the first that finds no record taken for longer than its longest axis cycle, within which the LEADER finds a boundary for every axis that
waits. SYNC_DONE ends a synchronisation on either twin (DESIGN CHOICE, log entry 38). -/
def syncStep (s : State) : State :=
  let m := s.mirror
  if !m.syncing then s
  else if s.twin.role = .leader then
    let l := m.syncQ.filter fun a => (axis s a).dyn.state != 0
    let now := (l.filter (syncInTime s)).take 256
    let x := now.foldl (fun (x : State × List Nat) a =>
      let t := sendRec x.1 (regionOfAxis a) (axsyncRec x.1 a)
      (t, if t.mirror.txQ.length = x.1.mirror.txQ.length then x.2 else a :: x.2)) (s, [])
    let rest := l.filter fun a => !(x.2.contains a)
    let s := x.1
    let done := rest.isEmpty && m.txQ.all fun r => beAt r.bytes 0 1 != 4
    let s := { s with mirror := { s.mirror with syncQ := rest, syncing := !(done && x.2.isEmpty) } }
    if done && x.2.isEmpty then raise s 0x60004 2048 else s
  else if m.syncAt + (s.axes.map fun e => e.2.cfg.ct).foldl max s.line.baseCt < nowNs s then
    raise { s with mirror := { m with syncing := false } } 0x60004 2048
  else s

/-- AXSYNC_RECORD_RECEIVE: the state of an axis loaded on the FOLLOWER, unless its next decision instant has passed. -/
def execAxsyncRecordReceive (s : State) : Out :=
  .next (withRec s 4 fun s r =>
    let b := r.bytes.drop 8
    let a := beAt r.bytes 2 2
    let x := axis s a
    let cb := near16 s (beAt r.bytes 4 4 * 65536) / 65536
    let long (o : Nat) : Nat := beAt b o 6 * 1000000000 + beAt b (o + 6) 4
    let v (o : Nat) : Int := sgn 64 (beAt b o 8)
    if s.twin.role != .follower || !(hasAxis s a) || x.cfg.ct = 0 || cb + x.cfg.ct - 2000 ≤ nowNs s then s
    else
      let st := beAt b 0 1 % 8
      let t := beAt b 72 4
      let z := profileFrom 0 0 x.cfg.dec 0 (v 64)
      let q : QStop := { z with start := long 44 + x.cfg.ct, anchor := long 44, a0 := v 56, t := t, capped := t == 4294967295 }
      let s := setAxisState (usedRec s) a st (beAt b 1 1 % 16)
      let s := modAxis s a fun x => { x with
        dyn := { x.dyn with
          fired := beAt b 1 1 / 16, segExp := beAt b 2 2, get := beAt b 4 4 % 131072, p := v 20, v := v 28, a := v 36 }
        run := { x.run with
          s0 := long 8, segStart := long 8, cache := [], decided := none, offAt := none, directAt := none,
          qstop := if st = 4 then some q else none } }
      { s with mirror := { s.mirror with syncing := true, syncAt := nowNs s } })

/-! ### Registers and commands (R278, R279) -/

/-- The word at offset o of the twin block. -/
def twinReg (s : State) (o : Nat) : Nat :=
  let y := s.twin
  match o with
  | 0x000 =>
    rCode y.role + 8 * b2n y.sideB + 16 * b2n (s.mirror.ok.look 0 false) + 32 * b2n (hasDie s 1 && s.mirror.ok.look 1 false) +
      64 * b2n (claimLive s) + 128 * b2n y.pinLast + 256 * b2n y.linkLast + 512 * b2n y.lone + 1024 * b2n (fwCurrent s) +
      65536 * s.mirror.unverified
  | 0x00C => y.k
  | o => reg s (0x60000 + o)

/-- TWIN_QUERY: words 0x000 to 0x028. -/
def bodyTwinQuery (_ : CmdHdr) (_ : List Word) (s : State) : State × Reply :=
  (s, .ok ((List.range 11).map fun i => wd (twinReg s (4 * i))))

/-- Preemption on a twin-link lane as TWIN_SET enables it: every class but 7 preemptible, ADD_FRAG 0 (R261). -/
def twinPreempt (c : Word) : Word := (c &&& 0x000FF800#32) ||| 0xFF#32

/-- TWIN_SET (R251, R257, R261, R267). -/
def bodyTwinSet (_ : CmdHdr) (w : List Word) (s : State) : State × Reply :=
  let k := fld w 0 8 1
  if s.twin.role ≠ .off then (s, .err stWrongState)
  else if fld w 0 31 9 ≠ 0 ∨ k < 4 then (s, .err stInvalid 1)
  else if fld w 1 31 18 ≠ 0 then (s, .err stInvalid 2)
  else match [3, 5, 7, 9].find? fun i => fld w i 31 16 != 0 with
    | some i => (s, .err stInvalid (i + 1))
    | none =>
      if !((List.range (nDies s)).all fun d => twinLoadOk s d [] []) then (s, .err stInvalid)
      else
        let us := (twinUplinks s).zipIdx
        let s := { s with twin := { s.twin with
          set := true
          sideB := bit (prm w 0) 0
          k := k
          partnerDev := fld w 1 17 0
          partnerMac := us.foldl (fun t x => t.put x.1 (w.getD (2 + 2 * x.2) 0, w.getD (3 + 2 * x.2) 0) (0, 0)) s.twin.partnerMac } }
        (us.foldl (fun s x =>
          let p := 512 + x.1
          peChanged s (restartVerify (modPort s p fun y => { y with pre := { y.pre with cfg := twinPreempt y.pre.cfg } }) p) p) s, .ok)

/-- TWIN_LEAD: the claim is tested at the next line base cycle boundary (R255). -/
def bodyTwinLead (_ : CmdHdr) (_ : List Word) (s : State) : State × Reply :=
  if s.twin.role ≠ .off ∧ s.twin.role ≠ .follower then (s, .err stWrongState)
  else
    let b := nextLine s (nowNs s)
    let b := if s.line.last.any fun n => decide (b ≤ cycleStart s s.line.baseCt n) then b + s.line.baseCt else b
    let s := atNs s b
    if claimLive s then (raise s 0x60004 2, .err stWrongState)
    else (setRole { s with twin := { s.twin with claimAt := b, viaLoss := false } } .claiming, .ok)

/-- TWIN_FOLLOW. -/
def bodyTwinFollow (_ : CmdHdr) (_ : List Word) (s : State) : State × Reply :=
  if s.twin.role ≠ .off then (s, .err stWrongState) else (setRole s .follower, .ok)

/-- TWIN_OFF: not while a twin course is not OFF, nor in CLAIMING. -/
def bodyTwinOff (_ : CmdHdr) (_ : List Word) (s : State) : State × Reply :=
  if s.twin.role = .claiming || s.ports.any fun e => e.2.ccfg.plane == 3 && e.2.course.state != 0 then (s, .err stWrongState)
  else (setRole s .off, .ok)

/-- TWIN_SYNC: every axis that is not OFF is to be synchronised. -/
def bodyTwinSync (_ : CmdHdr) (_ : List Word) (s : State) : State × Reply :=
  if s.twin.role ≠ .leader then (s, .err stWrongState)
  else
    let l := (s.axes.filter fun e => e.2.dyn.state != 0).map (·.1)
    ({ s with mirror := { s.mirror with syncing := true, syncQ := l } }, .ok)

/-- TWIN_HANDOVER (R269). In the last 8 cycles before B_h its block leaves at once. -/
def twinHandoverOp : TxnOp where
  prep := fun _ w s =>
    match lineBad s w 0 with
    | some r => some r
    | none => if s.twin.role = .leader ∧ bit s.twin.partner 2 = true then none else some (.err stWrongState)
  apply := fun _ w c s =>
    if s.twin.role ≠ .leader then .error (.err stWrongState)
    else
      let b := firstAt (ltAt w 0).1 s.line.baseCt (c + 4000)
      let s := { s with mirror := { s.mirror with handover := some b.1 } }
      .ok { s := if b.1 ≤ c + 8 * s.line.baseCt then sendHandover s b.1 else s, k := sat32 b.2, at_ := b.1 }
  words := fun _ _ a => [wd a.k]
  report := fun _ _ k _ => lateBit k
  undo := fun _ _ rb m s => if rb ≤ m.at_ then ({ s with mirror := { s.mirror with handover := none } }, 2) else (s, 0)

def execTwinQuery (h : CmdHdr) (w : List Word) (s : State) : Out := .next (runCmd s h 0x0A01 w bodyTwinQuery)
def execTwinSet (h : CmdHdr) (w : List Word) (s : State) : Out := .next (runCmd s h 0x0A02 w bodyTwinSet)
def execTwinLead (h : CmdHdr) (w : List Word) (s : State) : Out := .next (runCmd s h 0x0A03 w bodyTwinLead)
def execTwinFollow (h : CmdHdr) (w : List Word) (s : State) : Out := .next (runCmd s h 0x0A04 w bodyTwinFollow)
def execTwinHandover (h : CmdHdr) (w : List Word) (s : State) : Out := .next (runLater s h 0x0A05 w (bodyTxn 0x0A05 twinHandoverOp))
def execTwinSync (h : CmdHdr) (w : List Word) (s : State) : Out := .next (runCmd s h 0x0A06 w bodyTwinSync)
def execTwinOff (h : CmdHdr) (w : List Word) (s : State) : Out := .next (runCmd s h 0x0A07 w bodyTwinOff)

end Sys2Proof.Machine
end

