-- ==== Sys2Proof/Machine/Trim.lean ====
section
/-! DEFINITION. The reed trim (R271, R272, R355). -/

namespace Sys2Proof.Machine

/-- The end of a trim: its event, and on failure the code of the best round. -/
def trimEnd (s : State) (ok : Bool) : State :=
  let c := s.clock
  let c := if ok then { c with trimmed := true }
    else { c with trim := match s.trimRun.bind (·.best) with | some b => b.1 | none => c.trim }
  raise { s with trimRun := none, clock := c } 0x10004 (if ok then 4 else 8)

/-- x / y rounded to the nearest, halves upward. -/
def nearest (x y : Int) : Int := (2 * x + y) / (2 * y)

/-- A round has measured a residual of x / y ppm (y positive): within 12.5 ppm the trim is done; otherwise the code is set by steps
of 25 ppm and the next round begins, or the fourth round ends the trim (rounding DEDUCED, log entry 43). -/
def trimRound (s : State) (x y : Int) : State :=
  match s.trimRun with
  | none => s
  | some z =>
    let r20 := x * 2 ^ 20 / y
    let s := { s with clock := { s.clock with resid := clamp (-32768) 32767 (nearest x y) } }
    let best := match z.best with
      | some b => if r20.natAbs < b.2.natAbs then some (s.clock.trim, r20) else some b
      | none => some (s.clock.trim, r20)
    let z := { z with best := best, rounds := z.rounds + 1, cycles := 0 }
    let s := { s with trimRun := some z }
    if 2 * x.natAbs ≤ 25 * y.natAbs then trimEnd s true
    else if 4 ≤ z.rounds then trimEnd s false
    else { s with clock := { s.clock with trim := clamp (-2048) 2047 (s.clock.trim - nearest x (25 * y)) } }

/-- REED_TRIM_ROUND: reed edges counted over 2^20 REFCLK cycles. -/
def execReedTrimRound (edges : Nat) (s : State) : Out :=
  .next (if s.trimRun.any (·.port.isNone) then trimRound s (((edges : Int) - 2 ^ 20) * 1000000) (2 ^ 20) else s)

/-- A line base cycle of a trim against marks: without a pair of marks within 4,096 the trim fails. -/
def trimCycle (s : State) : State :=
  match s.trimRun with
  | some z =>
    if z.port.isNone then s
    else if 4096 ≤ z.cycles + 1 then trimEnd s false
    else { s with trimRun := some { z with cycles := z.cycles + 1 } }
  | none => s

/-- A mark with cycle number n, OFFSET o and e reed edges counted at its arrival: the first of a round, or one 1,024 to 4,096
cycles after it, which ends the round. -/
def trimMark (s : State) (n o e : Nat) : State :=
  match s.trimRun with
  | none => s
  | some z =>
    let first := { s with trimRun := some { z with mark := some (n, o, e) } }
    match z.mark with
    | none => first
    | some (n1, o1, e1) =>
      let d := (n + 2 ^ 32 - n1) % 2 ^ 32
      if d < 1024 then s
      else if 4096 < d then first
      else
        let ref : Int := (d * s.line.baseCt : Nat) + (o : Int) - o1
        let got : Int := 40 * ((e : Int) - e1)
        if ref ≤ 0 then first
        else trimRound { s with trimRun := some { z with mark := none } } ((got - ref) * 1000000) ref

/-- MARK_RECEIVE: a good MARK block on uplink u, with the reed edges counted at its arrival. -/
def execMarkReceive (u : Nat) (blk : List Byte) (reedEdges : Nat) (s : State) : Out :=
  .next (match blockIn s u 4 blk with
    | .error s => s
    | .ok _ => if s.trimRun.any fun z => z.port == some u then trimMark s (beAt blk 2 4) (beAt blk 6 2) reedEdges else s)

/-- REED_TRIM. -/
def bodyReedTrim (_ : CmdHdr) (w : List Word) (s : State) : State × Reply :=
  let marks := bit (prm w 0) 0
  let p := fld w 0 10 1
  let u := p - 512
  let good := 512 ≤ p && hyOn s u && [1, 3, 4].contains (lrole s u)
  if fld w 0 31 11 ≠ 0 ∨ (marks = true ∧ 520 ≤ p) then (s, .err stInvalid 1)
  else if marks = true ∧ hasPort s p = false then (s, .err stAbsent 1)
  else if marks = true ∧ good = false then (s, .err stInvalid 1)
  else if s.trimRun.isSome ∨ (marks = false ∧ s.clock.refOk = false) then (s, .err stWrongState)
  else ({ s with trimRun := some { port := if marks then some u else none } }, .ok [wd (uns 12 s.clock.trim)])

def execReedTrim (h : CmdHdr) (w : List Word) (s : State) : Out := .next (runCmd s h 0x0202 w bodyReedTrim)

end Sys2Proof.Machine
end

