-- ==== Sys2Proof/Machine/Line.lean ====
section
/-! DEFINITION. The line base cycle boundary: snapshots, digests, marks, claim, breath and synchronisation (R80, R85, R141, R254 to
R258, R269 to R271, R276, R355). -/

namespace Sys2Proof.Machine

/-- MARK blocks of boundary n on every Hyith link, unless their OFFSET would exceed 65,535 ns (R271). -/
def sendMarks (s : State) (n t : Nat) : State :=
  (List.range (4 * nDies s)).foldl (fun s u =>
    let ofs := (max (now16 s) (port s (512 + u)).txd.lineFree) / 65536 - t
    if hySends s u && ofs ≤ 65535 then sendBlock s u 4 (0 :: (be 4 n ++ be 2 ofs)) else s) s

/-- The image snapshot of cycle n: its buffer is written from the boundary on (R85). -/
def startSnapshot (s : State) (n : Nat) : State :=
  let m := s.image
  { s with image := { m with
      snap0 := if n % 2 = 0 then m.bytes else m.snap0
      snap1 := if n % 2 = 0 then m.snap1 else m.bytes
      snapWriting := n % 2 ^ 32
      published := false } }

/-- CLKOUT rises at boundary n, instant t, with code 10 selected: one boundary in DIV + 1 (R363). That it is the one whose number DIV + 1
divides is a DESIGN CHOICE (log entry 164). -/
def clkoutEdge (s : State) (n t : Nat) : State :=
  let v := s.clock.clkout.toNat
  if bits v 3 0 = 10 ∧ n % (bits v 15 4 + 1) = 0 then emit s (.clkout t) else s

/-- What happens in a package at boundary n, whose instant is t. -/
def lineWork (s : State) (n t : Nat) : State :=
  let s := fwdRollback (settleAxes (breathFall s) (t - 1)) t
  let s := settleAxes s t
  let s := captureDigests (startSnapshot s n) n
  let s := pruneLogs { s with mirror := { s.mirror with load := [] }, line := { s.line with last := some n } }
  let s := if coresRun s then { s with twin := { s.twin with fwRefresh := t } } else s
  let s := rootReturn s t
  let s := if s.twin.role = .off then s
    else
      let s := countSilence s n
      let s := claimStep (handoverAt s t) t
      syncStep (twinPins s t)
  let s := if s.twin.role = .off then s else sendBreath s n
  let s := clkoutEdge s n t
  sendMarks (trimCycle s) n t

/-- LINE_BASE_BOUNDARY: boundary n, once, while the engines run; with the course engine stopped LEAD_OUTn is released and BREATH_OUT falls
(R254, R256). -/
def execLineBaseBoundary (n : Nat) (s : State) : Out :=
  let t := cycleStart s s.line.baseCt n
  .next (
    if !(twinRuns s) then breathFall (releaseLead s)
    else if (s.line.last.any fun k => n ≤ k) || t + s.line.baseCt ≤ nowNs s then s
    else lineWork (atNs s t) n t)

/-- SNAPSHOT_PUBLISH: the snapshot of cycle n is published and SNAP_CYCLE set. -/
def execSnapshotPublish (n : Nat) (s : State) : Out :=
  .next (
    if !(twinRuns s) || s.image.published || s.image.snapWriting ≠ n % 2 ^ 32 || s.line.last.isNone then s
    else { s with image := { s.image with snapCycle := n % 2 ^ 32, published := true, ever := true } })

end Sys2Proof.Machine
end

