-- ==== Sys2Proof/Machine/Txn.lean ====
section
/-! DEFINITION. Transactions: open, commit, abort, query, the commit instant and the rollback (R298 to R304). -/

namespace Sys2Proof.Machine

/-- The parts of the opcodes that may join a transaction (R298). -/
def txnOpOf (op : Nat) : Option TxnOp :=
  match op with
  | 0x0505 => some valveStartOp
  | 0x0506 => some valveSwapOp
  | 0x0507 => some valveStopOp
  | 0x0606 => some courseStartOp
  | 0x0607 => some courseSwapOp
  | 0x0609 => some courseResumeOp
  | 0x060A => some courseStopOp
  | 0x0705 => some axisStartOp
  | 0x0707 => some axisOffOp
  | 0x0802 => some flowAddOp
  | 0x0803 => some flowWriteOp
  | 0x0804 => some flowDeleteOp
  | 0x0807 => some flowRecovResetOp
  | 0x0902 => some queueWriteOp
  | 0x0904 => some serviceSetOp
  | 0x0905 => some portShapeOp
  | 0x0A05 => some twinHandoverOp
  | 0x0E04 => some sysRootReturnOp
  | _ => none

/-! ### Opening and closing (R298) -/

def closeTxn (s : State) (id : Nat) : State := { s with txns := s.txns.filter fun t => t.id != id }

/-- The lowest TXID no transaction uses (DESIGN CHOICE, log entry 39). -/
def freeTxid (s : State) : Nat := (((List.range 255).map (· + 1)).find? fun i => s.txns.all fun t => t.id != i).getD 255

/-- TXN_OPEN. -/
def bodyTxnOpen (h : CmdHdr) (w : List Word) (s : State) : State × Reply :=
  let ms := prm w 0
  if ms = 0 ∨ 60000 < ms then (s, .err stInvalid 1)
  else if 16 ≤ s.txns.length then (s, .err stNoSpace)
  else
    let id := freeTxid s
    let t : Txn := { id := id, pcie := (match h.path with | .pcie => true | _ => false), path := h.path, opened := nowNs s,
                     expires := nowNs s + 1000000 * ms }
    ({ s with txns := s.txns ++ [t] }, .ok [wd id])

/-- TXN_ABORT. -/
def bodyTxnAbort (h : CmdHdr) (w : List Word) (s : State) : State × Reply :=
  if fld w 0 31 8 ≠ 0 then (s, .err stInvalid 1)
  else match findTxn s h (fld w 0 7 0) false with
    | none => (s, .err stTxnUnknown 1)
    | some t => (closeTxn s t.id, .ok)

/-- The position of the first member that bars a commit: one that failed to prepare, or lost its hold. -/
def barred (t : Txn) : Option Nat :=
  match t.failedAt, (t.members.findIdx? (·.lost)).map (· + 1) with
  | some a, some b => some (min a b)
  | some a, none => some a
  | none, b => b

/-- TXN_QUERY: members, whether a commit could be accepted, and C once one has been. -/
def bodyTxnQuery (h : CmdHdr) (w : List Word) (s : State) : State × Reply :=
  if fld w 0 31 8 ≠ 0 then (s, .err stInvalid 1)
  else match findTxn s h (fld w 0 7 0) true with
    | none => (s, .err stTxnUnknown 1)
    | some t => (s, .ok ([wd t.members.length, wd (b2n (t.commit.isNone && (barred t).isNone))] ++
        match t.commit with | some c => ltWords c.1 0 | none => [0, 0, 0]))

/-- TXN_EXPIRED: a transaction whose commit has not been accepted within its timeout is aborted. -/
def execTxnExpired (txid : Nat) (s : State) : Out :=
  .next (match s.txns.find? fun t => t.id == txid with
    | none => s
    | some t => if t.commit.isSome then s else raise (closeTxn (atNs s t.expires) txid) 0x70038 8)

/-! ### The reply of a commit (R302) -/

/-- What a member counts toward: (region, die), (none, die), or neither for the package. -/
def memberPlace (m : Member) : Option Nat × Option Nat :=
  if m.op = 0x0A05 ∨ m.op = 0x0E04 then (none, none)
  else if m.op / 256 = 7 then (some (regionOfAxis (fld m.w 0 13 0)), some (dieOfAxis (fld m.w 0 13 0)))
  else if m.h.scope = 3 then
    (if m.h.port < 512 then some (m.h.port / 64) else none, some (dieOfPort m.h.port))
  else (none, some m.h.die)

/-- The OK and FAIL bits of the members a test picks. -/
def okFail (ms : List Member) (f : Member → Bool) (okBit failBit : Nat) : Nat :=
  let l := ms.filter f
  (if !l.isEmpty && l.all (fun m => m.result == 0) then 2 ^ okBit else 0) + (if l.any (fun m => m.result == 3) then 2 ^ failBit else 0)

/-- The parameters after the status word; SYS_ROOT_RETURN has no k of R106, R153 or R269. -/
def commitWords (t : Txn) (c : Nat) : List Word :=
  let ms := t.members
  let w0 := ((List.range 8).map fun r => okFail ms (fun m => (memberPlace m).1 == some r) r (8 + r)).sum +
    ((List.range 2).map fun d => okFail ms (fun m => (memberPlace m).2 == some d) (16 + d) (18 + d)).sum +
    okFail ms (fun m => (memberPlace m).2.isNone) 20 21 + 2 ^ 22 * b2n t.partnerFail + 2 ^ 23 * b2n t.rollback.isSome
  [wd w0] ++ ltWords c 0 ++ (match t.rollback with | some r => ltWords r 0 | none => [0, 0, 0]) ++
    ms.flatMap fun m => [wd (m.h.tag.toNat * 65536 + m.outcome * 256 + m.result), wd (if m.op = 0x0E04 then 0 else m.k)]

/-! ### Acceptance (R300, R304) -/

/-- C as a TXN_COMMIT states it, or its first offending word. -/
def commitAt (s : State) (w : List Word) : Except Reply Nat :=
  let lim (d t : Nat) : Except Reply Nat :=
    if t < nowNs s + 20000 ∨ nowNs s + 60000000000 < t then .error (.err stTooLate d) else .ok t
  if fld w 0 31 10 ≠ 0 ∨ fld w 0 9 8 = 3 then .error (.err stInvalid 1)
  else match fld w 0 9 8 with
    | 0 => .ok (nowNs s + 20000)
    | 1 => match instantAt w 1 with
      | .error d => .error (.err stInvalid d)
      | .ok t => lim 2 t
    | _ => lim 5 (cycleStart s s.line.baseCt (w64 w 4))

/-- The position and status of the first member that fails a test at commit. -/
def commitTest (s : State) (c : Nat) (ms : List Member) : Option (Nat × Nat) :=
  ms.zipIdx.findSome? fun x =>
    match txnOpOf x.1.op with
    | some f => (f.test x.1.h x.1.w ms c s).map fun r => (x.2 + 1, r.st)
    | none => none

/-- The records of an accepted transaction's members that a LEADER forwards, with T_c = C. -/
def forwardMembers (s : State) (c : Nat) (ms : List Member) : State :=
  ms.foldl (fun s m =>
    if leads s m.op m.h then
      let w := if m.op = 0x0607 then m.w ++ [wd (bankCrc s (own s m.h.port))] else m.w
      sendRec s (fwdRegion m.h m.op m.w) (commandRec m.h m.op w c)
    else s) s

/-- The position of the first member that a LEADER forwards. -/
def firstForwarded (s : State) (ms : List Member) : Option Nat := (ms.findIdx? fun m => leads s m.op m.h).map (· + 1)

/-- Whether the FOLLOWER does its share of what is forwarded, if led says that something is (R304; DESIGN CHOICE, log entry 40). -/
def partnerDoes (s : State) (led : Bool) : State × Bool := if led then (useFree s, Config.freePartner s.free) else (s, true)

/-- TXN_COMMIT: its reply, or none where it is accepted and replies later. Where the FOLLOWER has not prepared the members forwarded to it
nothing commits, and DETAIL names the first of them (R304; DESIGN CHOICE, log entry 40). -/
def commitTxn (h : CmdHdr) (w : List Word) (s : State) : State × Option Reply :=
  match findTxn s h (fld w 0 7 0) false with
  | none => (s, some (.err stTxnUnknown 1))
  | some t =>
    match commitAt s w with
    | .error r => (s, some r)
    | .ok c =>
      let fail (pos st : Nat) : State × Option Reply :=
        let ms := t.members.zipIdx.map fun x => if x.2 + 1 = pos then { x.1 with result := 3, outcome := st } else
          if x.1.result = 3 then x.1 else { x.1 with outcome := x.1.st }
        (closeTxn s t.id, some { st := stTxnFailed, detail := pos, w := commitWords { t with members := ms } c })
      match barred t with
      | some n => fail n ((t.members[n - 1]?).elim stNoSpace fun m => if m.lost then stStopped else m.st)
      | none => match commitTest s c t.members with
        | some x => fail x.1 x.2
        | none =>
          let y := partnerDoes s (firstForwarded s t.members).isSome
          if y.2 then (forwardMembers (modTxn y.1 t.id fun t => { t with commit := some (c, h) }) c t.members, none)
          else
            let ms := t.members.map fun m => { m with outcome := m.st }
            (closeTxn y.1 t.id, some { st := stTxnFailed, detail := (firstForwarded s ms).getD 0
                                       w := commitWords { t with members := ms, partnerFail := true } c })

/-- TXN_COMMIT (R295: it ends when it is accepted). -/
def execTxnCommit (h : CmdHdr) (w : List Word) (s : State) : Out := .next (runLater s h 0x0E11 w commitTxn)

/-! ### The commit instant and the rollback (R301) -/

/-- Member i at C: its effect, or UNIT_STOPPED where its unit is out of reach. -/
def applyMember (s : State) (c : Nat) (m : Member) : State × Member :=
  let bad (st : Nat) : State × Member := (s, { m with result := 3, outcome := st })
  if m.lost || (stoppedTarget s m.op m.h m.w).isSome then bad stStopped
  else match txnOpOf m.op with
    | none => bad stStopped
    | some f => match f.apply m.h m.w c s with
      | .error r => bad r.st
      | .ok a => (a.s, { m with result := 0, outcome := 0, k := a.k, at_ := a.at_, undo := a.undo, applied := true })

/-- What a member's own reply says of its effect at C: k, in the words and the REPORT of its opcode. -/
def memberReply (s : State) (m : Member) : Reply :=
  match txnOpOf m.op with
  | some f => .rep (f.report m.h m.w m.k s) (f.words m.h m.w { s := s, k := m.k, at_ := m.at_, undo := m.undo })
  | none => .ok

/-- The outcome of a transaction of one command's own (R303): its reply, after its effect, or TXN_PARTIAL with nothing left
applied. An AXIS_OFF whose axis cannot go OFF fails with WRONG_STATE (R114). -/
def ownOutcome (h : CmdHdr) (s : State) (x : State × Member) : State :=
  let r : Reply := if x.2.applied then memberReply s x.2
    else .err (if x.2.op = 0x0707 ∧ x.2.outcome = stWrongState then stWrongState else stTxnPartial)
  deliver (closeTxn x.1 0) h x.2.op r

/-- TXN_COMMIT_APPLY: at C every member takes effect, in order; a failure, of the FOLLOWER too, schedules the rollback of those that
applied (R301, R304). TXID 0 is the transaction of a command on its own. It comes between B and the resumption of an activation too
(R383). -/
def execTxnCommitApply (txid : Nat) (s : State) : Out :=
  .next (match s.txns.find? fun t => t.id == txid with
    | none => s
    | some t => match t.commit with
      | none => s
      | some (c, h) =>
        if t.rollback.isSome || !(coresUp s) then s
        else
          let s := settleAxes (atNs s c) c
          match txid, t.members with
          | 0, m :: _ =>
            let y := partnerDoes s (leads s m.op m.h)
            let x := applyMember y.1 c m
            if !x.2.applied || y.2 then ownOutcome h y.1 x
            else modTxn x.1 0 fun t =>
              { t with members := [x.2], partnerFail := true, rollback := some (nextLine s (c + 10000)) }
          | _, ms =>
            let led := (firstForwarded s ms).isSome
            let y := partnerDoes s led
            let r := ms.foldl (fun (a : State × List Member) m =>
              let x := applyMember a.1 c m
              (x.1, a.2 ++ [x.2])) (y.1, [])
            let t := { t with members := r.2, partnerFail := !y.2 }
            if y.2 && r.2.all (·.applied) then deliver (closeTxn r.1 txid) h 0x0E11 { w := commitWords t c }
            else if !led && r.2.all (!·.applied) then
              deliver (closeTxn r.1 txid) h 0x0E11 { st := stTxnPartial, w := commitWords t c }
            else modTxn r.1 txid fun _ => { t with rollback := some (nextLine s (c + 10000)) })

/-- Member m rolled back at rb. -/
def undoMember (s : State) (rb : Nat) (m : Member) : State × Member :=
  if !m.applied then (s, m)
  else if m.lost then (s, { m with result := 1 })
  else match txnOpOf m.op with
    | none => (s, m)
    | some f => let x := f.undo m.h m.w rb m s; (x.1, { m with result := x.2 })

/-- TXN_ROLLBACK: the members that applied are rolled back, the last first, and the commit is answered. -/
def execTxnRollback (txid : Nat) (s : State) : Out :=
  .next (match s.txns.find? fun t => t.id == txid with
    | none => s
    | some t => match t.commit, t.rollback with
      | some (c, h), some rb =>
        if !(coresUp s) then s
        else
          let s := settleAxes (atNs s rb) (rb - 1)
          let r := t.members.foldr (fun m (a : State × List Member) =>
            let x := undoMember a.1 rb m
            (x.1, x.2 :: a.2)) (s, [])
          match txid, t.members with
          | 0, m :: _ => deliver (closeTxn r.1 0) h m.op (.err stTxnPartial)
          | _, _ => deliver (closeTxn r.1 txid) h 0x0E11 { st := stTxnPartial, w := commitWords { t with members := r.2 } c }
      | _, _ => s)

/-- Whether a reset, park or gate of kind k reaches a held unit (R299): a queue in its die's memory or with its port. -/
def reachesHeld (s : State) (k : ResetKind) : Held → Bool
  | .port p | .service p _ => coversPort k p
  | .axis a => coversRegion k (regionOfAxis a)
  | .flow f => coversDie k (dieOfFlow f)
  | .queue q => coversDie k (dieOfQueue q) || coversPort k (s.traffic.qcfg.look q {}).port
  | .buffer d => coversDie k d
  | .pulse _ | .package => coversPkg k

/-- The holds that a reset, park or gate ends. -/
def loseHolds (k : ResetKind) (s : State) : State :=
  { s with txns := s.txns.map fun t => { t with
      members := t.members.map fun m =>
        if m.held.any (reachesHeld s k) then { m with held := m.held.filter (fun u => !(reachesHeld s k u)), lost := true } else m } }

def execTxnOpen (h : CmdHdr) (w : List Word) (s : State) : Out := .next (runCmd s h 0x0E10 w bodyTxnOpen)
def execTxnAbort (h : CmdHdr) (w : List Word) (s : State) : Out := .next (runCmd s h 0x0E12 w bodyTxnAbort)
def execTxnQuery (h : CmdHdr) (w : List Word) (s : State) : Out := .next (runCmd s h 0x0E13 w bodyTxnQuery)

end Sys2Proof.Machine
end

