-- ==== Sys2Proof/Machine/Reset.lean ====
section
/-! DEFINITION. Resets: what they clear, their order, masks and hold times, the hand-over of command execution (R8 to R11, R14, R28,
R364 to R366, R388, R406). -/

namespace Sys2Proof.Machine

/-! ### What is cleared (R8 to R11, and the Kept entries of each chapter) -/

/-- The record of a course set OFF by a reset that reaches one of its ports (R108). -/
def courseOff (s : State) (p : Nat) : State :=
  let o := own s p
  if p < 512 ∧ (port s o).course.state ≠ 0 then setCourse (modCourse s o fun _ => { state := (port s o).course.state }) o 0 0 else s

/-- The ports a reset or state covers. -/
def coveredPorts (s : State) (k : ResetKind) : List Nat := (allPorts s).filter (coversPort k)

/-- The transmitters of the scope stop: courses OFF, links down. A reset ends SLEEP and a restart; a squelch stays (R341). -/
def stopPorts (k : ResetKind) (s : State) : State :=
  (coveredPorts s k).foldl (fun s p =>
    let s := setLink (courseOff s p) p false 0
    modPort s p fun x => { x with link := { squelched := x.link.squelched, localFault := x.link.localFault } }) s

/-- The axes, rules and image of a scope (R84, R142, R143). A reset that covers an axis sets it OFF with cause 0. -/
def clearAxes (low : Bool) (k : ResetKind) (s : State) : State :=
  let inScope (a : Nat) : Bool := coversRegion k (regionOfAxis a)
  let s := (keys s.axes).foldl (fun s a =>
    if !(inScope a) then s
    else
      let s := if low then s else setAxisState s a 0 0
      let die := coversDie k (dieOfAxis a) && !(survives low k 24)
      modAxis s a fun x =>
        { cfg := if die then {} else x.cfg
          rules := if die then [] else x.rules
          oldRules := if die then [] else x.oldRules
          dyn := if low then x.dyn else {}
          run := if low then { x.run with cache := [] } else {} }) s
  if low then s
  else
    let m := s.image
    { s with
      image := { m with
        bytes := m.bytes.drop fun i => inScope (i / 128)
        log := (m.bytes.filter fun e => inScope (e.1 / 128)).map (fun e => (now16 s, e.1, e.2)) ++ m.log
        staging := m.staging.drop fun i => inScope (i / 64)
        stagingLog := m.stagingLog.filter fun e => !(inScope (e.2.1 / 64)) }
      digests := s.digests.drop fun r => coversRegion k r }

/-- Pending reflex actions that the reset of a target axis or of a port takes away (R139). -/
def loseActs (k : ResetKind) (s : State) : State :=
  { s with reflex := s.reflex.map fun y => { y with
      lost := y.lost || coversRegion k (regionOfAxis (bits y.rule.w4.toNat 13 0))
      lostSafe := y.lostSafe || coversPort k y.port } }

/-- The flow table, queue tables and buffer settings of the dies of a scope (R177, R224). The flow table is retained in DIE-PARK. -/
def clearTraffic (low : Bool) (k : ResetKind) (s : State) : State :=
  let c (d : Nat) : Bool := coversDie k d
  let t := s.traffic
  let gone (n : Nat) : Bool := !low && c n
  { s with traffic := { t with
      flows := t.flows.drop fun f => gone (dieOfFlow f)
      latent := t.latent.drop fun i => gone (i / 8)
      fdie := t.fdie.drop fun d => gone d
      qcfg := t.qcfg.drop fun q => c (dieOfQueue q)
      qdyn := t.qdyn.drop fun q => c (dieOfQueue q)
      buf := t.buf.drop fun d => c d
      spilling := t.spilling.drop fun d => c d
      lastQueue := t.lastQueue.drop fun d => c d } }

/-- The mover of the dies of a scope (R323): transfers in flight end without records. -/
def clearMover (k : ResetKind) (s : State) : State :=
  { s with
    chans := s.chans.drop fun m => coversDie k (dieOfMover m)
    rings := s.rings.drop fun i => coversDie k (i / 4)
    mdies := s.mdies.drop fun d => coversDie k d }

/-- The Hyith links of the uplinks of a scope start again. -/
def clearLinks (k : ResetKind) (s : State) : State :=
  let c (u : Nat) : Bool := coversDie k (u / 4)
  { s with
    hlinks := s.hlinks.mapVals (fun l => l) {} |>.foldl (fun t e =>
      if c e.1 then t.put e.1 { ranges := e.2.ranges } {} else t.put e.1 e.2 {}) []
    time := { s.time with links := s.time.links.foldl (fun t e =>
      if c e.1 then t.put e.1 { a := e.2.a } {} else t.put e.1 e.2 {}) [] } }

/-- The lanes of the dies of a scope: their measured latencies and, but for a low-power state, their settings. -/
def clearLanes (low : Bool) (k : ResetKind) (s : State) : State :=
  (List.range 136).foldl (fun s q =>
    if !((lanePorts q).all fun p => coversPort k p && hasPort s p) then s
    else if low then modLane s q fun l => { l with off := true, lock := false, recal := none, retry := false }
    else if !(coversDie k (dieOfPort ((lanePorts q).headD 0))) then s
    else modLane s q fun _ => { lock := false, recal := some 1, recalAt := if coversPkg k then 0 else nowNs s }) s

/-- DDR4 of the dies of a scope: rings, staging and archive do not survive (R143, R389, R401), and the channel is trained anew: until
then it is not trained, the condition of DDR_FAIL (R328). -/
def clearDdr (k : ResetKind) (s : State) : State :=
  let s := { s with ddr := s.ddr.filter fun e => !(coversDie k (e.1 / 2 ^ 36)) }
  (List.range (nDies s)).foldl (fun s d =>
    if coversDie k d then standCond (modDdrChan s d fun c => { c with trained := false, hot := false, resetN := false }) (.die d) 8 true else s) s

/-- A die's trace queue and pending lost count (R393; DEDUCED, log entry 160). -/
def clearTrace (k : ResetKind) (s : State) : State :=
  (List.range 2).foldl (fun s d =>
    if coversDie k d then { s with trace := { s.trace with queue := s.trace.queue.put d [] [], pend := s.trace.pend.put d 0 0 } } else s) s

/-- What die 0 holds for the package: the FIFOs and the observation block (R297, R401; log entry 23), the staging slots. -/
def clearDie0 (low : Bool) (k : ResetKind) (s : State) : State :=
  if !(coversDie k 0) then s
  else
    let s := { s with fifo := {} }
    if low then s
    else { s with
      trace := {}
      arch := {}
      sec := { s.sec with slot0 := {}, slot1 := {}, staging := none, verifying := none } }

/-- The package's own state at a PKG, PIN or POR reset (R49, R253, R307, R347, R349, R372, R373, R389). The counter is 0 when the reset
begins and counts through the hold (DESIGN CHOICE, log entry 143): a threshold window, a minimum pulse of FAULTn and a mask that
run then end as much later as they would have (R333, R342, R343). -/
def clearPackage (k : ResetKind) (s : State) : State :=
  let pin := k != .pkg
  let back (t : Nat) : Nat := t - nowNs s
  let o := s.clock
  let c : Clock := { o with tripped := 0, freqWin := if pin then 0x14 else o.freqWin, clkout := if pin then 0 else o.clkout }
  let s : State := { s with
    time := {}
    line := if k = .por then {} else { s.line with last := none }
    pulse := {}
    twin := {}
    mirror := {}
    hlinks := []
    sys := {}
    mgmtQ := []
    hyithQ := []
    relayed := []
    txns := []
    reflex := []
    trimRun := none
    fresh := {}
    clock := c
    image := {}
    power := { rstCause := if k = .por then 0 else if pin then 1 else 2, lockstep := s.otp.part5124,
               masks := s.power.masks.map fun m => (m.1, m.2.map back), ends := s.power.ends, pinHeld := s.power.pinHeld, held := s.power.held
               heldAcc := if pin then [] else s.power.heldAcc }
    sec := { bootSrc := s.sec.bootSrc, bootState := 0, ran := false }
    safety := if pin then { asserted := true, pulseEnd := some 10000 }
      else { s.safety with lsoDrive := 0, pulseEnd := s.safety.pulseEnd.map back, told := (0, []) } }
  if pin then
    { s with
      faults := s.faults.mapVals (fun f => { cond := f.cond }) {}, vecs := [], rails := [], faultPend := []
      ports := s.ports.mapVals (fun x => { x with link := { x.link with squelched := false } }) {} }
  else { s with faults := s.faults.mapVals (fun f => { f with winEnd := f.winEnd.map back, slow := none }) {} }

/-- Everything a reset clears in its scope (R364). BASE_CT and ANCHOR are objects of the package, which lies in the scope of no reset
of a die, a region or a port: those do not reach them (DEDUCED, log entry 142). -/
def clearScope (k : ResetKind) (s : State) : State :=
  let s := (coveredPorts s k).foldl (clearPort false k) s
  let s := loseHolds k (clearTraffic false k (clearAxes false k (loseActs k s)))
  let s := match k with
    | .port _ | .region _ => s
    | _ => clearTrace k (clearDie0 false k (clearDdr k (clearLanes false k (clearLinks k (clearMover k s)))))
  let s := if coversPkg k then clearPackage k s else s
  clearRegs false k s

/-- Everything entry into a low-power state clears in its scope (R11, R370). BASE_CT and ANCHOR, Kept WK, are lost in STANDBY (R79). -/
def clearLow (k : ResetKind) (s : State) : State :=
  let s := (coveredPorts s k).foldl (clearPort true k) s
  let s := loseHolds k (clearTraffic true k (clearAxes true k (loseActs k s)))
  let s := clearLanes true k s
  let s := match k with
    | .port _ | .region _ => s
    | _ => clearTrace k (clearDie0 true k (clearMover k s))
  let s := if k = .standby then { s with line := {} } else s
  clearRegs true k s

/-! ### A reset (R364 to R366) -/

/-- R364: the time a reset is held. -/
def holdNs : ResetKind → Nat
  | .port _ => 1000 | .region _ => 2000 | .die _ => 10000 | _ => 20000

/-- Whether reset a covers reset b, as wide or wider. -/
def absorbs (a b : ResetKind) : Bool :=
  match a, b with
  | .por, _ => true
  | .pin, .por => false
  | .pin, _ => true
  | .pkg, .por => false
  | .pkg, .pin => false
  | .pkg, _ => true
  | .die d, .die e => d == e
  | .die d, .region r => r / 4 == d
  | .die d, .port p => dieOfPort p == d
  | .region r, .region q => r == q
  | .region r, .port p => p < 512 && p / 64 == r
  | .port p, .port q => p == q
  | _, _ => false

/-- A region's or die's state of R373. -/
def setRegion (s : State) (r v : Nat) : State := { s with power := { s.power with region := s.power.region.put r v 0 } }
def setDie (s : State) (d v : Nat) : State := { s with power := { s.power with die := s.power.die.put d v 0 } }

/-- The states of a scope's regions and dies set to v. -/
def setScope (k : ResetKind) (v : Nat) (s : State) : State :=
  match k with
  | .region r => setRegion s r v
  | .die d => (List.range 4).foldl (fun s i => setRegion s (4 * d + i) v) (setDie s d v)
  | .port _ => s
  | _ => (List.range (4 * nDies s)).foldl (fun s r => setRegion s r v)
      ((List.range (nDies s)).foldl (fun s d => setDie s d v) s)

/-- The opcode of the command whose gate handshake runs: PARK_SET or STANDBY_ENTER. -/
def gateOp (k : ResetKind) : Nat := if k = .standby then 0x0206 else 0x0204

/-- Whether a reset of kind k reaches a region or die in the handshake of gate g (R366). -/
def reachesGate (k g : ResetKind) : Bool :=
  absorbs k g || (match k with | .region r => coversRegion g r | .die d => coversDie g d | _ => false)

/-- The gate request that a reset ends (R366): its command replies UNIT_STOPPED. -/
def dropGate (k : ResetKind) (s : State) : State :=
  match s.power.gate with
  | some (g, _, h) =>
    if reachesGate k g then deliver { s with power := { s.power with gate := none } } h (gateOp g) (.err stStopped) else s
  | none => s

/-- LOCKSTEP (R373, R388): whether the standby pair is in lockstep, with the condition of source LOCKSTEP. -/
def setLockstep (s : State) (b : Bool) : State :=
  setCond { s with power := { s.power with lockstep := b } } .package 5 (!b && s.otp.part5124)

/-- A reset of kind k begins, in the order of R365, unless a reset as wide absorbs it. -/
def beginReset (k : ResetKind) (s : State) : State :=
  if s.power.ends.any (fun e => absorbs e.1 k) then s
  else
    let s := beginMask s k
    let s := dropGate k s
    let p := s.power
    let s := { s with
      power := { p with
        ends := p.ends.filter (fun e => !(absorbs k e.1)) ++ [(k, none)]
        masks := p.masks.filter (fun m => m.1 == k || !(absorbs k m.1))
        leaving := p.leaving.filter (fun e => !(absorbs k e.1))
        handover := p.handover.map fun x => (x.1, x.2.filter fun y => !(absorbs k (.die y.1)))
        held := if coversPkg k then some k else p.held }
      safety := { s.safety with regionDue := s.safety.regionDue.filter fun r => !(coversRegion k r) } }
    let s := setScope k 2 s
    let s := clearScope k (stopPorts k s)
    let s := if coversPkg k then setScope k 2 s else s
    let s := if k = .pin then s else
      { s with power := { s.power with ends := s.power.ends.map fun e => if e.1 = k then (k, some (nowNs s + holdNs k)) else e } }
    match k with
    | .die _ => if s.otp.part5124 then setLockstep s false else s
    | .pkg | .pin | .por => setLockstep s s.otp.part5124
    | _ => s

/-- An issued reset reaches its instant. A DIE reset of the die whose pair executes commands first hands control over, at the first
line base cycle boundary strictly after (R28, R365). -/
def issueReset (s : State) (k : ResetKind) : State :=
  match k with
  | .die d =>
    if s.otp.part5124 && d == b2n s.power.active1 then
      { s with power := { s.power with handover := some (nextLine s (nowNs s + 1), some (d, false)) } }
    else beginReset k s
  | _ => beginReset k s

/-- RESET_BEGIN: a reset issued by RESET_ISSUE begins at its boundary. -/
def plainResetBegin (k : ResetKind) (s : State) : Out :=
  .next (match s.power.resetAt.find? fun e => e.1 == k with
    | none => s
    | some (_, t) =>
      let s := atNs s t
      issueReset { s with power := { s.power with resetAt := s.power.resetAt.filter fun e => !(e.1 == k && e.2 == t) } } k)

/-- The pair of a die whose reset or DIE-PARK has ended will rejoin lockstep (R28, R370), unless a memory error keeps die 0's
out. -/
def pairReturns (s : State) (d : Nat) : State :=
  if s.otp.part5124 && !(d == 0 && s.power.memError) then { s with power := { s.power with rejoin := true } } else s

/-- The lanes of a scope that are powered off run a full recalibration, unless all their ports sleep (R244, R370). -/
def wakeLanes (k : ResetKind) (s : State) : State :=
  (List.range 136).foldl (fun s q =>
    if (lane s q).off && (lanePorts q).any (coversPort k) && !((lanePorts q).all fun p => (port s p).link.sleeping) then
      startFullRecal s q
    else s) s

/-- RESET_RELEASE: the hold time of a reset is over, and its scope runs again. -/
def execResetRelease (k : ResetKind) (s : State) : Out :=
  .next (match s.power.ends.find? fun e => e.1 == k with
    | some (_, some t) =>
      let s := atNs s t
      let s := endMask { s with power := { s.power with ends := s.power.ends.filter (fun e => e.1 != k) } } k
      let s := regionsAgain (wakeLanes k (setScope k 0 s))
      match k with
      | .die d => pairReturns (trainDdr s d) d
      | .pkg => { s with power := { s.power with held := none } }
      | .pin => { s with power := { s.power with held := none, pinHeld := false } }
      | _ => s
    | _ => s)

/-! ### PIN reset, POR, PERSTn, function level reset -/

/-- The window of OSC_WAIT for a code of OSC_DLY, in ns (R361). -/
def oscWindow (dly : Nat) : Nat := 500000 * 2 ^ dly

/-- The start-up of the clocks: OSC_WAIT from a release at ns t, with the straps sampled. -/
def startClocks (c : Clock) (t dly : Nat) : Clock :=
  { c with
    state := .oscWait, pllLock := false, rampDiv := 64, fromTrip := false, triedOther := false, refReed := false,
    oscDly := dly, due := t + oscWindow dly }

/-- PIN_RESET: RSTn low for 1 us applies a PIN reset, held until 10 us after RSTn is high; a pulse during it holds it again. The
straps are sampled as RSTn rises, and a clock machine in CLOCK_WAIT starts again (R359, R361, R364). -/
def execPinReset (low : Bool) (oscDly : BitVec 3) (bootSrc : BitVec 2) (s : State) : Out :=
  .next (
    if low then
      let s := { s with pins := { s.pins with rstn := false }, power := { s.power with pinHeld := true } }
      let s := if s.power.ends.any (fun e => e.1 == .pin) then
          { s with power := { s.power with ends := s.power.ends.map fun e => if e.1 = .pin then (.pin, none) else e } }
        else beginReset .pin s
      { s with pcie := { s.pcie with up := false, flr0 := s.pcie.flr0 + 1, flr1 := s.pcie.flr1 + 1 } }
    else if !s.power.pinHeld then s
    else { s with
      pins := { s.pins with rstn := true }
      tap := {}
      clock := if s.clock.state = .clockWait then startClocks s.clock (nowNs s) oscDly.toNat else { s.clock with oscDly := oscDly.toNat }
      sec := { s.sec with bootSrc := bootSrc.toNat }
      power := { s.power with ends := s.power.ends.map fun e => if e.1 = .pin then (.pin, some (nowNs s + 10000)) else e } })

/-- The package as POR leaves it: every field at its reset value but OTP and what is fitted on the board (R10), clocks stopped,
nothing of the packets waiting or sent. -/
def porState (s : State) : State :=
  { State.reset with
    otp := s.otp
    free := s.free
    pending := s.pending
    out := s.out
    pins := { s.pins with rstn := true }
    ddrc := (List.range (nDies s)).foldl (fun t d => t.put d { trained := false, gib := (ddrChan s d).gib, resetN := false } {}) []
    faults := (List.range (nDies s)).foldl (fun t d => t.put (srcKey (.die d) 8) { cond := true } {})
      ((s.faults.mapVals (fun f => { cond := f.cond }) {}).put (srcKey .package 0) { cond := true } {})
    lanes := (List.range 136).foldl (fun t q => t.put q { lock := false, recal := some 1 } {}) []
    pcie := { up := false, flr0 := s.pcie.flr0 + 1, flr1 := s.pcie.flr1 + 1 } }

/-- POR: held while a rail is low and 1 ms more; its release samples the straps and starts the clocks at OSC_WAIT (R359, R364,
R407). Line time starts again at zero. -/
def execPor (oscDly : BitVec 3) (bootSrc : BitVec 2) (s : State) : Out :=
  let z := porState s
  .next { z with
    safety := { asserted := true, pulseEnd := some 10000 }
    clock := { startClocks ({} : Clock) 0 oscDly.toNat with reedQual := false, refOk := false, trimmed := false }
    sec := { bootSrc := bootSrc.toNat, bootState := 0, ran := false }
    power := { lockstep := s.otp.part5124, masks := [(.por, some 640)] } }

/-- PERSTN: PERSTn low resets the PCIe endpoint alone; a packet in filling is rewound with reason ABORT. It trains again as PERSTn
rises, once the boot ROM has released training (R406). -/
def execPerstn (low : Bool) (s : State) : Out :=
  let s := { s with pins := { s.pins with perstn := !low } }
  .next (
    if low then
      let s := { s with pcie := { s.pcie with up := false, flr0 := s.pcie.flr0 + 1, flr1 := s.pcie.flr1 + 1 } }
      if inFilling s.fifo then rewind s 1 else s
    else if s.power.pinHeld || s.sec.bootState = 0 || !s.clock.pciOk then s
    else { s with pcie := { s.pcie with up := true } })

/-- FUNCTION_LEVEL_RESET: the configuration state and MSI-X table of one function; nothing of the device (R364). -/
def execFunctionLevelReset (pf1 : Bool) (s : State) : Out :=
  .next (if pf1 then { s with pcie := { s.pcie with flr1 := s.pcie.flr1 + 1 } }
    else { s with pcie := { s.pcie with flr0 := s.pcie.flr0 + 1 } })

/-! ### PORT_RESET and RESET_ISSUE (R247, R364, R371) -/

/-- PORT_RESET. -/
def bodyPortReset (h : CmdHdr) (_ : List Word) (s : State) : State × Reply :=
  if (courseOf s h.port).state ≠ 0 then (s, .err stWrongState) else (beginReset (.port h.port) s, .ok)

/-- The reset a RESET_ISSUE names. -/
def issueKind (h : CmdHdr) : ResetKind :=
  match h.scope with | 1 => .die h.die | 2 => .region h.region | _ => .pkg

/-- Whether R28 or R42 refuses a reset or park of die d: no pair to hand over to, or the other not in lockstep. -/
def dieBarred (s : State) (d : Nat) : Bool :=
  if s.otp.part5124 then d == b2n s.power.active1 && !s.power.lockstep else true

/-- RESET_ISSUE: the reset begins at the first line base cycle boundary at or after the reply + 100 us. -/
def bodyResetIssue (h : CmdHdr) (w : List Word) (s : State) : State × Reply :=
  if prm w 0 ≠ 1 then (s, .err stInvalid 1)
  else if h.scope = 1 ∧ dieBarred s h.die = true then (parkRefused s (8 + h.die) 5 0x3FF, .err stWrongState)
  else
    ({ s with power := { s.power with resetAt := s.power.resetAt ++ [(issueKind h, nextLine s (nowNs s + 100000))] } }, .ok)

def execPortReset (h : CmdHdr) (w : List Word) (s : State) : Out := .next (runCmd s h 0x0308 w bodyPortReset)
def execResetIssue (h : CmdHdr) (w : List Word) (s : State) : Out := .next (runCmd s h 0x0205 w bodyResetIssue)

end Sys2Proof.Machine
end

