-- ==== Sys2Proof/Machine/Park.lean ====
section
/-! DEFINITION. Low-power states of regions, dies and the package, the gate handshake, hand-over and lockstep of the control cores
(R21, R28, R30, R42, R367 to R373, R388). -/

namespace Sys2Proof.Machine

/-! ### Events of the resets and power block -/

/-- A power event with its target and reason (R373). -/
def powerEvent (s : State) (target reason bs : Nat) : State :=
  raise { s with power := { s.power with lastTarget := target, lastReason := reason, lastPort := 0x3FF } } 0x2000C bs

/-- LAST_TARGET of a scope. -/
def scopeTarget : ResetKind → Nat
  | .region r => r | .die d => 8 + d | .port p => targetOf p | _ => 10

/-- The words of the resets and power block (R373). -/
def powerReg (s : State) (o : Nat) : Nat :=
  let p := s.power
  match o with
  | 0x000 => p.rstCause
  | 0x004 => (List.range (4 * nDies s)).foldl (fun a r =>
      let shake := match p.gate with | some (k, _, _) => coversRegion k r && regionState s r == 0 | none => false
      a + (if shake then 3 else regionState s r) * 4 ^ r) 0
  | 0x008 => (List.range (nDies s)).foldl (fun a d =>
      let enter := (match p.gate with | some (k, _, _) => coversDie k d && dieState s d == 0 | none => false) ||
        (match p.handover with | some (_, some (e, true)) => e == d | _ => false) || p.leaving.any fun e => e.1 == .standby
      a + (if enter then 3 else dieState s d) * 4 ^ d) 0 + 16 * b2n p.active1 + 32 * b2n p.lockstep
  | 0x014 => p.lastTarget + 16 * p.lastReason + 256 * p.lastPort
  | o => reg s (0x20000 + o)

/-! ### Entry (R370) -/

/-- The links of a scope go down as its lanes stop. -/
def linksDown (k : ResetKind) (s : State) : State :=
  (coveredPorts s k).foldl (fun s p =>
    modPort (setLink s p false 0) p fun x => { x with link := { x.link with phySpeed := none, phyUp := false, restart := false } }) s

/-- Whether a scope holds another, or is it. -/
def within (k e : ResetKind) : Bool := if coversPkg k then e != .pin && e != .por && e != .pkg else absorbs k e

/-- What ends as its scope stops: the ways out of low-power states in it, and the resets in progress there with their masks. -/
def endWithin (k : ResetKind) (s : State) : State :=
  { s with power := { s.power with
      leaving := s.power.leaving.filter fun e => !(within k e.1)
      ends := s.power.ends.filter fun e => !(within k e.1)
      masks := s.power.masks.filter fun e => !(within k e.1 && e.2.isNone) } }

/-- A scope enters its low-power state: PARK, DIE-PARK, or STANDBY of the package, which stops the control cores and releases
LSO. -/
def enterLow (k : ResetKind) (s : State) : State :=
  let s := endWithin k (clearLow k (linksDown k s))
  match k with
  | .region r => powerEvent (setRegion s r 1) r 0 8
  | .die d =>
    let s := setScope k 1 (modDdrChan s d fun c => { c with trained := false })
    powerEvent (if s.otp.part5124 then setLockstep s false else s) (8 + d) 0 8
  | _ =>
    let s := (List.range (nDies s)).foldl (fun s d => modDdrChan s d fun c => { c with trained := false }) (setScope k 1 s)
    { s with
      power := { s.power with held := some .standby, handover := none, resetAt := [] }
      safety := { s.safety with lsoDrive := 0 }
      twin := { s.twin with role := .off }
      txns := []
      mgmtQ := []
      hyithQ := []
      relayed := [] }

/-! ### PARK_SET and STANDBY_ENTER (R367, R368, R370, R371) -/

/-- The reason R370 refuses a state for a scope: a course, an axis or a mover channel that is not at rest. -/
def lowBarred (s : State) (k : ResetKind) : Option Nat :=
  if (coveredPorts s k).any (fun p => (courseOf s p).state != 0) then some 2
  else if s.axes.any (fun e => coversRegion k (regionOfAxis e.1) && e.2.dyn.state != 0) then some 3
  else if s.chans.any (fun e => coversDie k (dieOfMover e.1) && e.2.state != 0 && e.2.state != 4) then some 4
  else none

/-- The scope of a PARK_SET. -/
def parkKind (h : CmdHdr) : ResetKind := if h.scope = 1 then .die h.die else .region h.region

/-- The state of a scope (R373). -/
def scopeState (s : State) (k : ResetKind) : Nat :=
  match k with | .region r => regionState s r | .die d => dieState s d | _ => 0

/-- The handshake of a gate request begins: 64 CTRL cycles (R368). The command's reply waits for its end. -/
def openGate (s : State) (h : CmdHdr) (k : ResetKind) : State :=
  { s with power := { s.power with gate := some (k, nowNs s + 320, h) } }

/-- Whether a reset holds a scope, or a region of it, or what contains it. -/
def heldByReset (s : State) (k : ResetKind) : Bool :=
  match k with
  | .region r => regionState s r == 2 || dieState s (r / 4) != 0
  | .die d => dieState s d == 2 || (List.range 4).any fun i => regionState s (4 * d + i) == 2
  | _ => false

/-- PARK_SET: the state after it, and its reply unless a handshake has begun. -/
def parkSet (s : State) (h : CmdHdr) (w : List Word) : State × Option Reply :=
  let k := parkKind h
  let way := s.power.leaving.any fun e => e.1 == k
  if fld w 0 31 1 ≠ 0 then (s, some (.err stInvalid 1))
  else if h.scope = 1 ∧ s.otp.part5124 = false then (parkRefused s 8 5 0x3FF, some (.err stWrongState))
  else if heldByReset s k then (accessErr s (scopeTarget k), some (.err stStopped))
  else if !(bit (prm w 0) 0) then
    if scopeState s k = 1 ∧ way = false then
      let t := nowNs s + (if h.scope = 1 then 28000 else 12000)
      let s := { s with power := { s.power with leaving := s.power.leaving ++ [(k, t)] } }
      (if h.scope = 1 then setDie s h.die 3 else s, some .ok)
    else (s, some .ok)
  else if way then
    let s := { s with power := { s.power with leaving := s.power.leaving.filter fun e => e.1 != k } }
    (if h.scope = 1 then setDie s h.die 1 else s, some .ok)
  else if scopeState s k = 1 then (s, some .ok)
  else match lowBarred s k with
    | some y => (parkRefused s (scopeTarget k) y 0x3FF, some (.err stRefused))
    | none =>
      if h.scope = 1 ∧ dieBarred s h.die = true then (parkRefused s (scopeTarget k) 5 0x3FF, some (.err stRefused))
      else (openGate s h k, none)

/-- PARK_SET. -/
def execParkSet (h : CmdHdr) (w : List Word) (s : State) : Out :=
  let g := gateCmd s h 0x0204 w
  .next (
    if !g.2 then g.1
    else
      let x := parkSet g.1 h w
      match x.2 with | some r => deliver x.1 h 0x0204 r | none => x.1)

/-- STANDBY_ENTER: refused unless the twin role is OFF and both dies meet DIE-PARK's conditions, die 0's hand-over excepted. -/
def execStandbyEnter (h : CmdHdr) (w : List Word) (s : State) : Out :=
  let g := gateCmd s h 0x0206 w
  let s := g.1
  .next (
    if !g.2 then s
    else if prm w 0 ≠ 1 then deliver s h 0x0206 (.err stInvalid 1)
    else if s.twin.role ≠ .off then deliver (parkRefused s 10 6 0x3FF) h 0x0206 (.err stRefused)
    else match lowBarred s .standby with
      | some y => deliver (parkRefused s 10 y 0x3FF) h 0x0206 (.err stRefused)
      | none => openGate s h .standby)

/-! ### Exit (R370) -/

/-- WAKE: a write of 0b1 to WAKE takes the package out of STANDBY. -/
def execWakeWrite (s : State) : Out :=
  .next (busWrite s 0x20020 fun s =>
    if s.power.held = some .standby ∧ s.power.leaving.all (fun e => e.1 != .standby) then
      { s with power := { s.power with leaving := s.power.leaving ++ [(.standby, nowNs s + 28000)] } }
    else s)

/-- A die's state as it leaves DIE-PARK: the flow table initialised again (R177), DDR4 retrained. -/
def dieWakes (s : State) (d : Nat) : State := flowUnpark (trainDdr s d) d

/-- UNPARK_DONE: power switches and ramp are over and the scope runs. Leaving STANDBY ends in the boot flow, which both pairs run in
lockstep unless a memory error keeps die 0's out (R370, R377, R388). -/
def execUnparkDone (k : ResetKind) (s : State) : Out :=
  .next (match s.power.leaving.find? fun e => e.1 == k with
    | none => s
    | some (_, t) =>
      let s := atNs s t
      let s := { s with power := { s.power with leaving := s.power.leaving.filter fun e => e.1 != k } }
      let s := setScope k 0 s
      let s := match k with
        | .die d => pairReturns (dieWakes s d) d
        | .standby =>
          let s := (List.range (nDies s)).foldl dieWakes s
          let s := setLockstep s (s.otp.part5124 && !s.power.memError)
          { s with
            power := { s.power with held := none, rstCause := 3, active1 := s.power.memError }
            sec := { s.sec with bootState := 0, ran := false } }
        | _ => s
      powerEvent (regionsAgain (wakeLanes k s)) (scopeTarget k) 0 16)

/-! ### The two control-core pairs (R28, R30, R388) -/

/-- CONTROL_HANDOVER: at its line base cycle boundary command execution passes to the other pair; the reset or DIE-PARK that waited
for it begins. -/
def plainControlHandover (s : State) : Out :=
  .next (match s.power.handover with
    | none => s
    | some (t, w) =>
      let s := atNs s t
      let s := { s with power := { s.power with handover := none, active1 := !s.power.active1 } }
      match w with
      | some (d, false) => beginReset (.die d) s
      | some (d, true) => enterLow (.die d) s
      | none => s)

/-- LOCKSTEP_REJOIN: the pair that was away is in lockstep again; control returns to die 0's at the next boundary. -/
def execLockstepRejoin (s : State) : Out :=
  .next (
    if !s.power.rejoin || !((List.range (nDies s)).all (dieRuns s)) || s.power.memError then s
    else
      let s := setLockstep { s with power := { s.power with rejoin := false } } true
      if s.power.active1 && s.power.handover.isNone then
        { s with power := { s.power with handover := some (nextLine s (nowNs s + 1), none) } }
      else s)

/-- CORE_MEMORY_ERROR: an uncorrectable error in the die 0 control-core memory. The die 1 pair takes over at the next line base
cycle boundary, and the die 0 pair stays out of service (R388). Where the die 1 pair has control already, a hand-over back to die 0's
that waits is off, with the reset or park of die 1 that waited for it (DESIGN CHOICE, log entry 165). The MHV-2562 has no pair that
could take over (R42). -/
def execCoreMemoryError (s : State) : Out :=
  .next (
    if !s.otp.part5124 || s.power.memError then s
    else
      let s := setLockstep { s with power := { s.power with memError := true, rejoin := false } } false
      if s.power.active1 then { s with power := { s.power with handover := none } }
      else
        let w := s.power.handover.bind (·.2)
        { s with power := { s.power with handover := some (nextLine s (nowNs s + 1), w) } })

/-- LOCKSTEP_MISMATCH: the die 1 pair leaves lockstep; never a takeover (R388). -/
def execLockstepMismatch (s : State) : Out :=
  .next (if s.otp.part5124 then setLockstep s false else s)

end Sys2Proof.Machine
end

