-- ==== Sys2Proof/Machine/Boot.lean ====
section
/-! DEFINITION. Images, boot, staging, activation, the rollback counter and attestation (R374 to R389), and the identity commands
(R306). -/

namespace Sys2Proof.Machine

/-! ### Images (R375, R376) -/

/-- The length an image's header states. -/
def imgTotal (g : List Byte) : Nat := 192 + leAt g 16 4

/-- The slice of n bytes from o. -/
def sub (g : List Byte) (o n : Nat) : List Byte := (g.drop o).take n

/-- Checks 1 to 8 of R376 on an image of which n bytes are supplied: the code of the first that fails. -/
def headerCheck (s : State) (g : List Byte) (n : Nat) : Option Nat :=
  let body := leAt g 16 4
  let entry := leAt g 20 4
  let key := leAt g 13 1
  let revoke := leAt g 14 1
  if g.length < 128 ∨ leAt g 0 4 ≠ 0x53484E44 ∨ leAt g 4 2 ≠ 1 ∨ 16 ≤ revoke ∨ leAt g 15 1 ≠ 0 ∨ leAt g 120 8 ≠ 0 then some 1
  else if leAt g 6 2 ≠ partNumber s ∧ leAt g 6 2 ≠ 0xFFFF then some 2
  else if body % 64 ≠ 0 ∨ body < 64 ∨ 4194112 < body ∨ body ≤ entry ∨ entry % 4 ≠ 0 ∨ imgTotal g ≠ n then some 3
  else if !(bit s.otp.keyProg key) || 4 ≤ key then some 4
  else if bit s.otp.keyRevoked key then some 5
  else if ofBe (sha256 (sub g 56 64)) ≠ s.otp.keyHash.getD key 0 then some 6
  else if bit revoke key then some 7
  else if leAt g 12 1 < s.otp.rollback then some 8
  else none

/-- All checks of R376 on an image's bytes: the code of the first that fails. -/
def imageCheck (s : State) (g : List Byte) : Option Nat :=
  match headerCheck s g g.length with
  | some c => some c
  | none =>
    let n := leAt g 16 4
    let z := ofBe (sha256 (g.take 128))
    if !(ecdsaVerify (beAt g 56 32) (beAt g 88 32) z (beAt g (128 + n) 32) (beAt g (160 + n) 32)) then some 9
    else if ofBe (sha256 (sub g 128 n)) ≠ beAt g 24 32 then some 10
    else none

/-- A failed check: its code in BOOT_ERR and its event. -/
def checkFailed (s : State) (c : Nat) : State :=
  raise { s with sec := { s.sec with bootErr := c } } 0x80018 (if c = 8 then 2 else 1)

/-- The staging slots. -/
def slotOf (s : State) (i : Nat) : Slot := if i = 0 then s.sec.slot0 else s.sec.slot1
def setSlot (s : State) (i : Nat) (v : Slot) : State :=
  if i = 0 then { s with sec := { s.sec with slot0 := v } } else { s with sec := { s.sec with slot1 := v } }

/-- VERSION of an image's bytes, and of what a slot holds: 0 when empty. -/
def imgVersion (g : List Byte) : Nat := leAt g 8 4
def slotVersion (s : State) (i : Nat) : Nat := if (slotOf s i).state = 0 then 0 else imgVersion (slotOf s i).bytes

/-- VERSION in the slot that is not active; 0 unless VERIFIED. -/
def otherVersion (s : State) : Nat :=
  let o := slotOf s (1 - s.sec.activeSlot)
  if o.state = 2 then imgVersion o.bytes else 0

/-! ### The security block (R389) -/

/-- The words of the security block. -/
def secReg (s : State) (o : Nat) : Nat :=
  let c := s.sec
  match o with
  | 0x000 => c.bootSrc + 4 * c.activeSlot + 8 * c.bootState + 64 * b2n c.actPending.isSome + 128 * b2n c.trial.isSome +
      256 * b2n c.bankLoaded + 512 * c.bankSlot
  | 0x004 => s.otp.rollback + 128 * s.otp.keyProg + 2048 * s.otp.keyRevoked + 32768 * b2n s.otp.idValid
  | 0x008 => imgVersion c.image
  | 0x00C => slotVersion s 0
  | 0x010 => slotVersion s 1
  | 0x014 => c.slot0.state + 4 * c.slot1.state
  | 0x030 => c.bootErr
  | o => reg s (0x80000 + o)

/-! ### Boot (R377 to R380) -/

/-- BOOT_START: the boot ROM starts as the clocks enter RUN after a package reset or STANDBY; it releases PCIe link training. -/
def execBootStart (s : State) : Out :=
  .next (
    if s.sec.bootState ≠ 0 || !(clocksRun s) || s.power.held.isSome || s.power.pinHeld || !(s.power.ends.all fun e => !(coversPkg e.1)) then s
    else { s with
      pcie := { s.pcie with up := s.pins.perstn && s.clock.pciOk }
      sec := { s.sec with bootState := if s.sec.bootSrc = 0 then 1 else 2 } })

/-- The image of flash slot contents b: as many bytes as its header states. -/
def flashImage (b : List Byte) : List Byte := b.take (imgTotal b)

/-- Whether a flash slot can be read and its header passes checks 1 to 8. -/
def headerGood (s : State) (b : Option (List Byte)) : Bool :=
  b.any fun b => (headerCheck s b (flashImage b).length).isNone

/-- The order in which the ROM tries the slots: the good header of the higher VERSION first, slot 0 where they are equal. -/
def bootOrder (s : State) (a b : Option (List Byte)) : List (Nat × Option (List Byte)) :=
  let two := headerGood s b && (!(headerGood s a) || decide (imgVersion (a.getD []) < imgVersion (b.getD [])))
  if two then [(1, b), (0, a)] else [(0, a), (1, b)]

/-- The firmware of an image starts from a slot (R378, R379). -/
def startImage (s : State) (i : Nat) (g : List Byte) : State :=
  { s with sec := { s.sec with
    bootState := 5, ran := false, activeSlot := i, image := g, bank := [], bankLoaded := false
    actPending := none, actReply := none, flipped := false, trial := none, staging := none, verifying := none } }

/-- The images loaded and checked in turn; the first valid one starts, and where none is the ROM waits for the host. -/
def bootTry : List (Nat × Option (List Byte)) → State → State
  | [], s => { s with sec := { s.sec with bootState := 2 } }
  | (_, none) :: r, s => bootTry r (checkFailed s 11)
  | (i, some g) :: r, s =>
    match imageCheck s g with
    | some c => bootTry r (checkFailed s c)
    | none => startImage s i g

/-- IMAGE_LOAD_DONE: the flash load (BOOT_STATE 1) or the host load (3) ends and what it loaded is checked (4); given in that state, the
check ends (DESIGN CHOICE for the two uses of the row, log entry 167). -/
def execImageLoadDone (slot0 slot1 : Option (List Byte)) (s : State) : Out :=
  let check (l : List (Nat × Option (List Byte))) : State := { s with sec := { s.sec with bootState := 4, checking := l } }
  .next (
    if !(clocksRun s) || s.power.held.isSome || s.power.pinHeld then s
    else match s.sec.bootState with
      | 1 => check ((bootOrder s slot0 slot1).map fun e => (e.1, e.2.map flashImage))
      | 3 => check [(0, slot0.map fun b => b.take (reg s 0x80028 % 2 ^ 23))]
      | 4 => bootTry s.sec.checking { s with sec := { s.sec with checking := [] } }
      | _ => s)

/-- BOOT_GO: ignored outside HOST_WAIT. -/
def execBootGo (s : State) : Out :=
  .next (busWrite s 0x8002C fun s => if s.sec.bootState = 2 then { s with sec := { s.sec with bootState := 3 } } else s)

/-- FIRMWARE_RUNNING: the firmware trains DDR4 and copies its image into staging slot ACTIVE_SLOT, VERIFIED (DEDUCED, log entry
47); the standby pair is in lockstep unless a memory error keeps the die 0 pair out. -/
def execFirmwareRunning (s : State) : Out :=
  .next (
    if !(coresRun s) || s.sec.ran then s
    else
      let s := { s with sec := { s.sec with ran := true } }
      let s := (List.range (nDies s)).foldl trainDdr s
      let s := setSlot s s.sec.activeSlot { state := 2, bytes := s.sec.image }
      setLockstep s (s.otp.part5124 && !s.power.memError))

/-! ### Staging and verification (R381) -/

/-- R381: whether staging or verifying slot i is rejected. -/
def slotBarred (s : State) (i : Nat) : Bool :=
  let c := s.sec
  i == c.activeSlot || c.actPending.isSome || c.trial.isSome || c.staging.isSome || c.verifying.isSome

/-- BANK_LOADED cleared where the bank is of slot i. -/
def unloadBank (s : State) (i : Nat) : State :=
  if s.sec.bankSlot = i then { s with sec := { s.sec with bankLoaded := false } } else s

/-- IMAGE_STAGE. The slot is empty until its bytes have been copied (DEDUCED, log entry 48). -/
def bodyImageStage (_ : CmdHdr) (w : List Word) (s : State) : State × Reply :=
  let n := prm w 2
  let i := prm w 3
  if n % 64 ≠ 0 ∨ n < 256 ∨ 4194304 < n then (s, .err stInvalid 3)
  else if 1 < i then (s, .err stInvalid 4)
  else if slotBarred s i then (s, .err stWrongState)
  else
    let s := unloadBank (setSlot s i {}) i
    ({ s with sec := { s.sec with staging := some (i, n, w64 w 0) } }, .ok)

/-- STAGE_DONE: the slot is STAGED; a read error of the host bus leaves it empty, with code 11. While die 0 is held the endpoint carries
nothing to it (R28). -/
def execStageDone (bytes : Option (List Byte)) (s : State) : Out :=
  .next (match s.sec.staging with
    | none => s
    | some (i, n, _) =>
      if !(coresRun s) then s
      else
        let s := { s with sec := { s.sec with staging := none } }
        let s := match (if fifoDead s || !s.pcie.up then none else bytes) with
          | some b => setSlot s i { state := 1, bytes := b.take n }
          | none => checkFailed s 11
        raise s 0x80100 1)

/-- IMAGE_VERIFY. The inactive bank is loaded anew from here on (DEDUCED, log entry 48). -/
def bodyImageVerify (_ : CmdHdr) (w : List Word) (s : State) : State × Reply :=
  let i := prm w 0
  if 1 < i then (s, .err stInvalid 1)
  else if slotBarred s i then (s, .err stWrongState)
  else
    let s := unloadBank s i
    ({ s with sec := { s.sec with verifying := some i } }, .ok)

/-- VERIFY_DONE: the slot is VERIFIED and in the inactive bank, or FAILED. -/
def execVerifyDone (s : State) : Out :=
  .next (match s.sec.verifying with
    | none => s
    | some i =>
      if !(coresRun s) then s
      else
        let s := { s with sec := { s.sec with verifying := none } }
        let g := (slotOf s i).bytes
        let s := match imageCheck s g with
          | some c => checkFailed (setSlot s i { state := 3, bytes := g }) c
          | none =>
            let s := setSlot s i { state := 2, bytes := g }
            { s with sec := { s.sec with bank := g, bankLoaded := true, bankSlot := i } }
        raise s 0x80100 2)

/-! ### Activation (R382 to R384) -/

/-- IMAGE_ACTIVATE accepted or refused: the state after it, and its reply unless the new image will send it. -/
def activate (s : State) (h : CmdHdr) (w : List Word) : State × Option Reply :=
  let i := prm w 0
  let c := s.sec
  if 1 < i then (s, some (.err stInvalid 1))
  else match instantAt w 1 with
    | .error d => (s, some (.err stInvalid d))
    | .ok tb =>
      if c.bankLoaded = false ∨ c.bankSlot ≠ i ∨ c.actPending.isSome ∨ c.trial.isSome then (s, some (.err stWrongState))
      else
        let b := firstAt tb s.line.baseCt (nowNs s + 4000)
        if nowNs s + 60000000000 < b.1 then (s, some (.err stTooLate 2))
        else ({ s with sec := { c with actPending := some (i, b.1, b.2), actReply := some h } }, none)

/-- IMAGE_ACTIVATE: the reply waits for the new image. -/
def execImageActivate (h : CmdHdr) (w : List Word) (s : State) : Out :=
  let g := gateCmd s h 0x0C04 w
  .next (
    if !g.2 then g.1
    else
      let x := activate g.1 h w
      match x.2 with | some r => deliver x.1 h 0x0C04 r | none => x.1)

/-- The two code banks change places: both pairs run the image of the other one. -/
def swapBanks (s : State) : State := { s with sec := { s.sec with image := s.sec.bank, bank := s.sec.image } }

/-- The firmware refreshes the claim at t (R383). -/
def refreshAt (s : State) (t : Nat) : State := { s with twin := { s.twin with fwRefresh := t } }

/-- ACTIVATION_FLIP: at B the cores start no further command and flip their bank. -/
def execActivationFlip (s : State) : Out :=
  .next (match s.sec.actPending with
    | some (_, b, _) =>
      if !(coresRun s) then s
      else
        let s := swapBanks (refreshAt (atNs s b) (max (nowNs s) b))
        { s with sec := { s.sec with flipped := true } }
    | none => s)

/-- The protocol answers that fell due since B leave (R383). -/
def dueLeaves (s : State) : State :=
  s.sec.due.foldl (fun s e => ctlAdd s e.1 e.2.1 e.2.2) { s with sec := { s.sec with due := [] } }

/-- ACTIVATION_RESUME: the new image serves commands, replies with k and is on trial. What the inactive bank holds is no longer a
verified image to activate (DEDUCED, log entry 49). -/
def execActivationResume (s : State) : Out :=
  .next (match s.sec.actPending, s.sec.flipped with
    | some (i, b, k), true =>
      let c := s.sec
      let s := { s with sec := { c with
        flipped := false, actPending := none, actReply := none, trial := some b, oldSlot := c.activeSlot, activeSlot := i
        bankLoaded := false } }
      let s := count (refreshAt s (nowNs s)) 0x80034 1
      match c.actReply with
      | some h => deliver (dueLeaves s) h 0x0C04 (.rep (lateBit k) [wd (sat32 k)])
      | none => dueLeaves s
    | _, _ => s)

/-- FIRMWARE_READY: within 500 ms of B the trial ends, and the image's revocations are burned. -/
def execFirmwareReady (s : State) : Out :=
  .next (match s.sec.trial with
    | some b =>
      if !(coresRun s) || b + 500000000 < nowNs s then s
      else { s with
        sec := { s.sec with trial := none }
        otp := { s.otp with keyRevoked := s.otp.keyRevoked ||| (leAt s.sec.image 14 1 % 16) } }
    | none => s)

/-- FALLBACK: the image is not ready by B + 500 ms, and the cores flip back at the first line base cycle boundary after it. -/
def execFallback (s : State) : Out :=
  .next (match s.sec.trial with
    | some b =>
      if !(coresRun s) then s
      else
        let t := nextLine s (b + 500000001)
        let s := atNs s t
        let i := s.sec.activeSlot
        let s := swapBanks (refreshAt s (nowNs s))
        let s := setSlot s i { slotOf s i with state := 3 }
        raise { s with sec := { s.sec with trial := none, activeSlot := s.sec.oldSlot } } 0x80018 12
    | none => s)

/-! ### Rollback counter (R385) -/

/-- n fuses burned one by one; false where one fails to read back burned (a free value, log entry 45). -/
def burnFuses : Nat → State → State × Bool
  | 0, s => (s, true)
  | n + 1, s =>
    let ok := Config.freeFuse s.free
    let s := useFree s
    if ok then burnFuses n { s with otp := { s.otp with rollback := s.otp.rollback + 1 } } else (s, false)

/-- ROLLBACK_ADVANCE. -/
def bodyRollbackAdvance (_ : CmdHdr) (w : List Word) (s : State) : State × Reply :=
  let n := prm w 0
  if 128 ≤ n then (s, .err stInvalid 1)
  else if n = s.otp.rollback then (s, .ok)
  else if n < s.otp.rollback ∨ leAt s.sec.image 12 1 < n then (s, .err stInvalid 1)
  else if s.sec.actPending.isSome ∨ s.sec.trial.isSome then (s, .err stWrongState)
  else
    let x := burnFuses (n - s.otp.rollback) s
    if x.2 then (x.1, .ok) else (raise x.1 0x80018 16, .err stRefused)

/-! ### Attestation (R386) and queries -/

/-- Bytes 0 to 223 of the report. -/
def reportBody (s : State) (nonce : List Byte) : List Byte :=
  let c := s.sec
  let o := slotOf s (1 - c.activeSlot)
  let ok := o.state == 2
  le 4 0x41545354 ++ le 2 1 ++ le 2 (partNumber s) ++ le 1 s.otp.siliconRev ++ le 1 s.otp.rollback ++
  le 1 (s.otp.keyProg + 16 * s.otp.keyRevoked) ++
  le 1 (c.bootSrc + 4 * c.activeSlot + 8 * b2n c.trial.isSome + 16 * b2n ok + 32 * b2n s.power.active1) ++
  le 4 s.sys.devno ++ le 16 s.otp.serial ++ le 4 (imgVersion c.image) ++ le 4 (otherVersion s) ++
  sha256 (c.image.take 128) ++ (if ok then sha256 (o.bytes.take 128) else List.replicate 32 0) ++
  le 6 (nowNs s / 1000000000) ++ le 4 (nowNs s % 1000000000) ++ le 2 (nowFrac s) ++ le 4 c.rptSeq ++ nonce ++
  publicKey s.otp.deviceKey ++ List.replicate 8 0

/-- The report with its signature. -/
def report (s : State) (nonce : List Byte) : List Byte :=
  let b := reportBody s nonce
  let g := ecdsaSign s.otp.deviceKey (sha256 b)
  b ++ be 32 g.1 ++ be 32 g.2

/-- ATTEST. -/
def bodyAttest (_ : CmdHdr) (w : List Word) (s : State) : State × Reply :=
  if !s.otp.idValid then (s, .err stAuth)
  else
    let r := toWordsLe 72 (report s (wordsLe w))
    ({ s with sec := { s.sec with rptSeq := (s.sec.rptSeq + 1) % 2 ^ 32 } }, .ok r)

/-- SEC_QUERY. -/
def bodySecQuery (_ : CmdHdr) (_ : List Word) (s : State) : State × Reply :=
  (s, .ok ([0x000, 0x004, 0x008, 0x00C, 0x010, 0x014, 0x030].map fun o => wd (secReg s o)))

/-- The words of the identity block (R424). -/
def idReg (s : State) (o : Nat) : Nat :=
  match o with
  | 0x000 => partNumber s + 65536 * nDies s + 2 ^ 20 * (s.otp.siliconRev % 256)
  | 0x004 => s.clock.oscDly + 8 * s.sec.bootSrc + 32 * b2n s.pins.testEn
  | 0x010 => bits s.otp.serial 31 0
  | 0x014 => bits s.otp.serial 63 32
  | 0x018 => bits s.otp.serial 95 64
  | 0x01C => bits s.otp.serial 127 96
  | o => reg s o

/-- ID_QUERY (R306). -/
def bodyIdQuery (_ : CmdHdr) (_ : List Word) (s : State) : State × Reply :=
  (s, .ok ([idReg s 0, imgVersion s.sec.image, slotVersion s (1 - s.sec.activeSlot), s.sys.devno, idReg s 0x10, idReg s 0x14, idReg s 0x18,
    idReg s 0x1C].map wd))

/-- ECHO (R306). -/
def bodyEcho (_ : CmdHdr) (w : List Word) (s : State) : State × Reply := (s, .ok w)

def execIdQuery (h : CmdHdr) (w : List Word) (s : State) : Out := .next (runCmd s h 0x0101 w bodyIdQuery)
def execEcho (h : CmdHdr) (w : List Word) (s : State) : Out := .next (runCmd s h 0x0102 w bodyEcho)
def execSecQuery (h : CmdHdr) (w : List Word) (s : State) : Out := .next (runCmd s h 0x0C01 w bodySecQuery)
def execImageStage (h : CmdHdr) (w : List Word) (s : State) : Out := .next (runCmd s h 0x0C02 w bodyImageStage)
def execImageVerify (h : CmdHdr) (w : List Word) (s : State) : Out := .next (runCmd s h 0x0C03 w bodyImageVerify)
def execAttest (h : CmdHdr) (w : List Word) (s : State) : Out := .next (runCmd s h 0x0C05 w bodyAttest)
def execRollbackAdvance (h : CmdHdr) (w : List Word) (s : State) : Out := .next (runCmd s h 0x0C06 w bodyRollbackAdvance)

end Sys2Proof.Machine
end

