-- ==== Sys2Proof/Machine/Fault.lean ====
section
/-! DEFINITION. Faults: capture, escalation, reactions, quarantine, clearing, and the commands and registers of status sets and
collectors (R327 to R349). -/

namespace Sys2Proof.Machine

/-! ### Registers of status sets and collectors (R330, R347, R348) -/

def setSrc (s : State) (l : FaultLoc) (i : Nat) (f : FaultSrc → FaultSrc) : State :=
  { s with faults := s.faults.put (srcKey l i) (f (faultSrc s l i)) {} }

/-- The sticky bits of a place. -/
def stickyMask (s : State) (l : FaultLoc) : Nat :=
  ((List.range (nSources l)).filter fun i => (faultSrc s l i).sticky).foldl (fun a i => a + 2 ^ i) 0

/-- The current levels of a place's set sources, two bits each; zero for a source that is not set. -/
def levelsOf (s : State) (l : FaultLoc) : Nat :=
  ((List.range (nSources l)).filter fun i => (faultSrc s l i).sticky).foldl (fun a i => a + curLevel s l i * 4 ^ i) 0

/-- Highest level and ANY of the set sources p holds of: LEVEL + 4 x ANY. -/
def levelAny (s : State) (p : FaultLoc → Bool) : Nat :=
  s.faults.foldl (fun a e => if e.2.sticky && p (keyLoc e.1).1 then max a (4 + entryLevel e) else a) 0

/-- LEVEL and ANY of a place and all it contains (R330). -/
def summaryOf (s : State) (l : FaultLoc) : Nat :=
  levelAny s fun x => match l, x with
    | .port p, .port q => p == q
    | .region r, .port p => p < 512 && p / 64 == r
    | .region r, .region q => r == q
    | .die d, .port p => dieOfPort p == d
    | .die d, .region r => r / 4 == d
    | .die d, .die e => d == e
    | .package, _ => true
    | _, _ => false

/-- LEVEL and ANY of the collector that holds port p. -/
def collLevel (s : State) (p : Nat) : Nat := levelAny s fun x => match x with | .port q => collBase q == collBase p | _ => false

/-- The PSTAT word of a port or uplink. -/
def pstat (s : State) (p : Nat) : Nat := stickyMask s (.port p) + 256 * levelsOf s (.port p)

/-- SUMMARY of a status set. -/
def summaryWord (s : State) (l : FaultLoc) : Nat :=
  match l with
  | .region r => ((List.range 4).map fun c => collLevel s (64 * r + 16 * c) * 8 ^ c).sum
  | .die d => ((List.range 4).map fun c => summaryOf s (.region (4 * d + c)) * 8 ^ c).sum + collLevel s (512 + 4 * d) * 8 ^ 4
  | .package => ((List.range (nDies s)).map fun c => summaryOf s (.die c) * 8 ^ c).sum
  | .port _ => 0

/-- The word at offset o of a status set. -/
def statusReg (s : State) (l : FaultLoc) (o : Nat) : Nat :=
  match o with
  | 0x00 => stickyMask s l
  | 0x04 => levelsOf s l % 2 ^ 32
  | 0x08 => levelsOf s l / 2 ^ 32
  | 0x0C => summaryOf s l
  | 0x10 => summaryWord s l
  | 0x14 => reg s (statusAddr l + 0x14)
  | 0x18 => vecOf s l
  | _ => 0

/-- The word at offset o of a collector whose first port is p and that holds n ports. -/
def collReg (s : State) (p n o : Nat) : Nat :=
  if o < 0x40 then (if o / 4 < n then pstat s (p + o / 4) else 0)
  else match o with
    | 0x40 => collLevel s p
    | 0x44 => reg s (collBase p + 0x44)
    | 0x48 => ((List.range n).filter fun i => (faultSrc s (.port (p + i)) 7).cond).foldl (fun a i => a + 2 ^ i) 0
    | _ => 0

/-- The words of the package fault block above its status set (R349). The LSO balls show what drives them. -/
def safetyReg (s : State) (o : Nat) : Nat :=
  let y := s.safety
  match o with
  | 0x100 => y.pulse + 2048 * b2n y.asserted + 4096 * b2n (y.asserted && y.pulseEnd.isNone)
  | 0x104 => y.lsoDrive.toNat
  | 0x108 => (255 - y.lsoDrive.toNat) + 256 * b2n y.safeLatch + 512 * b2n y.clockSafe + 1024 * b2n y.lsoRefused
  | _ => 0

/-! ### Reactions (R335 to R341) -/

/-- The SLOW cycle in progress, of 40 ns, counted on line time as the CTRL cycle is (DESIGN CHOICE, log entry 124). -/
def slowCycle (s : State) : Nat := nowNs s / 40

/-- The reaction a source has been given. -/
def reactionOf (s : State) (l : FaultLoc) (i : Nat) : Nat :=
  ((faultSrc s l i).reaction).getD ((baseReactions l).getD i 0)

/-- Whether a port is in quarantine: a sticky source of it has taken reaction 2 or 5 (R337). -/
def quarantined (s : State) (p : Nat) : Bool :=
  (List.range 8).any fun i => let f := faultSrc s (.port p) i; f.sticky && (f.took == 2 || f.took == 5)

/-- A port squelched: it starts no frame of any kind. The PORT resets of reaction 5 that are due are issued (R341). -/
def squelch (s : State) (p : Nat) : State :=
  let s := modPort s p fun x => { x with link := { x.link with squelched := true } }
  let due := (List.range 8).any fun i => let f := faultSrc s (.port p) i; f.sticky && f.took == 5 && f.due
  if due then
    let s := (List.range 8).foldl (fun s i => if (faultSrc s (.port p) i).took = 5 then setSrc s (.port p) i fun f => { f with due := false } else s) s
    beginReset (.port p) s
  else s

/-- Port quarantine begun: squelched at once with its course OFF, or where it is squelched already. -/
def quarantine (s : State) (p : Nat) : State :=
  if (courseOf s p).state = 0 ∨ (port s p).link.squelched = true then squelch s p else safeReq s p 2

/-- Whether region r runs a course that has not yet launched bank S frames in 16 of its cycles. -/
def regionBusy (s : State) (r : Nat) : Bool :=
  (portsOf r).any fun p => let c := courseOf s p; c.state != 0 && !(c.state == 3 && 16 ≤ c.safeCycles)

/-- Whether the REGION reset of a reaction 6 is due for region r. -/
def dueFor (s : State) (r : Nat) : Bool := s.safety.regionDue.contains r

/-- The REGION reset of reaction 6 issued. -/
def issueRegion (s : State) (r : Nat) : State :=
  beginReset (.region r) { s with safety := { s.safety with regionDue := s.safety.regionDue.filter (· != r) } }

/-- The message of a status on its vector: one in a SLOW cycle, whatever sources ask for it (R335, R336). -/
def statusMsix (s : State) (v : Nat) : State :=
  let l := if s.safety.told.1 = slowCycle s then s.safety.told.2 else []
  if l.contains v then s
  else emit { s with safety := { s.safety with told := (slowCycle s, v :: l) } } (.msix v)

/-- The region of a drive port or region source. -/
def regionOfLoc : FaultLoc → Option Nat
  | .region r => some r
  | .port p => if p < 512 then some (p / 64) else none
  | _ => none

/-- The reaction c of a source taken, at a current level lv. -/
def react (s : State) (l : FaultLoc) (i c lv : Nat) : State :=
  let t := now16 s
  let s := setSrc s l i fun f => { f with
    took := if c = 2 ∨ c = 5 then max f.took c else f.took
    due := f.due || c == 5 }
  let s := if c = 0 then s else statusMsix s (vecOf s (vecLoc l))
  let s := match l, c with
    | .port p, 2 | .port p, 5 => quarantine s p
    | _, _ => s
  let s := match regionOfLoc l with
    | some r =>
      if c = 3 then regionSafe s r t
      else if c = 6 then
        let s := regionSafe { s with safety := { s.safety with regionDue := s.safety.regionDue ++ [r] } } r t
        if (portsOf r).all fun p => (courseOf s p).state == 0 then issueRegion s r else s
      else s
    | none => s
  let s := if c = 4 ∨ lv = 3 then packageSafe (setSrc s l i fun f => { f with tookSafe := true }) t else s
  if 2 ≤ lv then assertFaultn s else s

/-! ### Capture (R329, R331 to R334, R342) -/

/-- The source's threshold window: an event counted at time t (R333). -/
def countWindow (f : FaultSrc) (t : Nat) : FaultSrc :=
  if f.n = 0 then f
  else
    let open_ := f.winEnd.any (t < ·)
    let c := if open_ then f.count + 1 else 1
    { f with winEnd := if open_ then f.winEnd else some (t + f.w * 1000000), count := c, t := f.t || f.n ≤ c }

/-- The time of the records of the faults captured in this SLOW cycle: its edge (R391, R392). -/
def slowT16 (s : State) : Nat := slowCycle s * 40 * 65536

/-- Whether a record of a trace queue is the FAULT record of a word captured in this SLOW cycle. -/
def faultNow (s : State) (r : TraceRec) : Bool := r.type == 2 && r.t16 == slowT16 s

/-- The FAULT record of place l, whose source i is new: one for a word and a SLOW cycle, in ascending ADDR, all with one time
(R392). -/
def faultRec (s : State) (l : FaultLoc) (i : Nat) : State :=
  let d := match l with | .port p => dieOfPort p | .region r => r / 4 | .die d => d | .package => 0
  let a := statusAddr l
  let args (m : Nat) : List Nat :=
    [m, levelsOf s l % 2 ^ 32, (match l with | .port p => collLevel s p | _ => summaryOf s l) % 4]
  let queue (s : State) : List TraceRec := s.trace.queue.look d []
  let put (s : State) (q : List TraceRec) : State := { s with trace := { s.trace with queue := s.trace.queue.put d q [] } }
  if (queue s).any fun r => faultNow s r && r.addr == a then
    put s ((queue s).map fun r => if faultNow s r && r.addr == a then { r with args := args (r.args.getD 0 0 ||| 2 ^ i) } else r)
  else
    let t := traceRec s d 0x02 a (args (2 ^ i))
    if (queue t).length = (queue s).length then t
    else
      let before := (queue s).takeWhile fun r => !(faultNow s r && a < r.addr)
      put t (before ++ ((queue t).drop (queue s).length).map (fun r => { r with t16 := slowT16 s }) ++ (queue s).drop before.length)

/-- A source captured (R331 to R336): once in a SLOW cycle. Masked, it counts in SUPPRESSED only. -/
def captureFault (s : State) (l : FaultLoc) (i : Nat) : State :=
  if (faultSrc s l i).slow = some (slowCycle s) then s
  else
  let s := setSrc s l i fun f => { f with slow := some (slowCycle s) }
  if masked s l i then count s (suppressedAddr l) 1
  else
    let o := faultSrc s l i
    let lv0 := if o.sticky then curLevel s l i + 1 else 0
    let s := markFresh (setSrc s l i fun f => { countWindow f (nowNs s) with sticky := true, u := o.sticky }) (statusAddr l) (2 ^ i)
    let lv := curLevel s l i
    let s := if o.sticky then s else faultRec s l i
    if lv0 ≤ lv then react s l i (reactionOf s l i) lv else s

/-- Whether the part has a place. -/
def locPresent (s : State) (l : FaultLoc) : Bool :=
  match l with | .port p => hasPort s p | .region r => hasRegion s r | .die d => hasDie s d | .package => true

/-- A source that never fires on the MHV-2562 (R328). -/
def neverFires (s : State) (l : FaultLoc) (i : Nat) : Bool :=
  !s.otp.part5124 && (match l with | .die _ => i == 11 || i == 12 | .package => i == 5 | _ => false)

/-- C sources whose condition the model itself keeps: DDR_FAIL, CLOCK_LOSS, CORE_WDT, LOCKSTEP. -/
def ownCond (l : FaultLoc) (i : Nat) : Bool :=
  match l with | .die _ => i == 8 | .package => i == 0 || i == 4 || i == 5 | _ => false

/-- The occurrences of a source that await capture, captured as one event (R331). -/
def takePend (s : State) (l : FaultLoc) (i : Nat) : State :=
  { s with faultPend := s.faultPend.filter fun e => !(e.1 == l && e.2 == i) }

/-- CLOCK_LOSS captured: clock-loss safe, unless a trip has taken it already (R340). -/
def clockFault (s : State) (l : FaultLoc) (i : Nat) : State :=
  if l = .package ∧ i = 0 ∧ s.safety.clockSafe = false then clockLossSafe s else s

/-- The error counters of the DDR4 controllers and the bridge, which count whatever is masked (R425). -/
def countError (s : State) (l : FaultLoc) (i : Nat) : State :=
  match l, i with
  | .die d, 6 => count s (dieBase d + 0x20004) 1
  | .die d, 7 => count s (dieBase d + 0x20008) 1
  | .die d, 11 => count s (dieBase d + 0x30004) 1
  | _, _ => s

/-- FAULT_SOURCE_FIRE: a source is captured. A B source for the event bits that await it; an E source for an error that is
detected now; a C source for its condition, which stands or has ended. For RAIL the pair says which one showed equal rails: it is
ignored from then on, and what an ignored pair carries is lost (R329). -/
def plainFaultSourceFire (loc : FaultLoc) (src pair : Nat) (standing : Bool) (s : State) : Out :=
  let due := s.faultPend.any fun e => e.1 == loc && e.2 == src
  let rail := match loc with | .port p => s.rails.look p 0 | _ => 0
  .next (
    if !(locPresent s loc) || nSources loc ≤ src || neverFires s loc src then s
    else if src < 7 && bit rail src then takePend s loc src
    else if isCond loc src then
      if due then captureFault (clockFault (takePend s loc src) loc src) loc src
      else if ownCond loc src then
        match loc, standing with
        | .die d, true =>
          if (faultSrc s loc src).cond then s
          else captureFault (takePend (setCond (modDdrChan s d fun c => { c with trained := false }) loc src true) loc src) loc src
        | .package, _ =>
          let late := !(fwCurrent s)
          if src ≠ 4 || (faultSrc s loc src).cond == late then s
          else
            let s := standCond s loc src late
            if late then captureFault s loc src else s
        | _, _ => s
      else
        match loc with
        | .port p =>
          if 7 ≤ pair then s
          else if bit rail pair then setSrc s loc src fun f => { f with cond := standing }
          else captureFault (setSrc { s with rails := s.rails.put p (rail + 2 ^ pair) 0 } loc src fun f => { f with cond := standing })
            loc src
        | _ =>
          if (faultSrc s loc src).cond == standing then s
          else
            let s := setSrc s loc src fun f => { f with cond := standing }
            if standing then captureFault s loc src else s
    else if isBlock loc src then (if due then captureFault (takePend s loc src) loc src else s)
    else captureFault (countError s loc src) loc src)

/-- RAIL_RESTORED: a pair whose rails have differed for 16 consecutive samples is watched again. -/
def execRailRestored (loc : FaultLoc) (pair : Nat) (s : State) : Out :=
  .next (match loc with
    | .port p =>
      let m := s.rails.look p 0
      if !(bit m pair) then s
      else
        let s := { s with rails := s.rails.put p (m - 2 ^ pair) 0 }
        if m = 2 ^ pair then setSrc s loc 7 fun f => { f with cond := false } else s
    | _ => s)

/-- FAULT_WINDOW_CLOSE: a threshold window closes and its count is discarded. -/
def execFaultWindowClose (loc : FaultLoc) (src : Nat) (s : State) : Out :=
  .next (match (faultSrc s loc src).winEnd with
    | none => s
    | some t => setSrc (atNs s t) loc src fun f => { f with winEnd := none, count := 0 })

/-- The last launch of port p's bank S frames in the cycle they were counted in last, in ns. -/
def lastSafeLaunch (s : State) (p : Nat) : Nat :=
  let o := own s p
  let b := match (port s o).course.safeLast with
    | some n => cycleStart s (port s o).ccfg.ct n
    | none => 0
  ((outFrames s p 2).map fun f => b + f.2.1).foldl max 0

/-- A port's line once the course frame on it has ended, which line time runs on to. -/
def endCourseTx (s : State) (p : Nat) : State :=
  match (port s p).txd.tx with
  | some f => if f.course.isSome then endTx s p else s
  | none => s

/-- QUARANTINE_SQUELCH: the port has launched bank S frames in 16 of its cycles and the last of them has ended, or its course is OFF. -/
def execQuarantineSquelch (p : Nat) (s : State) : Out :=
  let c := courseOf s p
  .next (
    if !(quarantined s p) || (port s p).link.squelched then s
    else if c.state == 0 then squelch (settleTx s p) p
    else if c.state == 3 && (17 ≤ c.safeCycles || (c.safeCycles == 16 && lastSafeLaunch s p ≤ nowNs s)) then squelch (endCourseTx s p) p
    else s)

/-- REACTION_REGION_RESET: at the first line base cycle boundary after every course of the region has launched bank S frames in 16
of its cycles, or at once with none running. -/
def plainReactionRegionReset (r : Nat) (s : State) : Out :=
  .next (
    if !(dueFor s r) || regionBusy s r then s
    else if (portsOf r).all fun p => (courseOf s p).state == 0 then issueRegion s r
    else issueRegion (atNs s (nextLine s (nowNs s + 1))) r)

/-! ### Clearing (R345) -/

/-- What the clearing of sources may end: quarantines, SAFE_LATCH, clock-loss safe. -/
def settleFaults (s : State) : State :=
  let s := (keys s.ports).foldl (fun s p =>
    if (port s p).link.squelched && !(quarantined s p) then modPort s p fun x => { x with link := { x.link with squelched := false } } else s) s
  let loss := (faultSrc s .package 0).sticky || (faultSrc s .package 0).cond || s.faultPend.contains (.package, 0)
  let y := s.safety
  { s with safety := { y with
      clockSafe := y.clockSafe && loss
      safeLatch := y.safeLatch && ((y.clockSafe && loss) || s.faults.any fun e => e.2.sticky && e.2.tookSafe) } }

/-- Whether any listed event bit of a B source is still set in its block. -/
def bitsStand (s : State) (l : FaultLoc) (i : Nat) : Bool :=
  (sourceRegs l).any fun a => (bitSources s a (reg s a)).contains (l, i)

/-- A source cleared: its episode ends, and the count of its window starts again at 0; an open window stays open to its end (R333, R345;
DEDUCED, log entry 151). Its cause is tested again in the next SLOW cycle. One captured in the same CTRL cycle stays set (R7). -/
def clearFault (s : State) (l : FaultLoc) (i : Nat) : State :=
  if !(faultSrc s l i).sticky || bit (freshAt s (statusAddr l)) i then s
  else
    let s := setSrc s l i fun f => { n := f.n, w := f.w, reaction := f.reaction, cond := f.cond, winEnd := f.winEnd }
    let again := if isCond l i then (faultSrc s l i).cond else isBlock l i && bitsStand s l i
    if again then pendFault s l i else s

/-- The sources a mask names cleared. -/
def clearFaults (s : State) (l : FaultLoc) (m : Nat) : State :=
  settleFaults (((List.range (nSources l)).filter (bit m)).foldl (fun s i => clearFault s l i) s)

/-- FAULT_STICKY_W1C: a write of STICKY, or of a PSTAT word. -/
def plainFaultStickyW1c (loc : FaultLoc) (v : Word) (s : State) : Out :=
  .next (if !(locPresent s loc) then s else busWrite s (statusAddr loc) fun s => clearFaults s loc v.toNat)

/-! ### Commands (R346) -/

/-- The place a fault command targets. -/
def targetLoc (h : CmdHdr) : FaultLoc :=
  match h.scope with | 0 => .package | 1 => .die h.die | 2 => .region h.region | _ => .port h.port

/-- FAULT_QUERY. -/
def bodyFaultQuery (h : CmdHdr) (_ : List Word) (s : State) : State × Reply :=
  let l := targetLoc h
  let head := match l with
    | .port p => [wd (pstat s p)]
    | _ => (List.range 7).map fun i => wd (statusReg s l (4 * i))
  (s, .ok (head ++ (List.range (nSources l)).flatMap fun i =>
    let f := faultSrc s l i
    [wd (f.n + f.w * 65536), wd (reactionOf s l i + 8 * baseLevel l i + 32 * b2n (f.winEnd.any (nowNs s < ·)))]))

/-- FAULT_SET. -/
def bodyFaultSet (h : CmdHdr) (w : List Word) (s : State) : State × Reply :=
  let l := targetLoc h
  let i := prm w 0
  let r := prm w 2
  if nSources l ≤ i then (s, .err stInvalid 1)
  else if fld w 1 15 0 ≠ 0 ∧ fld w 1 31 16 = 0 then (s, .err stInvalid 2)
  else if 8 ≤ r ∨ reactionOk l i r = false then (s, .err stInvalid 3)
  else (setSrc s l i fun f => { f with
    n := fld w 1 15 0
    w := fld w 1 31 16
    reaction := if r = (baseReactions l).getD i 0 then none else some r }, .ok)

/-- FAULT_CLEAR. -/
def bodyFaultClear (h : CmdHdr) (w : List Word) (s : State) : State × Reply :=
  let l := targetLoc h
  if prm w 0 / 2 ^ nSources l ≠ 0 then (s, .err stInvalid 1) else (clearFaults s l (prm w 0), .ok)

def execFaultQuery (h : CmdHdr) (w : List Word) (s : State) : Out := .next (runCmd s h 0x0B01 w bodyFaultQuery)
def execFaultSet (h : CmdHdr) (w : List Word) (s : State) : Out := .next (runCmd s h 0x0B02 w bodyFaultSet)
def execFaultClear (h : CmdHdr) (w : List Word) (s : State) : Out := .next (runCmd s h 0x0B03 w bodyFaultClear)

end Sys2Proof.Machine
end

