-- ==== Sys2Proof/Machine/Clock.lean ====
section
/-! DEFINITION. Clocks: the clock state machine, monitors, meters, the divider ramp and the clock output (R350 to R363, R371,
R372). -/

namespace Sys2Proof.Machine

/-! ### The condition of CLOCK_LOSS (R359) -/

/-- The source of SLOW (R351): REFCLK while it is qualified, the reed otherwise. -/
def slowLost (c : Clock) : Bool := !c.refOk && !c.reedQual

/-- The condition of CLOCK_LOSS: the state is not RUN, or a trip stands on the PLL's reference, the PLL, SDSREF, a PLL domain or the
source of SLOW. -/
def clockBad (c : Clock) : Bool :=
  c.state != .run || !c.sdsOk || !c.pllLock || c.domBad != 0 || slowLost c || !(if c.refReed then c.reedQual else c.refOk)

/-- The condition as it stands, its rise an event of the source. -/
def refreshClock (s : State) : State := setCond s .package 0 (clockBad s.clock)

/-- The condition of CLOCK_LOSS where the clocks' own start-up or a RETURN makes it: no event of the source. A start-up whose references
come up is recorded nowhere, and a RETURN raises no trip (R360, R361; DEDUCED, log entry 44). -/
def standClock (s : State) : State := standCond s .package 0 (clockBad s.clock)

/-- CLOCK_LOSS that a start-up or the end of a ramp brings to light: an event of the source, once. -/
def clockLoss (s : State) : State :=
  if (faultSrc s .package 0).sticky || s.faultPend.contains (.package, 0) then standClock s else pendFault (standClock s) .package 0

def setClock (s : State) (c : Clock) : State := { s with clock := c }

/-! ### Moves of the state machine (R359, R360) -/

/-- The timer of the state the clocks are in has run out: the window of OSC_WAIT, the limit of LOCK or a step of the ramp. It is
counted on line time, while that runs (DESIGN CHOICE, log entry 153). -/
def timerEnd (s : State) : State := if tickUnits s = 0 then s else atNs s s.clock.due

/-- LOCK on the reed or on REFCLK, for 200 us; a change of the PLL's reference raises REF_SWITCH. -/
def enterLock (s : State) (reed tried : Bool) : State :=
  let c := s.clock
  let s := setClock s { c with
    state := .lock, refReed := reed, triedOther := tried, pllLock := false, domBad := 0, rampDiv := 64, due := nowNs s + 200000 }
  if c.refReed = reed then s else raise s 0x10004 2

/-- CLOCK_WAIT: the domains stay stopped, outputs safe and FAULTn low. -/
def enterWait (s : State) : State :=
  assertFaultn (clockLoss (setClock s { s.clock with state := .clockWait, pllLock := false }))

/-- A trip recorded: its bit of MON_TRIPPED and MON_TRIP. -/
def tripBit (s : State) (clk : Nat) : State :=
  raise (markFresh (setClock s { s.clock with tripped := s.clock.tripped ||| 2 ^ clk }) 0x1000C (2 ^ clk)) 0x10004 1

/-- What a trip shows of a clock: REFCLK, SDSREF or the reed not in order, the PLL out of lock. -/
def tripState (c : Clock) (clk : Nat) : Clock :=
  if clk ≤ 1 then { c with refOk := false }
  else if clk ≤ 3 then { c with sdsOk := false }
  else if clk = 4 then { c with pllLock := false }
  else if clk ≤ 8 then { c with domBad := c.domBad ||| 2 ^ clk }
  else if clk = 9 then { c with reedQual := false }
  else c

/-- Whether a trip stops the domains in RUN: of the PLL's reference, of PLL lock or of a PLL domain. -/
def tripStops (c : Clock) (clk : Nat) : Bool :=
  (clk ≤ 1 && !c.refReed) || (clk == 9 && c.refReed) || (4 ≤ clk && clk ≤ 8)

/-- Every lane stops: SDSREF is lost. -/
def stopLanes (s : State) : State :=
  let s := (allPorts s).foldl (fun s p => if (port s p).link.up then setLink s p false 0 else s) s
  (List.range 136).foldl (fun s q => modLane s q fun l => { l with lock := false }) s

/-- Whether a trip is of the source of SLOW while the PLL does not use it (R351, R356). -/
def tripSlow (c : Clock) (clk : Nat) : Bool :=
  (clk ≤ 1 && c.refReed && c.refOk) || (clk == 9 && !c.refReed && !c.refOk)

/-- Whether the clock of MON_TRIPPED bit clk is monitored (R357): REFCLK and SDSREF once the start-up's OSC_WAIT is over. -/
def monitored (c : Clock) (clk : Nat) : Bool :=
  if clk ≤ 3 then c.state != .off && (c.state != .oscWait || c.fromTrip)
  else if clk = 4 then c.state == .lock || c.state == .ramp || c.state == .run
  else if clk ≤ 8 then c.state == .ramp || c.state == .run
  else clk == 9 && c.reedQual

/-- A monitor trip (R357, R360). In OSC_WAIT, LOCK and RAMP it sets its bit and nothing else. A trip of a clock that only SLOW uses makes
the outputs safe and lets the domains run on: SLOW moves to the other source (R356, R359). -/
def tripClock (s : State) (clk : Nat) : State :=
  let c := s.clock
  if !(monitored c clk) then s
  else
  let s := tripBit (setClock s (tripState c clk)) clk
  if c.state ≠ .run then s
  else if clk = 2 ∨ clk = 3 then refreshClock (stopLanes (clockLossSafe s))
  else if tripSlow c clk then refreshClock (setCond (clockLossSafe s) .package 0 true)
  else if !(tripStops c clk) then s
  else
    let s := clockLossSafe s
    let s := setClock s { s.clock with fromTrip := true }
    let wait (s : State) : State := setClock s { s.clock with state := .oscWait, pllLock := false, due := nowNs s + oscWindow c.oscDly }
    let s := if clk ≤ 1 then (if s.clock.reedQual then enterLock s true false else wait s)
      else if clk = 9 then (if s.clock.refOk then enterLock s false false else wait s)
      else enterLock s c.refReed false
    refreshClock s

/-- CLOCK_TRIP: the monitor of MON_TRIPPED bit clk trips; that of the reed is its stop detector. -/
def execClockTrip (clk : Nat) (s : State) : Out :=
  .next (
    let s' := tripClock s clk
    if clk = 9 ∧ monitored s.clock 9 = true then setClock s' { s'.clock with reedStop := true } else s')

/-- OSC_WAIT_END: the window ends: LOCK with a qualified reed, else CLOCK_WAIT. At a start-up without REFCLK the missing reference is
recorded in CLOCK_LOSS (R361). -/
def execOscWaitEnd (s : State) : Out :=
  .next (
    if s.clock.state ≠ .oscWait then s
    else if !s.clock.reedQual then enterWait s
    else
      let s := timerEnd s
      let missing := !s.clock.refOk
      let s := enterLock s missing false
      if missing then clockLoss s else standClock s)

/-- PLL_LOCK within its 200 us: the divider ramp begins, at 64 times the final dividers. -/
def execPllLock (s : State) : Out :=
  .next (
    if s.clock.state = .lock ∧ nowNs s ≤ s.clock.due then
      setClock s { s.clock with state := .ramp, pllLock := true, rampDiv := 64, due := nowNs s + 2000 }
    else s)

/-- PLL_LOCK_TIMEOUT: the other reference, once, where it is qualified; else CLOCK_WAIT. -/
def execPllLockTimeout (s : State) : Out :=
  let c := s.clock
  .next (
    if c.state ≠ .lock then s
    else
    let s := timerEnd s
    if !c.triedOther && (if c.refReed then c.refOk else c.reedQual) then enterLock s (!c.refReed) true
    else enterWait s)

/-- RAMP_STEP: 2 us after the last step the divider halves; at its final value the domains run (R353). -/
def execRampStep (s : State) : Out :=
  let c := s.clock
  .next (
    if c.state ≠ .ramp then s
    else
    let s := timerEnd s
    if c.rampDiv ≤ 2 then
      let s := setClock s { c with state := .run, rampDiv := 1, fromTrip := false, triedOther := false }
      settleFaults (if clockBad s.clock then clockLoss s else standClock s)
    else setClock s { c with rampDiv := c.rampDiv / 2, due := c.due + 2000 })

/-- REED_QUAL: the reed qualifies, which ends an OSC_WAIT entered from a trip, or loses qualification, which is a trip. -/
def execReedQual (q : Bool) (s : State) : Out :=
  let c := s.clock
  .next (
    if c.reedQual == q then s
    else if !q then tripClock s 9
    else
      let s := setClock s { c with reedQual := true, reedStop := false }
      if c.state = .oscWait ∧ c.fromTrip = true then enterLock s (!c.refOk) false else s)

/-- REFCLK_QUALIFIED: 1,024 periods in range against the qualified reed; SLOW moves to REFCLK. -/
def execRefclkQualified (s : State) : Out :=
  .next (if s.clock.reedQual && s.clock.state != .off then setClock s { s.clock with refOk := true } else s)

/-- RETURN: the PLL goes back from the reed to REFCLK through LOCK and RAMP; refused unless the PLL uses the reed, REFCLK is qualified and
every course is OFF (R360). -/
def execReturnWrite (s : State) : Out :=
  .next (busWrite s 0x10010 fun s =>
    let c := s.clock
    let uses := c.state == .lock || c.state == .ramp || c.state == .run
    if uses = true ∧ c.refReed = true ∧ c.refOk = true ∧ s.ports.all (fun e => e.2.course.state == 0) then
      standClock (enterLock (dropTx s) false false)
    else raise s 0x10004 16)

/-! ### Meters (R358, R362) -/

/-- Nominal counts. -/
def meterNom : List Nat := [262144, 262144, 1638400, 1048576, 8388608, 16777216, 4194304, 2097152]

/-- The window of meter i, ppm. -/
def meterWin (c : Clock) (i : Nat) : Nat :=
  if i ≤ 1 then (if c.trimmed then 50 * c.freqWin else 60000) else 1000

/-- Whether a count lies in the window of meter i. -/
def inWindow (c : Clock) (i n : Nat) : Bool :=
  let m := meterNom.getD i 0
  ((n : Int) - m).natAbs * 1000000 ≤ meterWin c i * m

/-- The MON_TRIPPED bit of meter i's monitor; none for PCIREF. -/
def meterTrip (i : Nat) : Option Nat :=
  match i with | 0 => some 1 | 1 => some 9 | 2 => some 3 | 3 => none | 4 => some 5 | 5 => some 6 | 6 => some 7 | _ => some 8

/-- The digital monitor of meter i: two consecutive gates outside its window trip its clock, and so does each further one; the PLL
domains' are watched while they run. -/
def meterTest (s : State) (i n : Nat) : State :=
  let c := s.clock
  let k := if inWindow c i n || (4 ≤ i && c.state != .run) then 0 else min 2 (c.outside.look i 0 + 1)
  let s := setClock s { c with outside := c.outside.put i k 0 }
  match meterTrip i with
  | some b => if k = 2 then tripClock s b else s
  | none => s

/-- PCIREF in or out of its window: PCIREF_OK and the PCIe link. -/
def pciTest (s : State) (n : Nat) : State :=
  let ok := inWindow s.clock 3 n
  let up := if !ok then false
    else s.pcie.up || (!s.clock.pciOk && s.pins.perstn && !s.power.pinHeld && s.sec.bootState != 0)
  { setClock s { s.clock with pciOk := ok } with pcie := { s.pcie with up := up } }

/-- SDSREF back within its window for a gate: every lane runs a full recalibration (R360). -/
def sdsBack (s : State) (n : Nat) : State :=
  if s.clock.sdsOk || !(inWindow s.clock 2 n) then s
  else
    let s := refreshClock (setClock s { s.clock with sdsOk := true })
    (List.range 136).foldl (fun s q =>
      if (lane s q).off || !(hasPort s ((lanePorts q).headD 0)) then s else startFullRecal s q) s

/-- The meters whose gate ends with n counts (R362): meter 0, gated by the reed, with one; meters 1 to 7, gated by the source of SLOW, with
seven; all eight, where both gates end together, with eight (DESIGN CHOICE for this form of the row, log entry 163). -/
def gateMeters (n : Nat) : List Nat := if n = 1 then [0] else if n = 7 then [1, 2, 3, 4, 5, 6, 7] else List.range 8

/-- METER_GATE_END: a gate's counts, one for each meter it serves, in the meters' order. The others keep theirs. -/
def execMeterGateEnd (counts : List Nat) (s : State) : Out :=
  let g := (gateMeters counts.length).zip counts
  let c := s.clock
  let m := (List.range 8).map fun i => match g.find? (·.1 == i) with | some e => e.2 % 2 ^ 32 | none => c.meters.getD i 0
  let s := setClock s { c with meters := m, meterSeq := (c.meterSeq + 1) % 2 ^ 32 }
  let s := g.foldl (fun s e => meterTest s e.1 (e.2 % 2 ^ 32)) s
  .next (settleFaults (if g.any (·.1 == 3) then sdsBack (pciTest s (m.getD 3 0)) (m.getD 2 0) else s))

/-! ### CLKOUT (R363) -/

/-- Source frequencies in kHz. -/
def clkKhz (src : Nat) : Nat :=
  match src with
  | 1 | 2 | 9 => 25000 | 3 => 156250 | 4 => 100000 | 5 => 800000 | 6 => 1600000 | 7 => 400000 | 8 => 200000 | _ => 0

/-- Whether a CLKOUT selection is allowed: no reserved source, at most 125 MHz. -/
def clkoutOk (v : Nat) : Bool := bits v 3 0 ≤ 10 && clkKhz (bits v 3 0) ≤ 125000 * (bits v 15 4 + 1)

/-- CLKOUT_SET. -/
def bodyClkoutSet (_ : CmdHdr) (w : List Word) (s : State) : State × Reply :=
  if fld w 0 31 16 ≠ 0 ∨ clkoutOk (prm w 0) = false then (s, .err stInvalid 1)
  else (setClock s { s.clock with clkout := w.getD 0 0 }, .ok)

/-- CLKOUT_WRITE. -/
def execClkoutWrite (v : Word) (s : State) : Out :=
  .next (busWrite s 0x10020 fun s =>
    if clkoutOk v.toNat then setClock s { s.clock with clkout := v &&& 0xFFFF#32 } else s)

/-! ### Registers (R371, R372) -/

def csCode : CState → Nat
  | .off => 0 | .oscWait => 1 | .lock => 2 | .ramp => 3 | .run => 4 | .clockWait => 5

/-- The word at offset o of the clock block. -/
def clockReg (s : State) (o : Nat) : Nat :=
  let c := s.clock
  match o with
  | 0x000 => csCode c.state + 8 * b2n c.refReed + 16 * b2n c.reedQual + 32 * b2n c.refOk + 64 * b2n c.sdsOk + 128 * b2n c.pciOk +
      256 * b2n c.pllLock + 512 * b2n c.trimmed + 1024 * c.oscDly
  | 0x00C => c.tripped
  | 0x010 => 2 * c.freqWin
  | 0x014 => uns 12 c.trim
  | 0x018 => uns 16 c.resid
  | 0x020 => c.clkout.toNat
  | 0x060 => c.meterSeq
  | o => if 0x040 ≤ o ∧ o < 0x060 then c.meters.getD ((o - 0x40) / 4) 0 else reg s (0x10000 + o)

/-- CLOCK_QUERY. -/
def bodyClockQuery (_ : CmdHdr) (_ : List Word) (s : State) : State × Reply :=
  (s, .ok ([0x000, 0x00C, 0x014, 0x018].map (fun o => wd (clockReg s o)) ++ s.clock.meters.map wd))

def execClockQuery (h : CmdHdr) (w : List Word) (s : State) : Out := .next (runCmd s h 0x0201 w bodyClockQuery)
def execClkoutSet (h : CmdHdr) (w : List Word) (s : State) : Out := .next (runCmd s h 0x0203 w bodyClkoutSet)

end Sys2Proof.Machine
end

