-- ==== Sys2Proof/Machine/Regs.lean ====
section
/-! DEFINITION. The registers of BAR0: what each word reads as, what a write does, the reads with side effects, and the accesses
that end with Completer Abort (R7, R28, R238, R351, R369, R419 to R428, and the register tables of every chapter). -/

namespace Sys2Proof.Machine

/-! ### What a word reads as -/

/-- The words of the time block (R76). -/
def timeReg (s : State) (o : Nat) : Nat :=
  let t := s.time
  match o with
  | 0x000 => nowNs s % 1000000000
  | 0x004 => t.nowSec % 2 ^ 32
  | 0x008 => t.nowSec / 2 ^ 32 % 65536 + 65536 * t.nowFrac
  | 0x00C => shortNs s
  | 0x010 => timeStatus s
  | 0x014 => uns 32 t.rate
  | 0x018 => offsetReg s
  | 0x024 => t.utcOfs % 65536 + 65536 * b2n t.utcValid
  | o => reg s (0x40000 + o)

/-- The words of the pulse and capture block (R77). -/
def pulseReg (s : State) (o : Nat) : Nat :=
  if o = 0x008 then (((List.range 32).filter fun u => (pulse s u).run).map (2 ^ ·)).sum
  else if 0x100 ≤ o ∧ o < 0x140 then
    let c := capture s ((o - 0x100) / 16)
    match o % 16 with
    | 0x0 => match c.fifo with | e :: _ => e.1 / 65536 % 1000000000 | [] => 0xFFFFFFFF
    | 0x4 => c.latSec % 2 ^ 32
    | 0x8 => c.latSec / 2 ^ 32 % 65536 + 65536 * c.latFrac
    | _ => c.fifo.length + 32 * b2n c.latFall + 65536 * c.lost
  else reg s (0x50000 + o)

/-- The words of the observation block (R401). -/
def obsReg (s : State) (o : Nat) : Nat :=
  let t := s.trace
  match o with
  | 0x000 => t.mask + 256 * b2n t.bellOn
  | 0x004 => t.base % 2 ^ 32
  | 0x008 => t.base / 2 ^ 32
  | 0x00C => t.size
  | 0x020 => s.arch.period
  | o => reg s (0x90000 + o)

/-- The words of the DDR4 controller and the die bridge (R425). -/
def ddrReg (s : State) (d o : Nat) : Nat :=
  let c := ddrChan s d
  if o = 0 then (if c.trained then 1 + 2 * c.gib else 0) else reg s (dieBase d + 0x20000 + o)
def bridgeReg (s : State) (d o : Nat) : Nat :=
  if !s.otp.part5124 then 0
  else if o = 0 then b2n (dieRuns s 0 && dieRuns s 1 && bridgeUp s) else reg s (dieBase d + 0x30000 + o)

/-- FREE contexts of a die (R205). -/
def freeContexts (s : State) (d : Nat) : Nat := 524288 - (s.traffic.flows.filter fun e => dieOfFlow e.1 == d).length

/-- The word at BAR0 offset a, without the side effects of a read; zero in the window of a die the part lacks (R2). -/
def peekWord (s : State) (a : Nat) : Nat :=
  if !(blkPresent s (blkOf a)) then 0
  else match blkOf a with
  | .pkg 0 o => idReg s o
  | .pkg 1 o => clockReg s o
  | .pkg 2 o => powerReg s o
  | .pkg 3 o => if o < 0x100 then statusReg s .package o else safetyReg s o
  | .pkg 4 o => timeReg s o
  | .pkg 5 o => pulseReg s o
  | .pkg 6 o => twinReg s o
  | .pkg 7 o => fifoReg s o
  | .pkg 8 o => secReg s o
  | .pkg 9 o => obsReg s o
  | .pkg 10 o => if o < 0x800 then (if hasDie s (o / 0x400) then hyReg s (o / 0x100) (o % 0x100) else 0) else sysReg s o
  | .pkg _ _ => 0
  | .port p o =>
    if o = 0x104 ∨ o = 0x184 then (s.hiLatch.look (a - 4) 0).toNat
    else portReg s p o
  | .flow d o => if o = 0x010 then freeContexts s d else flowReg s d o
  | .tm d o => tmReg s d o
  | .dstat d o => statusReg s (.die d) o
  | .dcoll d o => collReg s (512 + 4 * d) 4 o
  | .mover d o => moverReg s d o
  | .ddr d o => ddrReg s d o
  | .bridge d o => bridgeReg s d o
  | .traj r o => trajReg s r o
  | .rstat r o => statusReg s (.region r) o
  | .coll c o => collReg s (16 * c) 16 o
  | .die _ | .region _ | .reserved => 0

/-! ### What offsets are defined -/

/-- Whether a chapter defines the offset of a block; every other one is reserved (R420, R427). -/
def defined (s : State) (b : Blk) : Bool :=
  blkPresent s b && match b with
  | .pkg 0 o => o ≤ 0x04 || (0x10 ≤ o && o ≤ 0x20)
  | .pkg 1 o => o ≤ 0x18 || o == 0x20 || (0x40 ≤ o && o ≤ 0x60)
  | .pkg 2 o => o ≤ 0x20
  | .pkg 3 o => o ≤ 0x18 || (0x100 ≤ o && o ≤ 0x108)
  | .pkg 4 o => o ≤ 0x24
  | .pkg 5 o => o ≤ 0x08 || (0x100 ≤ o && o < 0x140)
  | .pkg 6 o => o ≤ 0x28
  | .pkg 7 o => o ≤ 0x40 && o != 0x1C
  | .pkg 8 o => o ≤ 0x34 || o == 0x100 || o == 0x104
  | .pkg 9 o => o ≤ 0x18 || (0x20 ≤ o && o ≤ 0x28) || o == 0x30 || o == 0x34
  | .pkg 10 o => if o < 0x800 then hasDie s (o / 0x400) && (o % 0x100 ≤ 0x10 || (0x20 ≤ o % 0x100 && o % 0x100 ≤ 0x30)) else o ≤ 0x808
  | .port p o =>
    if 0x600 ≤ o ∧ o < 0x700 then decide (p < 512) && (o ≤ 0x610 || isCounter o)
    else o ≤ 0x14 || (0x20 ≤ o && o ≤ 0x28) || (0x30 ≤ o && o ≤ 0x38) || isCounter o || o == 0x320 || o == 0x324 ||
      (0x400 ≤ o && o ≤ 0x414) || (0x580 ≤ o && o ≤ 0x58C) || (0x5A0 ≤ o && o < 0x5C0) || (0x700 ≤ o && o < 0x780) ||
      (0x800 ≤ o && o ≤ 0xC0C)
  | .flow _ o => o ≤ 0x10
  | .tm _ o => o ≤ 0x1C
  | .dstat _ o | .rstat _ o => o ≤ 0x18
  | .dcoll _ o => o < 0x10 || (0x40 ≤ o && o ≤ 0x48)
  | .coll _ o => o ≤ 0x48
  | .mover _ o =>
    if o < 0x2000 then o % 0x100 ≤ 0x18 || (0x20 ≤ o % 0x100 && o % 0x100 ≤ 0x28) || (0x40 ≤ o % 0x100 && o % 0x100 ≤ 0x58)
    else if o < 0x2080 then o % 0x20 ≤ 0x14
    else 0x2100 ≤ o && o ≤ 0x2118
  | .ddr _ o => o ≤ 0x0C
  | .bridge _ o => s.otp.part5124 && o ≤ 0x04
  | .traj _ o => o ≤ 0x28 || (0x30 ≤ o && o ≤ 0x44)
  | .pkg _ _ | .die _ | .region _ | .reserved => false

/-! ### Writes -/

/-- The event bits of the event register in a block (the width of its EVENT_EN). -/
def eventWidth : Blk → Nat
  | .port _ o => if o = 0x024 then 8 else if o = 0x408 then 7 else if o = 0x588 then 3 else 6
  | .traj _ _ => 9
  | .flow _ _ | .tm _ _ | .pkg 1 _ | .pkg 2 _ => 5
  | .mover _ _ => 7
  | .pkg 4 _ => 6
  | .pkg 5 _ => 32
  | .pkg 6 _ => 12
  | .pkg 7 _ => 4
  | .pkg 8 o => if o = 0x018 then 6 else 2
  | .pkg 9 _ => 3
  | .pkg 10 o => if o = 0x804 then 3 else 5
  | _ => 0

/-- The state a meaning goes on in. -/
def after (s : State) : Out → State
  | .next t => t
  | _ => s

/-- The bits of v removed from the register at a (W1C), but those an event sets in the same CTRL cycle (R7). -/
def w1c (s : State) (a v : Nat) : State := setReg s a (reg s a &&& (0xFFFFFFFF ^^^ clears s a v))

/-- The status set of a fault source's place (R347): VEC is its only writable field, STICKY its W1C word. -/
def writeStatus (s : State) (l : FaultLoc) (o : Nat) (v : Word) : State :=
  if o = 0 then after s (plainFaultStickyW1c l v s)
  else if o = 0x18 then { s with vecs := s.vecs.put (locKey l) (v.toNat % 2048) (vecReset l) }
  else s

/-- The fields of the package blocks whose registers are not event registers. -/
def writePkg (s : State) (b o : Nat) (v : Word) : State :=
  let n := v.toNat
  match b, o with
  | 1, 0x00C => { s with clock := { s.clock with tripped := s.clock.tripped &&& (0x3FF ^^^ clears s 0x1000C (n % 1024)) } }
  | 1, 0x010 =>
    let s := if bits n 8 1 = 0 then s else { s with clock := { s.clock with freqWin := bits n 8 1 } }
    if bit n 0 then after s (execReturnWrite s) else s
  | 1, 0x014 => { s with clock := { s.clock with trim := sgn 12 n } }
  | 1, 0x020 => after s (execClkoutWrite v s)
  | 2, 0x020 => if bit n 0 then after s (execWakeWrite s) else s
  | 3, 0x100 =>
    let p := bits n 9 0
    let s := if p = 0 ∨ 1000 < p then s else { s with safety := { s.safety with pulse := p } }
    if bit n 10 then after s (execFaultnRelease s) else s
  | 3, 0x104 => after s (execLsoDriveWrite (v.setWidth 8) s)
  | 3, 0x108 => if bit (clears s 0x30108 n) 10 then { s with safety := { s.safety with lsoRefused := false } } else s
  | 3, o => writeStatus s .package o v
  | 7, 0x000 =>
    let s := after s (execFifoModeWrite (bit n 0) s)
    if bit n 1 then after s (execCmdAbort s) else s
  | 7, 0x024 => after s (execRplRdWrite (v.setWidth 16) s)
  | 7, 0x02C => after s (execEvtRdWrite (v.setWidth 14) s)
  | 7, 0x034 => { s with fifo := { s.fifo with rplVec := bits n 10 0, evtVec := bits n 26 16 } }
  | 8, 0x020 | 8, 0x024 => setReg s (0x80000 + o) n
  | 8, 0x028 => setReg s 0x80028 (n % 2 ^ 23)
  | 8, 0x02C => if bit n 0 then after s (execBootGo s) else s
  | _, _ => s

/-- The fields of the mover block (R324, R325). -/
def writeMover (s : State) (d o : Nat) (v : Word) : State :=
  if o < 0x2000 then
    let m := 32 * d + o / 0x100
    let q := o % 0x100
    if q ≤ 0x18 then after s (execMoverSetWrite m q v s)
    else if q = 0x20 then
      let s := if bit v.toNat 0 then after s (execMoverAbort m s) else s
      if bit v.toNat 1 then after s (execMoverClear m s) else s
    else s
  else if o < 0x2080 then
    let r := (o - 0x2000) / 0x20
    if o % 0x20 ≤ 0x08 then after s (execRingCfgWrite d r (o % 0x20) v s)
    else if o % 0x20 = 0x10 then after s (execCrRdWrite d r (v.setWidth 17) s)
    else s
  else s

/-- A whole word written at BAR0 offset a: W1C bits cleared, RW fields set, everything else ignored; a register that has a row of
its own acts as that row. -/
def writeWord (s : State) (a : Nat) (v : Word) : State :=
  let n := v.toNat
  if (enableAddr a).isSome then w1c s a n
  else if 4 ≤ a ∧ enableAddr (a - 4) = some a then setReg s a (n % 2 ^ eventWidth (blkOf (a - 4)))
  else match blkOf a with
    | .pkg b o => writePkg s b o v
    | .port p o =>
      if 0x700 ≤ o ∧ o < 0x780 then w1c s a n
      else if o = 0xC04 then after s (plainTsTailWrite p (v.setWidth 7) s)
      else s
    | .traj r o => if o = 0 then after s (plainSegPutDb r v s) else s
    | .rstat r o => writeStatus s (.region r) o v
    | .dstat d o => writeStatus s (.die d) o v
    | .coll c o => if o < 0x40 then after s (plainFaultStickyW1c (.port (16 * c + o / 4)) v s) else s
    | .dcoll d o => if o < 0x10 then after s (plainFaultStickyW1c (.port (512 + 4 * d + o / 4)) v s) else s
    | .mover d o => writeMover s d o v
    | _ => s

/-- ACCESS_BAD_CNT of R426. -/
def accessBad (s : State) : State := count s 0x20 1

/-- REGISTER_WRITE: one dword, with its byte enables. Reserved space ignores it (R427); an access that breaks R426 is discarded and
counted. -/
def plainRegisterWrite (addr : Nat) (v : Word) (be : BitVec 4) (s : State) : Out :=
  .next (
    if 0x4000000 ≤ addr then s
    else busWrite s addr fun s =>
      if !(defined s (blkOf (addr - addr % 4))) then s
      else if addr % 4 ≠ 0 ∨ be ≠ 15 then accessBad s
      else writeWord s addr v)

/-! ### Reads -/

/-- COUNTER_LO_READ: a read of RX_OCTETS_LO or TX_OCTETS_LO latches its HI word (R238). -/
def plainCounterLoRead (addr : Nat) (s : State) : Out :=
  .next (match blkOf addr with
    | .port p o =>
      if o ≠ 0x100 ∧ o ≠ 0x180 then s
      else busRead s addr fun s =>
        if !(hasPort s p) then s
        else emit { s with hiLatch := s.hiLatch.put addr (wd (reg s (addr + 4))) 0 } (.read [wd (reg s addr)])
    | _ => s)

/-- LOST of a capture input without the edges lost in this CTRL cycle (R7). -/
def settledLost (s : State) (i : Nat) : Nat := (capture s i).lost - freshAt s (0x5010C + 16 * i)

/-- RC_READ: LOST of a capture input is returned and cleared; the other fields of its word stay. Edges lost in the CTRL cycle of the
read are not in the value and stay recorded (R7). -/
def execRcRead (addr : Nat) (s : State) : Out :=
  .next (match blkOf addr with
    | .pkg 5 o =>
      if o < 0x100 ∨ 0x140 ≤ o ∨ o % 16 ≠ 12 then s
      else busRead s addr fun s =>
        let i := (o - 0x100) / 16
        let n := settledLost s i
        emit (modCapture s i fun c => { c with lost := c.lost - n }) (.read [wd (pulseReg s o % 65536 + 65536 * n)])
    | _ => s)

/-- What one dword of a BAR0 read meets, where it does not go through. -/
def readError (s : State) (a dwords : Nat) : Option State :=
  match busStop s (blkOf a) with
  | some t => some (accessErr s t)
  | none =>
    if !(inSlow (blkOf a)) && !(dieRuns s 0) then some (accessErr s 8)
    else if !(defined s (blkOf (a - a % 4))) then none
    else if a % 4 ≠ 0 ∨ (dwords ≠ 1 ∧ (dwords ≠ 2 ∨ a % 8 ≠ 0)) then some (accessBad s)
    else busError s (blkOf a)

/-- The dword at byte a of BAR2 (R289): the reply and event rings; the other windows read zero. -/
def bar2Word (s : State) (a : Nat) : Nat :=
  if 0x40000 ≤ a ∧ a < 0x80000 then (s.fifo.rpl.look ((a - 0x40000) / 4) 0).toNat
  else if 0x80000 ≤ a ∧ a < 0x90000 then (s.fifo.evt.look ((a - 0x80000) / 4) 0).toNat
  else 0

/-- The dword at byte a of BAR4 (R84 to R87): the two snapshot buffers and their status; staging and reserved space read zero. -/
def bar4Word (s : State) (a : Nat) : Nat :=
  let m := s.image
  if a < 0x400000 then
    ofLe ((List.range 4).map fun i => (if a < 0x200000 then m.snap0 else m.snap1).look (a % 0x200000 + i) 0)
  else if a = 0x400000 then m.snapCycle
  else if a = 0x400004 then m.snapWriting
  else if a = 0x400008 then b2n m.ever
  else 0

/-- Whether an access of n dwords at a is 1 to 128 dwords within one 4 KiB page (R426). -/
def inPage (a n : Nat) : Bool := a % 4 == 0 && 1 ≤ n && n ≤ 128 && a % 4096 + 4 * n ≤ 4096

/-- What a read of BAR2 (2) or BAR4 meets. -/
def barReadError (s : State) (bar a dwords : Nat) : Option State :=
  let x := (a - 0x600000) / 64
  if !(dieRuns s 0) then some (accessErr s 8)
  else if bar = 4 && 0x600000 ≤ a && a < 0x700000 && hasAxis s x && !(regionRuns s (regionOfAxis x)) then
    some (accessErr s (if dieRuns s (dieOfAxis x) then regionOfAxis x else 8 + dieOfAxis x))
  else if !(ctrlRuns s) || s.sec.bootState != 5 then some (count s 0x20018 1)
  else if inPage a dwords then none
  else some (accessBad s)

/-- COMPLETER_ABORT_READ: a read that breaks the access rules, or reaches what does not answer; of a two-dword read that meets an
error of R369 or R351 both dwords count (R426). One that goes through changes nothing here. -/
def plainCompleterAbortRead (bar addr dwords : Nat) (s : State) : Out :=
  let e := if !s.pcie.up then none
    else if bar = 0 then (if 0x4000000 ≤ addr then none else readError s addr dwords)
    else if bar = 2 ∨ bar = 4 then barReadError s bar addr dwords else none
  .next (match e with
    | none => s
    | some t =>
      let t := if bar = 0 ∧ dwords = 2 ∧ addr % 8 = 0 then (match readError t (addr + 4) 1 with | some u => u | none => t) else t
      emit t (.completerAbort bar addr))

end Sys2Proof.Machine
end

