-- ==== Sys2Proof/Machine/Gate.lean ====
section
/-! DEFINITION. The gate handshake's end, the bus accesses held during it, and the rows whose accesses it may hold or whose resets may
end it (R366 to R369). -/

namespace Sys2Proof.Machine

/-! ### Held accesses (R367) -/

/-- The region whose window a bus access of the host reaches. -/
def accRegion : HeldAcc → Option Nat
  | .write a _ _ | .readLo a | .read 0 a _ => (blkOf a).regionOf
  | .read 4 a _ => if 0x600000 ≤ a ∧ a < 0x700000 then some (regionOfAxis ((a - 0x600000) / 64)) else none
  | .staging a _ _ => if 0x600000 ≤ a ∧ a < 0x700000 then some (regionOfAxis ((a - 0x600000) / 64)) else none
  | .segPut r _ => some r
  | .tsTail p _ => if p < 512 then some (regionOfPort p) else none
  | .w1c l _ => regionOfLoc l
  | _ => none

/-- Whether an access is held at the boundary of a region in its handshake. -/
def accHeld (s : State) (i : HeldAcc) : Bool :=
  s.pcie.up && match s.power.gate, accRegion i with
    | some (k, _), some r => hasRegion s r && coversRegion k r && regionState s r == 0
    | _, _ => false

/-- An access that is held, or its effect o. -/
def heldOr (s : State) (i : HeldAcc) (o : Out) : Out :=
  if accHeld s i then .next { s with power := { s.power with heldAcc := s.power.heldAcc ++ [i] } } else o

/-- An access that was held, entering. -/
def replay (s : State) (i : HeldAcc) : State :=
  after s (match i with
    | .write a v b => plainRegisterWrite a v b s
    | .readLo a => plainCounterLoRead a s
    | .read b a n => plainCompleterAbortRead b a n s
    | .staging a d w => plainStagingWrite a d w s
    | .segPut r v => plainSegPutDb r v s
    | .tsTail p v => plainTsTailWrite p v s
    | .w1c l v => plainFaultStickyW1c l v s)

/-- The held accesses enter in arrival order, unless a handshake still runs. -/
def releaseHeld (s : State) : State :=
  if s.power.gate.isSome then s
  else s.power.heldAcc.foldl replay { s with power := { s.power with heldAcc := [] } }

/-- The response of R369 to an access that was held at a gate of kind k: counted for each dword, reads with Completer Abort. -/
def refuseAcc (k : ResetKind) (s : State) (i : HeldAcc) : State :=
  let r := (accRegion i).getD 0
  let e (s : State) : State := accessErr s (match k with | .region _ => r | _ => 8 + r / 4)
  match i with
  | .readLo a => emit (e s) (.completerAbort 0 a)
  | .read b a n => emit (if b = 0 ∧ n = 2 ∧ a % 8 = 0 then e (e s) else e s) (.completerAbort b a)
  | _ => e s

/-! ### The end of the handshake (R368) -/

/-- GATE_HANDSHAKE_DONE: every handshake has arrived within 64 CTRL cycles; the command replies, the gate closes and every held access
receives the response of R369. DIE-PARK of the die whose pair executes commands first hands control over (R28). -/
def execGateHandshakeDone (s : State) : Out :=
  .next (match s.power.gate with
    | none => s
    | some (k, t, h) =>
      if t < nowNs s then s
      else
      let acc := s.power.heldAcc
      let mine := b2n s.power.active1
      let s := deliver { s with power := { s.power with gate := none, heldAcc := [] } } h (gateOp k) .ok
      let s := acc.foldl (refuseAcc k) s
      match k with
      | .die d =>
        if d = mine then
          { s with power := { s.power with handover := some (nextLine s (nowNs s + 1), some (d, true)) } }
        else enterLow k s
      | _ => enterLow k s)

/-- GATE_HANDSHAKE_TIMEOUT: a handshake missing at 64 CTRL cycles; the gate is refused and the held accesses enter in arrival order. -/
def execGateHandshakeTimeout (s : State) : Out :=
  .next (match s.power.gate with
    | none => s
    | some (k, t, h) =>
      let s := count (atNs { s with power := { s.power with gate := none } } t) 0x2001C 1
      releaseHeld (deliver (powerEvent s (scopeTarget k) 1 3) h (gateOp k) (.err stRefused)))

/-! ### The rows whose access a handshake may hold -/

def execRegisterWrite (addr : Nat) (v : Word) (be : BitVec 4) (s : State) : Out :=
  heldOr s (.write addr v be) (plainRegisterWrite addr v be s)
def execCounterLoRead (addr : Nat) (s : State) : Out := heldOr s (.readLo addr) (plainCounterLoRead addr s)
def execCompleterAbortRead (bar addr dwords : Nat) (s : State) : Out :=
  heldOr s (.read bar addr dwords) (plainCompleterAbortRead bar addr dwords s)
def execStagingWrite (ofs : Nat) (data : List Word) (whole : Bool) (s : State) : Out :=
  heldOr s (.staging ofs data whole) (plainStagingWrite ofs data whole s)
def execSegPutDb (r : Nat) (v : Word) (s : State) : Out := heldOr s (.segPut r v) (plainSegPutDb r v s)
def execTsTailWrite (p : Nat) (v : BitVec 7) (s : State) : Out := heldOr s (.tsTail p v) (plainTsTailWrite p v s)
def execFaultStickyW1c (loc : FaultLoc) (v : Word) (s : State) : Out :=
  heldOr s (.w1c loc v) (plainFaultStickyW1c loc v s)

/-! ### The rows whose reset may end a handshake (R366): what it held then enters, and meets the reset where that holds its region -/

/-- A row's outcome with the accesses that its reset has released. -/
def releasing (o : Out) : Out := match o with | .next s => .next (releaseHeld s) | o => o

def execResetBegin (k : ResetKind) (s : State) : Out := releasing (plainResetBegin k s)
def execFaultSourceFire (loc : FaultLoc) (src pair : Nat) (standing : Bool) (s : State) : Out :=
  releasing (plainFaultSourceFire loc src pair standing s)
def execReactionRegionReset (r : Nat) (s : State) : Out := releasing (plainReactionRegionReset r s)
def execControlHandover (s : State) : Out := releasing (plainControlHandover s)

end Sys2Proof.Machine
end

