-- ==== Sys2Proof/Machine/Observe.lean ====
section
/-! DEFINITION. Trace ring, Bell port, counter archive and boundary scan (R390 to R401). -/

namespace Sys2Proof.Machine

/-! ### Trace records (R391 to R395) -/

/-- The 32 bytes of a record at position n of the stream. -/
def traceBytes (r : TraceRec) (n : Nat) : List Byte :=
  let ns := r.t16 / 65536
  le 4 (r.type + 256 * (n % 256)) ++ le 4 ns ++ le 4 (r.t16 % 65536) ++ le 4 r.addr ++
    (List.range 4).flatMap fun i => le 4 (r.args.getD i 0)

/-- A record dropped under R393. -/
def traceDrop (s : State) (d : Nat) : State :=
  let t := s.trace
  count { s with trace := { t with pend := t.pend.put d (sat32 (t.pend.look d 0 + 1)) 0 } } 0x90014 1

/-- A record of the stream for the Bell port's own queue (R396, R397). -/
def bellPut (s : State) (b : List Byte) : State :=
  let t := s.trace
  if !t.bellOn then s
  else if t.bellQ.length < 256 then { s with trace := { t with bellQ := t.bellQ ++ [b] } }
  else count { s with trace := { t with bellPend := sat32 (t.bellPend + 1) } } 0x90018 1

/-- Whether die d's trace records reach the stream: those of die 1 cross the die bridge (R393). -/
def traceReaches (s : State) (d : Nat) : Bool := clocksRun s && (d == 0 || (dieRuns s d && bridgeUp s))

/-- TRACE_RECORD_WRITE: the oldest record of die d's queue enters the stream: the ring, the Bell port, or both. -/
def execTraceRecordWrite (d : Nat) (s : State) : Out :=
  .next (match s.trace.queue.look d [] with
    | [] => s
    | r :: q =>
      if !(traceReaches s d) || (s.trace.size = 0 && !s.trace.bellOn) then s
      else
        let dead := traceDead s
        let s := { s with trace := { s.trace with queue := s.trace.queue.put d q [] } }
        if dead then traceDrop s d
        else
          let n := s.trace.seq
          let b := traceBytes r n
          let s := { s with trace := { s.trace with seq := n + 1 } }
          let s := if s.trace.size = 0 then s
            else count (ddrWrite s 0 (s.trace.base + 32 * (n % (s.trace.size * 32768))) b) 0x90010 1
          bellPut s b)

/-- TRACE_GAP: the queue has space again: a GAP record carries the pending lost count, whatever TRACE_MASK holds. -/
def execTraceGap (d : Nat) (s : State) : Out :=
  let t := s.trace
  let n := t.pend.look d 0
  let q := t.queue.look d []
  .next (
    if n = 0 || 512 ≤ q.length || traceDead s then s
    else raise { s with trace := { t with
        queue := t.queue.put d (q ++ [{ type := 0xFE, t16 := now16 s, addr := 0x90000, args := [n] }]) []
        pend := t.pend.put d 0 0 } } 0x90030 1)

/-! ### The Bell port (R396, R397) -/

/-- 34 bytes: start, record, XOR check. -/
def bellFrame (b : List Byte) : List Byte :=
  let l := 0xB5#8 :: b
  l ++ [l.foldl (· ^^^ ·) 0]

/-- Whether TRC_CLK runs, at the CTRL rate in force, the divider ramp's included. While it does not, TRC_CLK and TRC_D are low: with
BELL_ON 0, in every reset, while CTRL is stopped (R397), and under clock-loss safe (R409;
DEDUCED, log entry 180). -/
def trcRuns (s : State) : Bool :=
  s.trace.bellOn && !s.safety.clockSafe && (s.clock.state == .run || s.clock.state == .ramp) && s.power.held.isNone && !s.power.pinHeld && s.power.ends.isEmpty

/-- The period of TRC_CLK in ns, CTRL divided by 2; 0 while it is driven low. Between records TRC_D is 0 (R396, R397). -/
def trcPeriod (s : State) : Nat := if trcRuns s then 10 * (if s.clock.state == .ramp then s.clock.rampDiv else 1) else 0

/-- BELL_RECORD_SEND: the oldest record of the Bell queue leaves on TRC_D. -/
def execBellRecordSend (s : State) : Out :=
  .next (match s.trace.bellQ with
    | [] => s
    | b :: q =>
      if trcRuns s = false then s else emit { s with trace := { s.trace with bellQ := q } } (.bell (bellFrame b)))

/-- BELL_GAP: a GAP record of the port's own, once its queue has space. Its place in the trace stream, which it has none of, is a
free value (log entry 13). -/
def execBellGap (s : State) : Out :=
  let t := s.trace
  .next (
    if t.bellPend = 0 || 256 ≤ t.bellQ.length || !t.bellOn then s
    else
      let r : TraceRec := { type := 0xFE, t16 := now16 s, addr := 0x90000, args := [t.bellPend] }
      let b := traceBytes r (Config.freeByte s.free).toNat
      raise (useFree { s with trace := { t with bellQ := t.bellQ ++ [b], bellPend := 0 } }) 0x90030 2)

/-! ### Areas in DDR4 of die 0 (R394, R398) -/

/-- Whether two ranges of MiB sizes overlap. -/
def overlaps (a n b m : Nat) : Bool := n != 0 && m != 0 && a < b + m * 2 ^ 20 && b < a + n * 2 ^ 20

/-- Whether an area of n MiB at base leaves the fitted DDR4 of die 0 or overlaps its spill buffer or another area. -/
def areaBad (s : State) (base n ob on : Nat) : Bool :=
  let b := s.traffic.buf.look 0 {}
  n != 0 && (ddrBytes s 0 < base + n * 2 ^ 20 || overlaps base n b.spillBase b.spillSize || overlaps base n ob on)

/-- TRACE_SET: mask, ring and Bell port; the stream starts again. -/
def bodyTraceSet (_ : CmdHdr) (w : List Word) (s : State) : State × Reply :=
  let base := w64 w 1
  let n := prm w 3
  if fld w 0 31 8 ≠ 0 then (s, .err stInvalid 1)
  else if base % 2 ^ 20 ≠ 0 then (s, .err stInvalid 2)
  else if 4096 < n then (s, .err stInvalid 4)
  else if areaBad s base n s.arch.base s.arch.size then (s, .err stInvalid 2)
  else if fld w 4 31 1 ≠ 0 then (s, .err stInvalid 5)
  else
    let t := s.trace
    let s := setReg (setReg (setReg s 0x90010 0) 0x90014 0) 0x90018 0
    ({ s with trace := { t with mask := prm w 0, base := base, size := n, bellOn := bit (prm w 4) 0, seq := 0 } }, .ok)

/-- TRACE_QUERY. -/
def bodyTraceQuery (_ : CmdHdr) (_ : List Word) (s : State) : State × Reply :=
  (s, .ok ([0x10, 0x14, 0x18].map fun o => wd (obsReg s o)))

/-! ### Counter archive (R398, R399) -/

/-- The first archive instant at or after ns t, for a period of per ns (R398). -/
def archAt (per t : Nat) : Nat := (t + per - 1) / per * per

/-- ARCHIVE_SET: period and area; the first instant is the first multiple of the period at or after now + 1 ms. -/
def bodyArchiveSet (_ : CmdHdr) (w : List Word) (s : State) : State × Reply :=
  let p := prm w 0
  let base := w64 w 1
  let n := prm w 3
  if p ≠ 0 ∧ (p < 10 ∨ 60000 < p) then (s, .err stInvalid 1)
  else if base % 2 ^ 20 ≠ 0 then (s, .err stInvalid 2)
  else if n = 0 ∨ 4096 < n then (s, .err stInvalid 4)
  else if areaBad s base n s.trace.base s.trace.size then (s, .err stInvalid 2)
  else
    let per := p * 1000000
    let t := nowUp s + 1000000
    let first := if p = 0 then 0 else archAt per t
    ({ s with arch := { s.arch with period := p, base := base, size := n, k := 0, next := first, busy := none } }, .ok)

/-- ARCHIVE_QUERY. -/
def bodyArchiveQuery (_ : CmdHdr) (_ : List Word) (s : State) : State × Reply :=
  (s, .ok (([0x24, 0x28].map fun o => wd (obsReg s o)) ++ ltWords s.arch.last 0))

/-- The counters and words an archive record holds beside its header: place in the record and value, zeroes left out. Words of one
block follow each other; words a gap of the spec's lists ends are zero (DEDUCED, log entry 50). -/
def archived (s : State) : List (Nat × Word) :=
  let put (o : Nat) (l : List Nat) : List (Nat × Word) :=
    (l.zipIdx.map fun x => (o + 4 * x.2, wd x.1)).filter fun x => x.2 != 0
  let steps (a b : Nat) : List Nat := (List.range ((b - a) / 4 + 1)).map fun i => a + 4 * i
  let ports := (List.range 520).flatMap fun p =>
    if hasPort s p then put (64 + 1536 * p) ((steps 0x100 0x6FC).map (portReg s p)) else []
  let regions := (List.range 8).flatMap fun r =>
    if hasRegion s r then put (798784 + 64 * r) ((steps 0x30 0x44).map (trajReg s r) ++ [statusReg s (.region r) 0x14]) else []
  let dies := (List.range 2).flatMap fun d =>
    if hasDie s d then
      put (799296 + 256 * d) ((steps 0x14 0x18).map (tmReg s d) ++ (steps 0x2110 0x2118).map (moverReg s d) ++
        [statusReg s (.die d) 0x14, collReg s (512 + 4 * d) 4 0x44])
    else []
  let pkg := put 799808 ((steps 0x10 0x28).map (twinReg s) ++
    ((List.range 8).flatMap fun u => (steps 0x20 0x30).map fun o => if hasDie s (u / 4) then hyReg s u o else 0) ++
    [fifoReg s 0x18, fifoReg s 0x30, fifoReg s 0x40, secReg s 0x34, powerReg s 0x18, powerReg s 0x1C, statusReg s .package 0x14])
  ports ++ regions ++ dies ++ pkg

/-- The archive instant that comes next. Instants that passed while nothing could latch, or that line time stepped over, are no
archive instants of the record sequence (DESIGN CHOICE, log entry 159). -/
def archNext (s : State) : Nat :=
  if s.arch.next < nowNs s then archAt (s.arch.period * 1000000) (nowUp s) else s.arch.next

/-- ARCHIVE_LATCH: at A_k every archived counter is latched; the latch is skipped while a record is still being written. -/
def execArchiveLatch (s : State) : Out :=
  .next (
    if s.arch.period = 0 || !(clocksRun s) || !(dieRuns s 0) then s
    else
      let t := archNext s
      let s := atNs s t
      let a := s.arch
      let y := { a with k := a.k + 1, next := t + a.period * 1000000 }
      if a.busy.isSome then raise (count { s with arch := y } 0x90028 1) 0x90030 4
      else { s with arch := { y with busy := some (a.k, t, archived s) } })

/-- ARCHIVE_RECORD_DONE: the 1 MiB record of A_k is whole in DDR4. -/
def execArchiveRecordDone (s : State) : Out :=
  .next (match s.arch.busy with
    | none => s
    | some (k, t, l) =>
      if !(clocksRun s) || !(dieRuns s 0) || !(ddrChan s 0).trained then s
      else
        let o := s.arch.base + 2 ^ 20 * (k % s.arch.size)
        let s := { s with
          ddr := Tbl.drop s.ddr fun i => decide (o ≤ i ∧ i < o + 2 ^ 20)
          arch := { s.arch with busy := none, last := t } }
        let s := ddrWrite s 0 o (le 4 0x41524348 ++ le 4 k ++ wordsLe (ltWords t 0))
        let s := l.foldl (fun s x => ddrWrite s 0 (o + x.1) (le 4 x.2.toNat)) s
        count s 0x90024 1)

/-! ### Boundary scan (R400) -/

/-- IDCODE of the part. -/
def idcode (s : State) : Word := wd ((if s.otp.part5124 then 0x051247C7 else 0x025627C7) + s.otp.siliconRev % 16 * 2 ^ 28)

/-- The register between TDI and TDO. -/
inductive TapDr where
  | bypass | idcode | boundary
  deriving DecidableEq, Repr

/-- The data register that the instruction in force selects; none in Test-Logic-Reset, where TDO is at high impedance. -/
def tapDr (s : State) : Option TapDr :=
  if s.tap.reset then none
  else match s.tap.inst with
    | .bypass | .clamp | .highz => some .bypass
    | .idcode => some .idcode
    | .samplePreload | .extest => some .boundary

/-- What output pin n of the chain shows, given its functional level: that level, its cell under EXTEST and CLAMP, or none, high impedance,
under HIGHZ. What CLAMP and HIGHZ select and drive is by the standard that R400 names (PRESUMED, log entry 178). -/
def chainPin (s : State) (n : Nat) (level : Bool) : Option Bool :=
  if s.tap.reset then some level
  else match s.tap.inst with
    | .extest | .clamp => some (Config.freeCell s.tap.cells n)
    | .highz => none
    | .bypass | .idcode | .samplePreload => some level

/-- TAP_INSTRUCTION: loaded only while TEST_EN is high and RSTn is low; otherwise the port is held in Test-Logic-Reset. SAMPLE/PRELOAD and
EXTEST shift new contents into the cells. LSO and FAULTn, whose cells observe only, are in no chainPin. -/
def execTapInstruction (testEn : Bool) (i : TapInstr) (s : State) : Out :=
  let s := { s with pins := { s.pins with testEn := testEn } }
  .next (
    if !testEn || s.pins.rstn then { s with tap := {} }
    else
      let s := { s with tap := { s.tap with inst := i, reset := false } }
      let s := if i = .samplePreload ∨ i = .extest then useFree { s with tap := { s.tap with cells := s.free } } else s
      if i = .idcode then emit s (.idcode (idcode s)) else s)

def execTraceSet (h : CmdHdr) (w : List Word) (s : State) : Out := .next (runCmd s h 0x0D01 w bodyTraceSet)
def execTraceQuery (h : CmdHdr) (w : List Word) (s : State) : Out := .next (runCmd s h 0x0D02 w bodyTraceQuery)
def execArchiveSet (h : CmdHdr) (w : List Word) (s : State) : Out := .next (runCmd s h 0x0D03 w bodyArchiveSet)
def execArchiveQuery (h : CmdHdr) (w : List Word) (s : State) : Out := .next (runCmd s h 0x0D04 w bodyArchiveQuery)

end Sys2Proof.Machine
end

