-- ==== Sys2Proof/Machine/TimeStep.lean ====
section
/-! DEFINITION. Steps of line time, the servo, the states of the time base, and the commands and events that may cause a step (R50 to
R58, R62, R68, R131, R156). -/

namespace Sys2Proof.Machine

/-! ### Steps (R54, R55, R68, R131, R156) -/

/-- R156: a running list re-anchors by R153, a pending start or swap is recomputed from its own T_b, and a pending stop as the first
V_k of the list that then runs. With it, the k that VSWAP_K then shows. -/
def stepValve (now : Nat) (v : Valve) : Valve × Option Nat :=
  let lim := now + 4000
  let pe := v.pend.map fun x => (x, firstAt x.tb x.vct lim)
  let pend := pe.map fun x => { x.1 with at_ := x.2.1 }
  if v.state = 2 then
    let b := firstAt v.vbase v.vct lim
    ({ v with vbase := b.1, idle := some b.1, pend := pend, stopAt := v.stopAt.map fun _ => b.1 },
      some (max b.2 ((pe.map (·.2.2)).getD 0)))
  else
    ({ v with pend := pend, stopAt := match v.stopAt, pend with
        | some _, some x => some (firstAt x.at_ x.vct lim).1
        | t, _ => t }, pe.map (·.2.2))

/-- A port's valve after a step: VSWAP_K and VSWAP_LATE by R153, and what its gates and holds now do to the frame on the line (R156,
R160, R165). VSWAP_K shows the larger of the running list's k and a pending one's, and the re-anchored instant itself raises no VSWAP_DONE
(DESIGN CHOICE: R156 says only that the valve re-anchors by R153; log entry 173). s0 is the state before the step. -/
def stepPortValve (s0 : State) (s : State) (p : Nat) : State :=
  let y := stepValve (nowNs s) (port s p).valve
  let s := modPort s p fun x => { x with valve := y.1 }
  let s := match y.2 with
    | none => s
    | some k =>
      let s := setReg s (portBase p + 0x410) (sat32 k)
      if k = 0 then s else raisePort s p 0x408 2
  gateMove (holdNow s0 p) (gatesNow s0 p) s p

/-- R131: an axis in ARMED, RUN, HOLD or QSTOP goes to STOPPED with cause 8, P held, V and A zero. Decisions and boundaries that line
time, now at ns t, has been carried back over come again (R87). -/
def stepAxis (t : Nat) (x : Axis) : Axis :=
  let x := { x with run := { x.run with
    lastB := x.run.lastB.filter (· ≤ t)
    decided := x.run.decided.filter fun d => d.b ≤ t + 2000 } }
  if 1 ≤ x.dyn.state ∧ x.dyn.state ≤ 4 then
    { x with
      dyn := { x.dyn with state := 5, cause := 8, v := 0, a := 0 }
      run := { x.run with s0 := 0, qstop := none, decided := none, cache := [] } }
  else x

/-- The axes after a step, each with its record. -/
def stepAxes (s : State) : State :=
  (keys s.axes).foldl (fun s a =>
    let o := (axis s a).dyn.state
    traceAxis (setAxis s a (stepAxis (nowNs s) (axis s a))) a o) s

/-- An instant that measures time already running, moved with the counter. -/
def moved (d : Int) (x : Nat) : Nat := ((x : Int) + d).toNat

/-- The same where 0 stands for no instant. -/
def movedSet (d : Int) (x : Nat) : Nat := if x = 0 then 0 else max 1 (moved d x)

/-- A port's running times, in 2^-16 ns (d) and in ns (n): the frame on the line, the line, pauses, refreshes, the verify wait. -/
def stepPortTimes (d n : Int) (x : Port) : Port :=
  { x with
    txd := { x.txd with
      tx := x.txd.tx.map fun f => { f with t16 := moved d f.t16, stamp := some (f.stamp.getD f.t16) }
      lineFree := moved d x.txd.lineFree
      rxPause := x.txd.rxPause.map fun e => (moved d e.1, e.2)
      rxPfc := x.txd.rxPfc.map fun e => (moved d e.1, e.2)
      pauses := x.txd.pauses.mapVals (fun z =>
        { until_ := movedSet d z.until_, since := z.since.map (moved d), ignore := movedSet d z.ignore }) {}
      refresh := x.txd.refresh.mapVals (movedSet d) 0 }
    pre := { x.pre with deadline := x.pre.deadline.map (moved n) } }

/-- The next archive instant after a step to ns t: the first at or after t, or the first of all where that is still ahead (R398). -/
def stepArch (t : Nat) (a : Archive) : Archive :=
  if a.period = 0 || (a.k == 0 && t ≤ a.next) then a
  else { a with next := (t + a.period * 1000000 - 1) / (a.period * 1000000) * (a.period * 1000000) }

/-- Every time that runs on over a step: it lasts as long as it would have. Instants stated in line time and timestamps already taken
stay (R55; DESIGN CHOICE, log entry 129). -/
def stepTimes (d n : Int) (s : State) : State :=
  { s with
    ports := s.ports.mapVals (stepPortTimes d n) {}
    time := { s.time with
      lastSample := moved n s.time.lastSample
      epochAt := moved d s.time.epochAt
      links := s.time.links.mapVals (fun l => { l with wordDue := 0 }) {} }
    faults := s.faults.mapVals (fun f => { f with winEnd := f.winEnd.map (moved n) }) {}
    safety := { s.safety with pulseEnd := s.safety.pulseEnd.map (moved n) }
    power := { s.power with
      gate := s.power.gate.map fun g => (g.1, moved n g.2.1, g.2.2)
      ends := s.power.ends.map fun e => (e.1, e.2.map (moved n))
      masks := s.power.masks.map fun e => (e.1, e.2.map (moved n))
      leaving := s.power.leaving.map fun e => (e.1, moved n e.2) }
    lanes := s.lanes.mapVals (fun l => { l with recalAt := moved n l.recalAt }) {}
    hlinks := s.hlinks.mapVals (fun l => { l with belowAt := l.belowAt.map (moved n), wordAt := l.wordAt.map (moved n) }) {}
    sys := { s.sys with setAt := moved n s.sys.setAt }
    twin := { s.twin with
      claimEdge := s.twin.claimEdge.map (moved n), breathIn := s.twin.breathIn.map (moved n), fwRefresh := moved n s.twin.fwRefresh }
    txns := s.txns.map fun t => if t.commit.isSome then t else { t with opened := moved n t.opened, expires := moved n t.expires }
    chans := s.chans.mapVals (fun c => { c with allowAt := moved (d * 4 / (5 * 65536)) c.allowAt }) {} }

/-- A step (R55): the counter takes its new value in one TIME cycle, the permit is used, valves, pulse units and axes react,
STEP_DONE is raised. Samples held by the filter are taken against the stepped time (DEDUCED, log entry 16). -/
def applyStep (s : State) (units : Nat) : State :=
  let s0 := s
  let u := units % unitsWrap
  let d : Int := ((u : Int) - s.time.units) / 2 ^ 25
  let n : Int := (u / 2 ^ 41 : Nat) - (nowNs s : Int)
  let s := stepTimes d n s
  let s := { s with
    time := { s.time with
      units := u
      permit := false
      initPend := none
      stepDefRaised := false
      samples := s.time.samples.map (· - d)
      sampleQ := s.time.sampleQ.map (· - d) }
    arch := stepArch ((u + 2 ^ 41 - 1) / 2 ^ 41) s.arch
    image := { s.image with log := [], stagingLog := [] }
    line := { s.line with last := none } }
  let s := (keys s.ports).foldl (stepPortValve s0) s
  let s := showPins s0 ((keys s.pulse.units).foldl (pulseReanchor n) s)
  let s := stepAxes s
  raise s 0x4001C 1

/-- STEP_DEFERRED, once for a permit (R54). -/
def stepDeferred (s : State) : State :=
  if s.time.stepDefRaised then s
  else raise { s with time := { s.time with stepDefRaised := true } } 0x4001C 2

/-! ### The servo (R52, R56, R57) -/

/-- The filtered offset of the samples held, newest first. -/
def filtered (t : TimeBase) : Int := if t.params.filtN = 0 then t.samples.headD 0 else Config.freeFilter t.samples

/-- Mean of the last servo updates; the present RATE where there are none since ACQUIRE (DESIGN CHOICE, log entry 130). -/
def rateMean (t : TimeBase) : Int :=
  if t.rateHist.isEmpty then t.rate else t.rateHist.sum / t.rateHist.length

/-- A servo update with filtered offset x: the sum of a proportional and an integral term, RATE staying within MAX_SLEW of the holdover
mean and within 32 bits (R47, R56, R57). The first update's integral term is the RATE that stood. -/
def servo (s : State) (x : Int) : State :=
  let t := s.time
  let m := rateMean t
  let d : Int := t.params.maxSlew * 2 ^ 40 / 1000000
  let i := (if t.rateHist.isEmpty then t.rate else t.integ) + Config.freeInt t.params.bw x
  let r := clamp (-2147483648) 2147483647 (clamp (m - d) (m + d) (i + Config.freeProp t.params.bw x))
  { s with time := { t with rate := r, integ := i, rateHist := (r :: t.rateHist).take 1024 } }

/-- Units of line time moved by x 2^-16 ns, within the 48-bit seconds field. -/
def movedUnits (u : Nat) (x : Int) : Nat := (((u : Int) + x * 2 ^ 25) % unitsWrap).toNat

/-- A step out of ACQUIRE of a HYITH child: the filtered offset applied to long time built from the epoch's SEC (R62), by the
extension of R45. -/
def epochUnits (s : State) (off : Int) : Nat :=
  match s.time.epochSec with
  | none => movedUnits s.time.units off
  | some sec =>
    let est : Int := sec * 1000000000 * 65536 + ((now16 s : Int) - s.time.epochAt)
    let t : Int := ((now16 s : Int) + off) % 2 ^ 48
    let d := (t - est) % 2 ^ 48
    let d := if d < 2 ^ 47 then d else d - 2 ^ 48
    (((est + d) * 2 ^ 25 + (s.time.units % 2 ^ 25 : Nat)) % unitsWrap).toNat

/-- Whether long time is known well enough to leave ACQUIRE (R52, R62). -/
def secOk (t : TimeBase) : Bool := t.source != 1 || t.secKnown

/-- |offset| > x ns. -/
def offOver (o : Int) (x : Nat) : Bool := decide ((x : Int) * 65536 < o) || decide (o < -((x : Int) * 65536))

/-- OFFSET_LARGE (R56): once until the offset has fallen to STEP_TH. -/
def offsetLarge (s : State) (big : Bool) : State :=
  let t := s.time
  if !big then { s with time := { t with offLarge := false } }
  else if !t.permit && !t.offLarge then raise { s with time := { t with offLarge := true } } 0x4001C 32
  else s

/-- STEP, passed by one sample: applied or deferred, then TRACK (R52, R54). An acting root takes no step (R276). -/
def stepState (s : State) (units : Nat) : State :=
  let s := setTState s .step false
  if s.sys.acting then setTState s .track false
  else if anyCourse s then setTState (stepDeferred s) .track false
  else setTState (applyStep s units) .track true

/-- A sample in ACQUIRE. -/
def acquireSample (s : State) : State :=
  let t := s.time
  if t.samples.length < 2 ^ t.params.filtN || !(secOk t) then s
  else
    let off := filtered t
    let big := offOver off t.params.stepTh
    let s := { s with time := { t with offset := off, goodRun := 0 } }
    if big && t.permit then
      stepState s (if t.source = 1 then epochUnits s off else movedUnits s.time.units off)
    else
      let s := offsetLarge s big
      let s := if s.time.permit && s.time.permitSeq then
        { s with time := { s.time with permit := false, permitSeq := false, stepDefRaised := false } } else s
      setTState s .track false

/-- A sample in TRACK or LOCKED. -/
def trackSample (s : State) : State :=
  let t := s.time
  let off := filtered t
  let big := offOver off t.params.stepTh
  let s := { s with time := { t with offset := off } }
  if big && t.permit then
    let s1 := stepState { s with time := { s.time with goodRun := 0 } } (movedUnits s.time.units off)
    if anyCourse s then servo s1 off else s1
  else
    let s := servo (offsetLarge s big) off
    let good := if offOver off t.params.lockTh then 0 else min 1024 (s.time.goodRun + 1)
    let s := { s with time := { s.time with goodRun := good } }
    if t.state = .locked then
      if offOver off (4 * t.params.lockTh) then setTState { s with time := { s.time with goodRun := 0 } } .track false else s
    else if good = 1024 then setTState s .locked false
    else s

/-- A valid offset sample x (2^-16 ns) of the source. An acting root keeps to HOLDOVER (R276). -/
def takeSample (s : State) (x : Int) : State :=
  let t := s.time
  match t.state with
  | .free => s
  | .holdover =>
    if s.sys.acting then s else
    let s := { s with time := { t with samples := [x], lastSample := nowNs s, rateHist := [] } }
    acquireSample (setTState s .acquire false)
  | st =>
    let s := { s with time := { t with samples := (x :: t.samples).take (2 ^ t.params.filtN), lastSample := nowNs s } }
    if st = .acquire then acquireSample s else trackSample s

/-- UTC_OFS as a GPTP or PTP source has sent it with a sample (register 0x024; it is valid from then on, until a new source is set). -/
def utcHeard (s : State) (utc : Option (BitVec 16)) : State :=
  match utc with
  | none => s
  | some u =>
    if s.time.source = 2 ∨ s.time.source = 3 then { s with time := { s.time with utcOfs := u.toNat, utcValid := true } } else s

/-- OFFSET_SAMPLE: the oldest sample a Hyith link or the PPS input has formed (R50, R62), or for GPTP and PTP the sample the protocol
gives. -/
def execOffsetSample (ext : Int) (utc : Option (BitVec 16)) (s : State) : Out :=
  .next (
    if s.time.source = 1 ∨ s.time.source = 4 then
      match s.time.sampleQ with
      | [] => s
      | x :: r => takeSample { s with time := { s.time with sampleQ := r } } x
    else takeSample (utcHeard s utc) ext)

/-- DEFERRED_STEP_APPLY (R58): the deferred initial time, advanced by the line time since acceptance. -/
def execDeferredStepApply (s : State) : Out :=
  .next (match s.time.initPend with
    | some (u, a) =>
      if anyCourse s || !s.time.permit || s.sys.acting then s
      else
        let s1 := applyStep s (u + (s.time.units + unitsWrap - a) % unitsWrap)
        setTState s1 s1.time.state true
    | none => s)

/-- HOLDOVER (R52): HOLD_TO after the last valid sample RATE freezes at its mean. -/
def execHoldover (s : State) : Out :=
  .next (match s.time.state with
    | .free | .holdover => s
    | _ =>
      let s := atNs s (s.time.lastSample + 1000 * s.time.params.holdTo)
      setTState { s with time := { s.time with rate := rateMean s.time, goodRun := 0 } } .holdover false)

/-! ### Commands -/

/-- R58: the initial time of a TIME_SOURCE_SET with source FREE, and the REPORT bits. An acting root, which takes no step, ignores it
(R276; DEDUCED, log entry 158). -/
def timeInit (s : State) (w : List Word) : State × Nat :=
  if !(bit (prm w 0) 7) || fld w 0 2 0 ≠ 0 then (s, 0)
  else if !s.time.permit || s.sys.acting then (s, 32)
  else
    let t := ltAt w 4
    let u := t.1 * 2 ^ 41 + t.2 * 2 ^ 25
    if anyCourse s then
      let s1 := stepDeferred s
      ({ s1 with time := { s1.time with initPend := some (u, s.time.units) } }, 64)
    else
      let s1 := applyStep s u
      (setTState s1 s1.time.state true, 0)

/-- TIME_SOURCE_SET (R50, R51, R53, R57, R58): a new lock sequence. It ends an OFFSET_LARGE episode (R56; DESIGN CHOICE, log entry
131). An acting root that is in HOLDOVER stays there, at the RATE frozen in it (R276; DEDUCED, log entry 158). -/
def bodyTimeSourceSet (_ : CmdHdr) (w : List Word) (s : State) : State × Reply :=
  match timeSourceBad s w with
  | some r => (s, r)
  | none =>
    let s0 := { s with time := { s.time with initPend := none, stepDefRaised := false } }
    let x := timeInit s0 w
    let s1 := x.1
    let src := fld w 0 2 0
    let t := s1.time
    let s2 := { s1 with
      time := { t with
        source := src
        srcIdx := fld w 0 6 3
        permitSeq := if t.permit then t.permitSeq else true
        permit := true
        params := timeParams w
        utcValid := false
        samples := []
        sampleQ := []
        rateHist := []
        secKnown := false
        epochAt := 0
        epochSec := if src = 4 then some (secAt w 4) else none
        goodRun := 0
        offLarge := false
        lastSample := nowNs s1 } }
    (if s.sys.acting && s.time.state == .holdover then s2 else setTState s2 (if src = 0 then .free else .acquire) false,
      .rep x.2 [])

/-- TIME_STEP_PERMIT (R53, R58). A grant while the lock sequence's permit is held adds nothing: it stays that permit, which leaving
ACQUIRE for TRACK discards (DESIGN CHOICE, log entry 132). -/
def bodyTimeStepPermit (_ : CmdHdr) (w : List Word) (s : State) : State × Reply :=
  let t := s.time
  if fld w 0 31 1 ≠ 0 then (s, .err stInvalid 1)
  else if bit (prm w 0) 0 then
    ({ s with time := { t with permit := false, initPend := none, stepDefRaised := false } }, .ok)
  else ({ s with time := { t with permit := true, permitSeq := t.permit && t.permitSeq } }, .ok)

def execTimeSourceSet (h : CmdHdr) (w : List Word) (s : State) : Out := .next (runCmd s h 0x0402 w bodyTimeSourceSet)
def execTimeStepPermit (h : CmdHdr) (w : List Word) (s : State) : Out := .next (runCmd s h 0x0403 w bodyTimeStepPermit)

end Sys2Proof.Machine
end

