-- ==== Sys2Proof/Machine/Packet.lean ====
section
/-! DEFINITION. COMMAND_TAKE: the control cores take the next command of a path, test its header and run it (R275, R281 to R285,
R295). -/

namespace Sys2Proof.Machine

/-- Commands 0x01xx. -/
def opRows01 : List (Nat × (CmdHdr → List Word → State → Out)) :=
  [(0x0101, execIdQuery),
   (0x0102, execEcho)]

/-- Commands 0x02xx. -/
def opRows02 : List (Nat × (CmdHdr → List Word → State → Out)) :=
  [(0x0201, execClockQuery),
   (0x0202, execReedTrim),
   (0x0203, execClkoutSet),
   (0x0204, execParkSet),
   (0x0205, execResetIssue),
   (0x0206, execStandbyEnter)]

/-- Commands 0x03xx. -/
def opRows03 : List (Nat × (CmdHdr → List Word → State → Out)) :=
  [(0x0301, execPortQuery),
   (0x0302, execPortSet),
   (0x0303, execPortSleep),
   (0x0304, execPortWake),
   (0x0305, execLaneSet),
   (0x0306, execLaneRecal),
   (0x0307, execPortCountRead),
   (0x0308, execPortReset)]

/-- Commands 0x04xx. -/
def opRows04 : List (Nat × (CmdHdr → List Word → State → Out)) :=
  [(0x0401, execTimeQuery),
   (0x0402, execTimeSourceSet),
   (0x0403, execTimeStepPermit),
   (0x0404, execTimeRateSet),
   (0x0405, execTimeLinkSet),
   (0x0406, execTimePortSet),
   (0x0407, execPulseSet),
   (0x0408, execPulseStop),
   (0x0409, execPinRouteSet),
   (0x040A, execCaptureSet),
   (0x040B, execTsringSet)]

/-- Commands 0x05xx. -/
def opRows05 : List (Nat × (CmdHdr → List Word → State → Out)) :=
  [(0x0501, execValveQuery),
   (0x0502, execValveSet),
   (0x0503, execValveWrite),
   (0x0504, execValveRead),
   (0x0505, execValveStart),
   (0x0506, execValveSwap),
   (0x0507, execValveStop),
   (0x0508, execPreemptSet),
   (0x0509, execPreemptQuery)]

/-- Commands 0x06xx. -/
def opRows06 : List (Nat × (CmdHdr → List Word → State → Out)) :=
  [(0x0601, execCourseQuery),
   (0x0602, execCourseSet),
   (0x0603, execBondWrite),
   (0x0604, execFrameSet),
   (0x0605, execSafeImageWrite),
   (0x0606, execCourseStart),
   (0x0607, execCourseSwap),
   (0x0608, execCourseSafe),
   (0x0609, execCourseResume),
   (0x060A, execCourseStop),
   (0x060B, execCourseLineSet)]

/-- Commands 0x07xx. -/
def opRows07 : List (Nat × (CmdHdr → List Word → State → Out)) :=
  [(0x0701, execAxisQuery),
   (0x0702, execAxisSet),
   (0x0703, execReflexSet),
   (0x0704, execReflexArm),
   (0x0705, execAxisStart),
   (0x0706, execAxisQstop),
   (0x0707, execAxisOff),
   (0x0708, execSegWrite),
   (0x0709, execDigestQuery)]

/-- Commands 0x08xx. -/
def opRows08 : List (Nat × (CmdHdr → List Word → State → Out)) :=
  [(0x0801, execFlowQuery),
   (0x0802, execFlowAdd),
   (0x0803, execFlowWrite),
   (0x0804, execFlowDelete),
   (0x0805, execFlowPortSet),
   (0x0806, execFlowLatentSet),
   (0x0807, execFlowRecovReset),
   (0x0808, execFlowCountRead),
   (0x0809, execFlowTableQuery)]

/-- Commands 0x09xx. -/
def opRows09 : List (Nat × (CmdHdr → List Word → State → Out)) :=
  [(0x0901, execQueueQuery),
   (0x0902, execQueueWrite),
   (0x0903, execQueueFlush),
   (0x0904, execServiceSet),
   (0x0905, execPortShapeSet),
   (0x0906, execBufferSet),
   (0x0907, execIngressSet),
   (0x0908, execBufferQuery)]

/-- Commands 0x0Axx. -/
def opRows0A : List (Nat × (CmdHdr → List Word → State → Out)) :=
  [(0x0A01, execTwinQuery),
   (0x0A02, execTwinSet),
   (0x0A03, execTwinLead),
   (0x0A04, execTwinFollow),
   (0x0A05, execTwinHandover),
   (0x0A06, execTwinSync),
   (0x0A07, execTwinOff)]

/-- Commands 0x0Bxx. -/
def opRows0B : List (Nat × (CmdHdr → List Word → State → Out)) :=
  [(0x0B01, execFaultQuery),
   (0x0B02, execFaultSet),
   (0x0B03, execFaultClear),
   (0x0B04, execFaultnSet),
   (0x0B05, execLsoSet)]

/-- Commands 0x0Cxx. -/
def opRows0C : List (Nat × (CmdHdr → List Word → State → Out)) :=
  [(0x0C01, execSecQuery),
   (0x0C02, execImageStage),
   (0x0C03, execImageVerify),
   (0x0C04, execImageActivate),
   (0x0C05, execAttest),
   (0x0C06, execRollbackAdvance)]

/-- Commands 0x0Dxx. -/
def opRows0D : List (Nat × (CmdHdr → List Word → State → Out)) :=
  [(0x0D01, execTraceSet),
   (0x0D02, execTraceQuery),
   (0x0D03, execArchiveSet),
   (0x0D04, execArchiveQuery)]

/-- Commands 0x0Exx. -/
def opRows0E : List (Nat × (CmdHdr → List Word → State → Out)) :=
  [(0x0E01, execSysQuery),
   (0x0E02, execSysSet),
   (0x0E03, execSysRouteSet),
   (0x0E04, execSysRootReturn),
   (0x0E05, execHyithQuery),
   (0x0E10, execTxnOpen),
   (0x0E11, execTxnCommit),
   (0x0E12, execTxnAbort),
   (0x0E13, execTxnQuery)]

/-- The command opcodes of R306 with their meanings. -/
def opRows : List (Nat × (CmdHdr → List Word → State → Out)) :=
  opRows01 ++ opRows02 ++ opRows03 ++ opRows04 ++ opRows05 ++ opRows06 ++ opRows07 ++ opRows08 ++ opRows09 ++ opRows0A ++ opRows0B ++ opRows0C ++ opRows0D ++ opRows0E

/-- The meaning of a command opcode; none where R306 defines no such command. -/
def runOpcode (op : Nat) (h : CmdHdr) (w : List Word) (s : State) : Option Out := (opRows.lookup op).map fun f => f h w s

/-- A packet taken from the PCIe ring, or with its frame: its words up to LENGTH, its bytes, and the hop count of its relay
prefix. -/
structure Taken where
  path : Path
  words : List Word
  bytes : List Byte
  hops : Nat := 0
  deriving DecidableEq, Repr

/-- Tests 3 to 5 of R285: the reply of the first that fails. -/
def packetTests (h : CmdHdr) (l : List Word) : Option Reply :=
  let n := l.length
  let w0 := prm l 0
  if wd (crc32c (wordsBe (l.take (n - 1)))) ≠ l.getD (n - 1) 0 then some (.err stBadCrc)
  else if bits w0 15 8 ≠ 1 then some (.err stBadVersion)
  else if bits w0 1 0 ≠ 0 ∨ bits w0 7 4 ≠ 0 ∨ bit (prm l 2) 0 ∨ fld l 3 3 0 ≠ 0 ∨ targetAgrees h = false then some (.err stInvalid)
  else none

/-- A packet whose first two tests have passed: replied to by tests 3 to 5, routed, unknown, or run. -/
def runPacket (s : State) (t : Taken) : State :=
  let h := pktHdr t.path t.words
  let op := pktOp t.words
  match packetTests h t.words with
  | some r => deliver s h op r
  | none =>
    if h.devno ≠ s.sys.devno then routePacket s h op t.hops (wordsBe t.words)
    else match runOpcode op h (pktParams t.words) s with
      | some (.next u) => u
      | some _ => s
      | none => deliver s h op (.err stUnknownOpcode)

/-- The words of a frame's payload, as many as its header's LENGTH, where the frame holds them (R285 step 2). -/
def frameWords (b : List Byte) : Option (List Word) :=
  let n := beAt b 8 2
  if n < 5 ∨ 4096 < n ∨ b.length < 4 * n then none else some (toWordsBe n b)

/-- A command frame: steps 1 and 2 of R285 on a frame path, then the rest. -/
def runFrame (s : State) (path : Path) (b : List Byte) (hops : Nat) : State :=
  if beAt b 0 2 ≠ 0x474D then count s 0x70040 1
  else match frameWords b with
    | none => let l := toWordsBe 4 b; deliver s (pktHdr path l) (pktOp l) (.err stBadLength)
    | some l => runPacket s { path := path, words := l, bytes := b, hops := hops }

/-- Whether a frame's packet is a reply (R282). -/
def isReply (b : List Byte) : Bool := bit (beAt b 3 1) 0

/-- The command a reply answers: one that was routed to the reply's sender, by opcode and TAG (R275). -/
def answered (s : State) (l : List Word) : Option (CmdHdr × Nat) :=
  s.relayed.find? fun x => x.2 == pktOp l && x.1.tag == BitVec.ofNat 16 (prm l 1) && x.1.devno == fld l 3 31 14

/-- A reply that came back to the path its command was given on. -/
def giveReply (s : State) (h : CmdHdr) (l : List Word) : State :=
  match h.path with
  | .pcie => rplPut s l
  | .mgmt p sa tags =>
    ctlPut s p (pMgmtClass (port s p)) (frame88B5 (be 6 sa.toNat) (pMac (port s p)) (replyTag (port s p) tags) (wordsBe l))
  | .hyith .. => s

/-- A reply relayed over Hyith: to the path of its command at the origin, on toward the origin elsewhere; without a command that
waits for it, or with no way on, discarded. None: the path of its command has no room. -/
def relayReply (s : State) (f : HyithFrame) : Option State :=
  match frameWords f.bytes with
  | none => some s
  | some l =>
    if f.origin = s.sys.devno then
      match answered s l with
      | none => some s
      | some x =>
        if canTake s x.1 then some (giveReply { s with relayed := s.relayed.erase x } x.1 l) else none
    else if 12 ≤ f.hops + 1 then some (count s (0xA0030 + 0x100 * f.uplink) 1)
    else match routeTo s f.origin with
      | some u => if hySlot s u then some (hyithSend s u f.origin (f.hops + 1) (wordsBe l)) else none
      | none => some s

/-- The header of a command frame's packet. -/
def frameHdr (path : Path) (b : List Byte) : CmdHdr := pktHdr path (toWordsBe 4 b)

/-- The path of a command frame of a Hyith link, and of one of a management port. -/
def hyPath (f : HyithFrame) : Path := .hyith f.uplink f.origin
def mgmtPath (f : MgmtFrame) : Path := .mgmt f.port f.sa f.tags

/-- The next frame of a Hyith link: its place in the input queue frees, so that LIMIT rises (R273). -/
def takeHyith (s : State) : State :=
  match s.hyithQ with
  | [] => s
  | f :: q =>
    let freed := modHlink { s with hyithQ := q } f.uplink fun l => { l with rxLimit := (l.rxLimit + 1) % 65536 }
    if isReply f.bytes && beAt f.bytes 0 2 == 0x474D then
      match relayReply freed f with
      | some t => t
      | none => s
    else if hasRoom s (frameHdr (hyPath f) f.bytes) then runFrame freed (hyPath f) f.bytes f.hops
    else s

/-- The next frame of the management ports. -/
def takeMgmt (s : State) : State :=
  match s.mgmtQ with
  | [] => s
  | f :: q =>
    if hasRoom s (frameHdr (mgmtPath f) f.bytes) then runFrame { s with mgmtQ := q } (mgmtPath f) f.bytes 0 else s

/-- The next packet of the PCIe ring; one whose stored words show a parity error is discarded as a rewind (R292). -/
def takePcie (s : State) (parityBad : Bool) : State :=
  if s.fifo.count = 0 || !(hasRoom s (pktHdr .pcie (takePacket s).2)) then s
  else
    let x := takePacket s
    if parityBad then
      let s := x.1
      raise (count { s with fifo := { s.fifo with why := 2 } } 0x70018 1) 0x70038 1
    else runPacket x.1 { path := .pcie, words := x.2, bytes := wordsBe x.2 }

/-- Whether a path has a command the cores could take now: its reply has room, and what a Hyith link brings back can be given. -/
def pathReady (s : State) : PathSel → Bool
  | .pcie => s.fifo.count != 0 && hasRoom s (pktHdr .pcie (takePacket s).2)
  | .frames => match s.mgmtQ with | [] => false | f :: _ => hasRoom s (frameHdr (mgmtPath f) f.bytes)
  | .hyith => match s.hyithQ with
    | [] => false
    | f :: _ =>
      if isReply f.bytes && beAt f.bytes 0 2 == 0x474D then (relayReply s f).isSome else hasRoom s (frameHdr (hyPath f) f.bytes)

/-- The three paths, in the order they are served. -/
def pathOf (i : Nat) : PathSel := match i % 3 with | 0 => .pcie | 1 => .frames | _ => .hyith

/-- The path whose turn it is: the first after the one served last that has a command (R295). -/
def pathTurn (s : State) : Option Nat := ([1, 2, 3].map fun i => (s.served + i) % 3).find? fun i => pathReady s (pathOf i)

/-- COMMAND_TAKE: the control cores take the next command of a path, when they are free and it is that path's turn. -/
def execCommandTake (sel : PathSel) (parityBad : Bool) (s : State) : Out :=
  .next (
    if !(coresFree s) then s
    else match pathTurn s with
      | none => s
      | some i =>
        if pathOf i ≠ sel then s
        else
          let s := { s with served := i }
          match sel with
          | .pcie => takePcie s parityBad
          | .frames => takeMgmt s
          | .hyith => takeHyith s)

end Sys2Proof.Machine
end

