-- ==== Sys2Proof/Machine/Dispatch.lean ====
section
/-! DEFINITION. exec: one arm per command or event, each a direct call of its meaning. -/

namespace Sys2Proof.Machine

def exec (i : Instr) (s : State) : Host.Outcome State Fault Refusal :=
  match i with
  | .idQuery h w => Sys2Proof.Machine.execIdQuery h w s
  | .echo h w => Sys2Proof.Machine.execEcho h w s
  | .clockQuery h w => Sys2Proof.Machine.execClockQuery h w s
  | .reedTrim h w => Sys2Proof.Machine.execReedTrim h w s
  | .clkoutSet h w => Sys2Proof.Machine.execClkoutSet h w s
  | .parkSet h w => Sys2Proof.Machine.execParkSet h w s
  | .resetIssue h w => Sys2Proof.Machine.execResetIssue h w s
  | .standbyEnter h w => Sys2Proof.Machine.execStandbyEnter h w s
  | .portQuery h w => Sys2Proof.Machine.execPortQuery h w s
  | .portSet h w => Sys2Proof.Machine.execPortSet h w s
  | .portSleep h w => Sys2Proof.Machine.execPortSleep h w s
  | .portWake h w => Sys2Proof.Machine.execPortWake h w s
  | .laneSet h w => Sys2Proof.Machine.execLaneSet h w s
  | .laneRecal h w => Sys2Proof.Machine.execLaneRecal h w s
  | .portCountRead h w => Sys2Proof.Machine.execPortCountRead h w s
  | .portReset h w => Sys2Proof.Machine.execPortReset h w s
  | .timeQuery h w => Sys2Proof.Machine.execTimeQuery h w s
  | .timeSourceSet h w => Sys2Proof.Machine.execTimeSourceSet h w s
  | .timeStepPermit h w => Sys2Proof.Machine.execTimeStepPermit h w s
  | .timeRateSet h w => Sys2Proof.Machine.execTimeRateSet h w s
  | .timeLinkSet h w => Sys2Proof.Machine.execTimeLinkSet h w s
  | .timePortSet h w => Sys2Proof.Machine.execTimePortSet h w s
  | .pulseSet h w => Sys2Proof.Machine.execPulseSet h w s
  | .pulseStop h w => Sys2Proof.Machine.execPulseStop h w s
  | .pinRouteSet h w => Sys2Proof.Machine.execPinRouteSet h w s
  | .captureSet h w => Sys2Proof.Machine.execCaptureSet h w s
  | .tsringSet h w => Sys2Proof.Machine.execTsringSet h w s
  | .valveQuery h w => Sys2Proof.Machine.execValveQuery h w s
  | .valveSet h w => Sys2Proof.Machine.execValveSet h w s
  | .valveWrite h w => Sys2Proof.Machine.execValveWrite h w s
  | .valveRead h w => Sys2Proof.Machine.execValveRead h w s
  | .valveStart h w => Sys2Proof.Machine.execValveStart h w s
  | .valveSwap h w => Sys2Proof.Machine.execValveSwap h w s
  | .valveStop h w => Sys2Proof.Machine.execValveStop h w s
  | .preemptSet h w => Sys2Proof.Machine.execPreemptSet h w s
  | .preemptQuery h w => Sys2Proof.Machine.execPreemptQuery h w s
  | .courseQuery h w => Sys2Proof.Machine.execCourseQuery h w s
  | .courseSet h w => Sys2Proof.Machine.execCourseSet h w s
  | .bondWrite h w => Sys2Proof.Machine.execBondWrite h w s
  | .frameSet h w => Sys2Proof.Machine.execFrameSet h w s
  | .safeImageWrite h w => Sys2Proof.Machine.execSafeImageWrite h w s
  | .courseStart h w => Sys2Proof.Machine.execCourseStart h w s
  | .courseSwap h w => Sys2Proof.Machine.execCourseSwap h w s
  | .courseSafe h w => Sys2Proof.Machine.execCourseSafe h w s
  | .courseResume h w => Sys2Proof.Machine.execCourseResume h w s
  | .courseStop h w => Sys2Proof.Machine.execCourseStop h w s
  | .courseLineSet h w => Sys2Proof.Machine.execCourseLineSet h w s
  | .axisQuery h w => Sys2Proof.Machine.execAxisQuery h w s
  | .axisSet h w => Sys2Proof.Machine.execAxisSet h w s
  | .reflexSet h w => Sys2Proof.Machine.execReflexSet h w s
  | .reflexArm h w => Sys2Proof.Machine.execReflexArm h w s
  | .axisStart h w => Sys2Proof.Machine.execAxisStart h w s
  | .axisQstop h w => Sys2Proof.Machine.execAxisQstop h w s
  | .axisOff h w => Sys2Proof.Machine.execAxisOff h w s
  | .segWrite h w => Sys2Proof.Machine.execSegWrite h w s
  | .digestQuery h w => Sys2Proof.Machine.execDigestQuery h w s
  | .flowQuery h w => Sys2Proof.Machine.execFlowQuery h w s
  | .flowAdd h w => Sys2Proof.Machine.execFlowAdd h w s
  | .flowWrite h w => Sys2Proof.Machine.execFlowWrite h w s
  | .flowDelete h w => Sys2Proof.Machine.execFlowDelete h w s
  | .flowPortSet h w => Sys2Proof.Machine.execFlowPortSet h w s
  | .flowLatentSet h w => Sys2Proof.Machine.execFlowLatentSet h w s
  | .flowRecovReset h w => Sys2Proof.Machine.execFlowRecovReset h w s
  | .flowCountRead h w => Sys2Proof.Machine.execFlowCountRead h w s
  | .flowTableQuery h w => Sys2Proof.Machine.execFlowTableQuery h w s
  | .queueQuery h w => Sys2Proof.Machine.execQueueQuery h w s
  | .queueWrite h w => Sys2Proof.Machine.execQueueWrite h w s
  | .queueFlush h w => Sys2Proof.Machine.execQueueFlush h w s
  | .serviceSet h w => Sys2Proof.Machine.execServiceSet h w s
  | .portShapeSet h w => Sys2Proof.Machine.execPortShapeSet h w s
  | .bufferSet h w => Sys2Proof.Machine.execBufferSet h w s
  | .ingressSet h w => Sys2Proof.Machine.execIngressSet h w s
  | .bufferQuery h w => Sys2Proof.Machine.execBufferQuery h w s
  | .twinQuery h w => Sys2Proof.Machine.execTwinQuery h w s
  | .twinSet h w => Sys2Proof.Machine.execTwinSet h w s
  | .twinLead h w => Sys2Proof.Machine.execTwinLead h w s
  | .twinFollow h w => Sys2Proof.Machine.execTwinFollow h w s
  | .twinHandover h w => Sys2Proof.Machine.execTwinHandover h w s
  | .twinSync h w => Sys2Proof.Machine.execTwinSync h w s
  | .twinOff h w => Sys2Proof.Machine.execTwinOff h w s
  | .faultQuery h w => Sys2Proof.Machine.execFaultQuery h w s
  | .faultSet h w => Sys2Proof.Machine.execFaultSet h w s
  | .faultClear h w => Sys2Proof.Machine.execFaultClear h w s
  | .faultnSet h w => Sys2Proof.Machine.execFaultnSet h w s
  | .lsoSet h w => Sys2Proof.Machine.execLsoSet h w s
  | .secQuery h w => Sys2Proof.Machine.execSecQuery h w s
  | .imageStage h w => Sys2Proof.Machine.execImageStage h w s
  | .imageVerify h w => Sys2Proof.Machine.execImageVerify h w s
  | .imageActivate h w => Sys2Proof.Machine.execImageActivate h w s
  | .attest h w => Sys2Proof.Machine.execAttest h w s
  | .rollbackAdvance h w => Sys2Proof.Machine.execRollbackAdvance h w s
  | .traceSet h w => Sys2Proof.Machine.execTraceSet h w s
  | .traceQuery h w => Sys2Proof.Machine.execTraceQuery h w s
  | .archiveSet h w => Sys2Proof.Machine.execArchiveSet h w s
  | .archiveQuery h w => Sys2Proof.Machine.execArchiveQuery h w s
  | .sysQuery h w => Sys2Proof.Machine.execSysQuery h w s
  | .sysSet h w => Sys2Proof.Machine.execSysSet h w s
  | .sysRouteSet h w => Sys2Proof.Machine.execSysRouteSet h w s
  | .sysRootReturn h w => Sys2Proof.Machine.execSysRootReturn h w s
  | .hyithQuery h w => Sys2Proof.Machine.execHyithQuery h w s
  | .txnOpen h w => Sys2Proof.Machine.execTxnOpen h w s
  | .txnCommit h w => Sys2Proof.Machine.execTxnCommit h w s
  | .txnAbort h w => Sys2Proof.Machine.execTxnAbort h w s
  | .txnQuery h w => Sys2Proof.Machine.execTxnQuery h w s
  | .txnCommitApply txid => Sys2Proof.Machine.execTxnCommitApply txid s
  | .txnRollback txid => Sys2Proof.Machine.execTxnRollback txid s
  | .txnExpired txid => Sys2Proof.Machine.execTxnExpired txid s
  | .cmdFifoWrite ofs data whole poisoned => Sys2Proof.Machine.execCmdFifoWrite ofs data whole poisoned s
  | .cmdFifoWriteMode1 ofs data poisoned => Sys2Proof.Machine.execCmdFifoWriteMode1 ofs data poisoned s
  | .cmdAbort => Sys2Proof.Machine.execCmdAbort s
  | .fifoModeWrite mode => Sys2Proof.Machine.execFifoModeWrite mode s
  | .rplRdWrite v => Sys2Proof.Machine.execRplRdWrite v s
  | .evtRdWrite v => Sys2Proof.Machine.execEvtRdWrite v s
  | .commandTake sel parityBad => Sys2Proof.Machine.execCommandTake sel parityBad s
  | .hyithCommandSend u => Sys2Proof.Machine.execHyithCommandSend u s
  | .creditReceive u blk => Sys2Proof.Machine.execCreditReceive u blk s
  | .registerWrite addr v be => Sys2Proof.Machine.execRegisterWrite addr v be s
  | .nowNsRead => Sys2Proof.Machine.execNowNsRead s
  | .capNsRead c => Sys2Proof.Machine.execCapNsRead c s
  | .digestLoRead r => Sys2Proof.Machine.execDigestLoRead r s
  | .counterLoRead addr => Sys2Proof.Machine.execCounterLoRead addr s
  | .rcRead addr => Sys2Proof.Machine.execRcRead addr s
  | .tsTailWrite p v => Sys2Proof.Machine.execTsTailWrite p v s
  | .segPutDb r v => Sys2Proof.Machine.execSegPutDb r v s
  | .stagingWrite ofs data whole => Sys2Proof.Machine.execStagingWrite ofs data whole s
  | .faultStickyW1c loc v => Sys2Proof.Machine.execFaultStickyW1c loc v s
  | .faultnRelease => Sys2Proof.Machine.execFaultnRelease s
  | .lsoDriveWrite v => Sys2Proof.Machine.execLsoDriveWrite v s
  | .clkoutWrite v => Sys2Proof.Machine.execClkoutWrite v s
  | .returnWrite => Sys2Proof.Machine.execReturnWrite s
  | .wakeWrite => Sys2Proof.Machine.execWakeWrite s
  | .bootGo => Sys2Proof.Machine.execBootGo s
  | .moverSetWrite m ofs v => Sys2Proof.Machine.execMoverSetWrite m ofs v s
  | .moverGo m ctrl => Sys2Proof.Machine.execMoverGo m ctrl s
  | .moverAbort m => Sys2Proof.Machine.execMoverAbort m s
  | .moverClear m => Sys2Proof.Machine.execMoverClear m s
  | .ringCfgWrite d r ofs v => Sys2Proof.Machine.execRingCfgWrite d r ofs v s
  | .crRdWrite d r v => Sys2Proof.Machine.execCrRdWrite d r v s
  | .moverBurstIssue d => Sys2Proof.Machine.execMoverBurstIssue d s
  | .moverBurstComplete m ok data => Sys2Proof.Machine.execMoverBurstComplete m ok data s
  | .moverListFetch m dst ok entry => Sys2Proof.Machine.execMoverListFetch m dst ok entry s
  | .moverRecordWrite m => Sys2Proof.Machine.execMoverRecordWrite m s
  | .moverHandover m => Sys2Proof.Machine.execMoverHandover m s
  | .timeWordSend u => Sys2Proof.Machine.execTimeWordSend u s
  | .timeWordReceive u blk t16 => Sys2Proof.Machine.execTimeWordReceive u blk t16 s
  | .echoReceive u blk => Sys2Proof.Machine.execEchoReceive u blk s
  | .epochReceive u blk => Sys2Proof.Machine.execEpochReceive u blk s
  | .markReceive u blk reedEdges => Sys2Proof.Machine.execMarkReceive u blk reedEdges s
  | .rootReceive u blk => Sys2Proof.Machine.execRootReceive u blk s
  | .offsetSample ext utc => Sys2Proof.Machine.execOffsetSample ext utc s
  | .deferredStepApply => Sys2Proof.Machine.execDeferredStepApply s
  | .holdover => Sys2Proof.Machine.execHoldover s
  | .captureEdge c falling t16 => Sys2Proof.Machine.execCaptureEdge c falling t16 s
  | .pulseEdge u => Sys2Proof.Machine.execPulseEdge u s
  | .lineBaseBoundary n => Sys2Proof.Machine.execLineBaseBoundary n s
  | .snapshotPublish n => Sys2Proof.Machine.execSnapshotPublish n s
  | .digestPublish r n => Sys2Proof.Machine.execDigestPublish r n s
  | .courseBoundary p n => Sys2Proof.Machine.execCourseBoundary p n s
  | .courseBuildStart p f n => Sys2Proof.Machine.execCourseBuildStart p f n s
  | .courseLaunch p f n => Sys2Proof.Machine.execCourseLaunch p f n s
  | .brickReceive p j => Sys2Proof.Machine.execBrickReceive p j s
  | .reflexActionApply => Sys2Proof.Machine.execReflexActionApply s
  | .arrClose p f n => Sys2Proof.Machine.execArrClose p f n s
  | .axisDecisionInstant a n => Sys2Proof.Machine.execAxisDecisionInstant a n s
  | .axisBoundary a n => Sys2Proof.Machine.execAxisBoundary a n s
  | .segmentFetch a ok => Sys2Proof.Machine.execSegmentFetch a ok s
  | .valveEntryBoundary p k n => Sys2Proof.Machine.execValveEntryBoundary p k n s
  | .valveSwapInstant p => Sys2Proof.Machine.execValveSwapInstant p s
  | .valveStopInstant p => Sys2Proof.Machine.execValveStopInstant p s
  | .verifyTimeout p => Sys2Proof.Machine.execVerifyTimeout p s
  | .mpacketReceive p t16 m => Sys2Proof.Machine.execMpacketReceive p t16 m s
  | .frameReceive p t16 bytes symErr => Sys2Proof.Machine.execFrameReceive p t16 bytes symErr s
  | .cutThroughDecision p t16 head => Sys2Proof.Machine.execCutThroughDecision p t16 head s
  | .egressSelect p => Sys2Proof.Machine.execEgressSelect p s
  | .frameTransmitEnd p => Sys2Proof.Machine.execFrameTransmitEnd p s
  | .spillReadback q => Sys2Proof.Machine.execSpillReadback q s
  | .sweepVisit v => Sys2Proof.Machine.execSweepVisit v s
  | .sweepPassEnd d => Sys2Proof.Machine.execSweepPassEnd d s
  | .pauseReceive p => Sys2Proof.Machine.execPauseReceive p s
  | .pfcReceive p => Sys2Proof.Machine.execPfcReceive p s
  | .pauseTimerExpire p c => Sys2Proof.Machine.execPauseTimerExpire p c s
  | .pauseWd p c => Sys2Proof.Machine.execPauseWd p c s
  | .pauseRefresh p c => Sys2Proof.Machine.execPauseRefresh p c s
  | .linkStateChange p up remote => Sys2Proof.Machine.execLinkStateChange p up remote s
  | .inBandControlWord p speed fullDuplex link => Sys2Proof.Machine.execInBandControlWord p speed fullDuplex link s
  | .laneAlignLoss q => Sys2Proof.Machine.execLaneAlignLoss q s
  | .recalDone lane ok => Sys2Proof.Machine.execRecalDone lane ok s
  | .recalRetry lane => Sys2Proof.Machine.execRecalRetry lane s
  | .pcsRestartDone p => Sys2Proof.Machine.execPcsRestartDone p s
  | .ddrAlert d persists => Sys2Proof.Machine.execDdrAlert d persists s
  | .ddrEventn d low => Sys2Proof.Machine.execDdrEventn d low s
  | .faultSourceFire loc src pair standing => Sys2Proof.Machine.execFaultSourceFire loc src pair standing s
  | .faultWindowClose loc src => Sys2Proof.Machine.execFaultWindowClose loc src s
  | .quarantineSquelch p => Sys2Proof.Machine.execQuarantineSquelch p s
  | .reactionRegionReset r => Sys2Proof.Machine.execReactionRegionReset r s
  | .faultnPulseEnd => Sys2Proof.Machine.execFaultnPulseEnd s
  | .resetMaskEnd k => Sys2Proof.Machine.execResetMaskEnd k s
  | .clockTrip clk => Sys2Proof.Machine.execClockTrip clk s
  | .oscWaitEnd => Sys2Proof.Machine.execOscWaitEnd s
  | .pllLock => Sys2Proof.Machine.execPllLock s
  | .pllLockTimeout => Sys2Proof.Machine.execPllLockTimeout s
  | .rampStep => Sys2Proof.Machine.execRampStep s
  | .reedQual q => Sys2Proof.Machine.execReedQual q s
  | .refclkQualified => Sys2Proof.Machine.execRefclkQualified s
  | .meterGateEnd counts => Sys2Proof.Machine.execMeterGateEnd counts s
  | .reedTrimRound edges => Sys2Proof.Machine.execReedTrimRound edges s
  | .por oscDly bootSrc => Sys2Proof.Machine.execPor oscDly bootSrc s
  | .pinReset low oscDly bootSrc => Sys2Proof.Machine.execPinReset low oscDly bootSrc s
  | .perstn low => Sys2Proof.Machine.execPerstn low s
  | .resetBegin k => Sys2Proof.Machine.execResetBegin k s
  | .resetRelease k => Sys2Proof.Machine.execResetRelease k s
  | .controlHandover => Sys2Proof.Machine.execControlHandover s
  | .lockstepRejoin => Sys2Proof.Machine.execLockstepRejoin s
  | .coreMemoryError => Sys2Proof.Machine.execCoreMemoryError s
  | .lockstepMismatch => Sys2Proof.Machine.execLockstepMismatch s
  | .gateHandshakeDone => Sys2Proof.Machine.execGateHandshakeDone s
  | .gateHandshakeTimeout => Sys2Proof.Machine.execGateHandshakeTimeout s
  | .unparkDone k => Sys2Proof.Machine.execUnparkDone k s
  | .bootStart => Sys2Proof.Machine.execBootStart s
  | .imageLoadDone slot0 slot1 => Sys2Proof.Machine.execImageLoadDone slot0 slot1 s
  | .firmwareRunning => Sys2Proof.Machine.execFirmwareRunning s
  | .stageDone bytes => Sys2Proof.Machine.execStageDone bytes s
  | .verifyDone => Sys2Proof.Machine.execVerifyDone s
  | .activationFlip => Sys2Proof.Machine.execActivationFlip s
  | .activationResume => Sys2Proof.Machine.execActivationResume s
  | .firmwareReady => Sys2Proof.Machine.execFirmwareReady s
  | .fallback => Sys2Proof.Machine.execFallback s
  | .leadInEdge t => Sys2Proof.Machine.execLeadInEdge t s
  | .claimDead => Sys2Proof.Machine.execClaimDead s
  | .breathInEdge t => Sys2Proof.Machine.execBreathInEdge t s
  | .breathWordReceive u blk t => Sys2Proof.Machine.execBreathWordReceive u blk t s
  | .lone m => Sys2Proof.Machine.execLone m s
  | .twinFrameReceive u t16 bytes => Sys2Proof.Machine.execTwinFrameReceive u t16 bytes s
  | .twinFrameSend u => Sys2Proof.Machine.execTwinFrameSend u s
  | .brickRecordReceive => Sys2Proof.Machine.execBrickRecordReceive s
  | .directRecordReceive => Sys2Proof.Machine.execDirectRecordReceive s
  | .commandRecordReceive => Sys2Proof.Machine.execCommandRecordReceive s
  | .axsyncRecordReceive => Sys2Proof.Machine.execAxsyncRecordReceive s
  | .digestBlockReceive u blk => Sys2Proof.Machine.execDigestBlockReceive u blk s
  | .digestDeadline n => Sys2Proof.Machine.execDigestDeadline n s
  | .followerArrClose p f n => Sys2Proof.Machine.execFollowerArrClose p f n s
  | .handoverReceive u blk => Sys2Proof.Machine.execHandoverReceive u blk s
  | .handoverBoundary => Sys2Proof.Machine.execHandoverBoundary s
  | .masterTimeout => Sys2Proof.Machine.execMasterTimeout s
  | .traceRecordWrite d => Sys2Proof.Machine.execTraceRecordWrite d s
  | .traceGap d => Sys2Proof.Machine.execTraceGap d s
  | .bellRecordSend => Sys2Proof.Machine.execBellRecordSend s
  | .bellGap => Sys2Proof.Machine.execBellGap s
  | .archiveLatch => Sys2Proof.Machine.execArchiveLatch s
  | .archiveRecordDone => Sys2Proof.Machine.execArchiveRecordDone s
  | .tapInstruction testEn n => Sys2Proof.Machine.execTapInstruction testEn n s
  | .courseHoldStart p f n => Sys2Proof.Machine.execCourseHoldStart p f n s
  | .forwardedCommandCommit => Sys2Proof.Machine.execForwardedCommandCommit s
  | .completerAbortRead bar addr dwords => Sys2Proof.Machine.execCompleterAbortRead bar addr dwords s
  | .functionLevelReset pf1 => Sys2Proof.Machine.execFunctionLevelReset pf1 s
  | .railRestored loc pair => Sys2Proof.Machine.execRailRestored loc pair s

end Sys2Proof.Machine
end

