-- ==== Sys2Proof/Safety.lean ====
section
/-! DEFINITION. The terms in which statements are made: when a command is accepted, what it means that its effect is answered, what a
step may do to the one-time programmable memory, and when an OTP is well formed. -/

namespace Sys2Proof.Machine

/-- The control cores run command op with header h and parameter words w now, no transaction of one command's own awaiting its
instant, and it passes every test that comes before its own checks: steps 5 and 8 to 11 of R285, routing (R275), the holds of R299 and
the stopped targets of R369. -/
structure Accepted (s : State) (op : Nat) (h : CmdHdr) (w : List Word) : Prop where
  cores : coresRun s = true
  noGate : s.power.gate = none
  idle : ownRuns s = false
  room : canTake s h = true
  target : targetAgrees h = true
  here : h.devno = s.sys.devno
  tests : headerTests s h op w = none
  txnOpen : h.txn = true → (findTxn s h h.txid false).isSome = true
  free : busy s h (unitsIn s op h w) = false
  runs : stoppedTarget s op h w = none

/-- A command on its own: accepted, and a member of no transaction. -/
structure Solo (s : State) (op : Nat) (h : CmdHdr) (w : List Word) : Prop where
  acc : Accepted s op h w
  alone : h.txn = false

/-- The transaction that command op formed on its own is due at C, its unit within reach and, where the package forwards it as LEADER, the
FOLLOWER doing its share; u is the state at C, every axis settled up to it (R301, R303, R304). -/
structure OwnDue (s : State) (op : Nat) (h : CmdHdr) (w : List Word) (c : Nat) (u : State) : Prop where
  cores : coresUp s = true
  due : ∃ t m l, (s.txns.find? fun t => t.id == 0) = some t ∧ t.rollback = none ∧ t.commit = some (c, h) ∧ t.members = m :: l ∧
    m.op = op ∧ m.h = h ∧ m.w = w ∧ m.lost = false ∧ m.applied = false
  at_ : u = (partnerDoes (settleAxes (atNs s c) c) (leads (settleAxes (atNs s c) c) op h)).1
  share : (partnerDoes (settleAxes (atNs s c) c) (leads (settleAxes (atNs s c) c) op h)).2 = true
  runs : stoppedTarget u op h w = none

/-- The host reaches the register at BAR0 offset a (R23, R351, R369, R377, R427). -/
def Reached (s : State) (a : Nat) : Prop := busError s (blkOf a) = none ∧ blkPresent s (blkOf a) = true

/-- A good control block of KIND k on uplink u, whose link is up (R271, R272). -/
structure GoodBlock (s : State) (u k : Nat) (blk : List Byte) : Prop where
  on : hyOn s u = true
  len : blk.length = 14
  check : crc16 (blk.take 12) = beAt blk 12 2
  kind : beAt blk 0 1 = k
  defined : 1 ≤ k ∧ k ≤ 9

/-- A twin record of type ty waits, and the twin engine runs in a role other than OFF (R253, R268). -/
structure RecordWaits (s : State) (ty : Nat) (r : TwinRec) (rest : List TwinRec) : Prop where
  first : takeRec ty s.mirror.recQ = some (r, rest)
  runs : twinRuns s = true
  role : s.twin.role ≠ .off

/-- t differs from s in nothing but what reports an event: event registers, counters and masks, their bits of this cycle, the fault
captures that wait, the trace records that wait, the FIFOs' registers and rings, and what has left the package. -/
def OnlyReports (s t : State) : Prop :=
  t = { s with regs := t.regs, fresh := t.fresh, faultPend := t.faultPend, trace := t.trace, fifo := t.fifo, out := t.out }

/-- t differs from s in nothing but what reports an event and the control slots through which replies leave. -/
def OnlyReplies (s t : State) : Prop :=
  t = { s with
    regs := t.regs, fresh := t.fresh, faultPend := t.faultPend, trace := t.trace, fifo := t.fifo, out := t.out
    ports := t.ports, hlinks := t.hlinks }

/-- What a step may do to the OTP: the rollback value only rises (by ROLLBACK_ADVANCE, to at most 127), key revocation bits are
only set. -/
structure OtpStep (a b : Otp) : Prop where
  part : b.part5124 = a.part5124
  rev : b.siliconRev = a.siliconRev
  serial : b.serial = a.serial
  key : b.deviceKey = a.deviceKey
  idValid : b.idValid = a.idValid
  keyHash : b.keyHash = a.keyHash
  keyProg : b.keyProg = a.keyProg
  rise : a.rollback ≤ b.rollback
  top : b.rollback = a.rollback ∨ b.rollback ≤ 127
  revoke : ∃ m, m < 16 ∧ b.keyRevoked = a.keyRevoked ||| m

/-- An outcome that is a next state, with the queue as it was and an OTP that a step may give. -/
def OutSteps (s : State) (o : Out) : Prop := ∃ t, o = .next t ∧ OtpStep s.otp t.otp ∧ t.pending = s.pending

/-- The OTP's fields lie in their ranges: 127 rollback fuses, four keys, each programmed or revoked by a bit (R374). -/
structure OtpOk (o : Otp) : Prop where
  rollback : o.rollback ≤ 127
  prog : o.keyProg < 16
  revoked : o.keyRevoked < 16

end Sys2Proof.Machine
end

