-- ==== Sys2Proof/WellFormed.lean ====
section
/-! DEFINITION. What a command or event may carry: the ranges the spec gives each operand (R2, R12, R182, R282, R426). A command's
own parameter rules are no part of it: the device checks them and answers. -/

namespace Sys2Proof

/-- A drive port 0 to 511 or an uplink as 512 + u (R182). -/
def portNo (p : Nat) : Bool := p < 520

/-- The path a packet came by; a frame carries at most two VLAN tags of 4 bytes (R182). -/
def Path.wf : Path → Bool
  | .pcie => true
  | .mgmt p _ tags => portNo p && tags.length % 4 == 0 && tags.length ≤ 8
  | .hyith u o => u < 8 && o < 262144

/-- The widths of the header fields (R282). -/
def CmdHdr.wf (h : CmdHdr) : Bool :=
  h.path.wf && h.scope < 4 && h.die < 4 && h.region < 8 && h.port < 1024 && h.txid < 256 && h.devno < 262144

/-- A packet holds at most 4,096 words (R282). -/
def cmdWf (h : CmdHdr) (w : List Word) : Bool := h.wf && w.length ≤ 4091

/-- A place that records faults. -/
def FaultLoc.wf : FaultLoc → Bool
  | .port p => portNo p
  | .region r => r < 8
  | .die d => d < 2
  | .package => true

/-- A reset or low-power scope. -/
def ResetKind.wf : ResetKind → Bool
  | .port p => portNo p
  | .region r => r < 8
  | .die d => d < 2
  | _ => true

/-- What the sweep visits. -/
def SweepTarget.wf : SweepTarget → Bool
  | .flow f => f < 1048576
  | .queue q => q < 262144
  | .service p s => portNo p && s < 8
  | .portShaper p => portNo p

/-- A well-formed command or event. -/
def Instr.wf : Instr → Bool
  | .idQuery h w => cmdWf h w
  | .echo h w => cmdWf h w
  | .clockQuery h w => cmdWf h w
  | .reedTrim h w => cmdWf h w
  | .clkoutSet h w => cmdWf h w
  | .parkSet h w => cmdWf h w
  | .resetIssue h w => cmdWf h w
  | .standbyEnter h w => cmdWf h w
  | .portQuery h w => cmdWf h w
  | .portSet h w => cmdWf h w
  | .portSleep h w => cmdWf h w
  | .portWake h w => cmdWf h w
  | .laneSet h w => cmdWf h w
  | .laneRecal h w => cmdWf h w
  | .portCountRead h w => cmdWf h w
  | .portReset h w => cmdWf h w
  | .timeQuery h w => cmdWf h w
  | .timeSourceSet h w => cmdWf h w
  | .timeStepPermit h w => cmdWf h w
  | .timeRateSet h w => cmdWf h w
  | .timeLinkSet h w => cmdWf h w
  | .timePortSet h w => cmdWf h w
  | .pulseSet h w => cmdWf h w
  | .pulseStop h w => cmdWf h w
  | .pinRouteSet h w => cmdWf h w
  | .captureSet h w => cmdWf h w
  | .tsringSet h w => cmdWf h w
  | .valveQuery h w => cmdWf h w
  | .valveSet h w => cmdWf h w
  | .valveWrite h w => cmdWf h w
  | .valveRead h w => cmdWf h w
  | .valveStart h w => cmdWf h w
  | .valveSwap h w => cmdWf h w
  | .valveStop h w => cmdWf h w
  | .preemptSet h w => cmdWf h w
  | .preemptQuery h w => cmdWf h w
  | .courseQuery h w => cmdWf h w
  | .courseSet h w => cmdWf h w
  | .bondWrite h w => cmdWf h w
  | .frameSet h w => cmdWf h w
  | .safeImageWrite h w => cmdWf h w
  | .courseStart h w => cmdWf h w
  | .courseSwap h w => cmdWf h w
  | .courseSafe h w => cmdWf h w
  | .courseResume h w => cmdWf h w
  | .courseStop h w => cmdWf h w
  | .courseLineSet h w => cmdWf h w
  | .axisQuery h w => cmdWf h w
  | .axisSet h w => cmdWf h w
  | .reflexSet h w => cmdWf h w
  | .reflexArm h w => cmdWf h w
  | .axisStart h w => cmdWf h w
  | .axisQstop h w => cmdWf h w
  | .axisOff h w => cmdWf h w
  | .segWrite h w => cmdWf h w
  | .digestQuery h w => cmdWf h w
  | .flowQuery h w => cmdWf h w
  | .flowAdd h w => cmdWf h w
  | .flowWrite h w => cmdWf h w
  | .flowDelete h w => cmdWf h w
  | .flowPortSet h w => cmdWf h w
  | .flowLatentSet h w => cmdWf h w
  | .flowRecovReset h w => cmdWf h w
  | .flowCountRead h w => cmdWf h w
  | .flowTableQuery h w => cmdWf h w
  | .queueQuery h w => cmdWf h w
  | .queueWrite h w => cmdWf h w
  | .queueFlush h w => cmdWf h w
  | .serviceSet h w => cmdWf h w
  | .portShapeSet h w => cmdWf h w
  | .bufferSet h w => cmdWf h w
  | .ingressSet h w => cmdWf h w
  | .bufferQuery h w => cmdWf h w
  | .twinQuery h w => cmdWf h w
  | .twinSet h w => cmdWf h w
  | .twinLead h w => cmdWf h w
  | .twinFollow h w => cmdWf h w
  | .twinHandover h w => cmdWf h w
  | .twinSync h w => cmdWf h w
  | .twinOff h w => cmdWf h w
  | .faultQuery h w => cmdWf h w
  | .faultSet h w => cmdWf h w
  | .faultClear h w => cmdWf h w
  | .faultnSet h w => cmdWf h w
  | .lsoSet h w => cmdWf h w
  | .secQuery h w => cmdWf h w
  | .imageStage h w => cmdWf h w
  | .imageVerify h w => cmdWf h w
  | .imageActivate h w => cmdWf h w
  | .attest h w => cmdWf h w
  | .rollbackAdvance h w => cmdWf h w
  | .traceSet h w => cmdWf h w
  | .traceQuery h w => cmdWf h w
  | .archiveSet h w => cmdWf h w
  | .archiveQuery h w => cmdWf h w
  | .sysQuery h w => cmdWf h w
  | .sysSet h w => cmdWf h w
  | .sysRouteSet h w => cmdWf h w
  | .sysRootReturn h w => cmdWf h w
  | .hyithQuery h w => cmdWf h w
  | .txnOpen h w => cmdWf h w
  | .txnCommit h w => cmdWf h w
  | .txnAbort h w => cmdWf h w
  | .txnQuery h w => cmdWf h w
  | .txnCommitApply txid => txid < 256
  | .txnRollback txid => 1 ≤ txid && txid < 256
  | .txnExpired txid => 1 ≤ txid && txid < 256
  | .cmdFifoWrite ofs _ _ _ => ofs < 0x100000
  | .cmdFifoWriteMode1 ofs _ _ => ofs < 0x100000
  | .cmdAbort => true
  | .fifoModeWrite _ => true
  | .rplRdWrite _ => true
  | .evtRdWrite _ => true
  | .commandTake _ _ => true
  | .hyithCommandSend u => u < 8
  | .creditReceive u blk => u < 8 && blk.length == 14
  | .registerWrite addr _ _ => addr < 0x4000000
  | .nowNsRead => true
  | .capNsRead c => c < 4
  | .digestLoRead r => r < 8
  | .counterLoRead addr => addr < 0x4000000 && addr % 4 == 0
  | .rcRead addr => addr < 0x4000000 && addr % 4 == 0
  | .tsTailWrite p _ => portNo p
  | .segPutDb r _ => r < 8
  | .stagingWrite ofs _ _ => ofs < 0x800000
  | .faultStickyW1c loc _ => loc.wf
  | .faultnRelease => true
  | .lsoDriveWrite _ => true
  | .clkoutWrite _ => true
  | .returnWrite => true
  | .wakeWrite => true
  | .bootGo => true
  | .moverSetWrite m ofs _ => m < 64 && ofs % 4 == 0 && ofs ≤ 0x18
  | .moverGo m _ => m < 64
  | .moverAbort m => m < 64
  | .moverClear m => m < 64
  | .ringCfgWrite d r ofs _ => d < 2 && r < 4 && (ofs == 0 || ofs == 4 || ofs == 8)
  | .crRdWrite d r _ => d < 2 && r < 4
  | .moverBurstIssue d => d < 2
  | .moverBurstComplete m _ _ => m < 64
  | .moverListFetch m _ _ entry => m < 64 && entry.length == 4
  | .moverRecordWrite m => m < 64
  | .moverHandover m => m < 64
  | .timeWordSend u => u < 8
  | .timeWordReceive u blk _ => u < 8 && blk.length == 14
  | .echoReceive u blk => u < 8 && blk.length == 14
  | .epochReceive u blk => u < 8 && blk.length == 14
  | .markReceive u blk _ => u < 8 && blk.length == 14
  | .rootReceive u blk => u < 8 && blk.length == 14
  | .offsetSample _ _ => true
  | .deferredStepApply => true
  | .holdover => true
  | .captureEdge c _ _ => c < 4
  | .pulseEdge u => u < 32
  | .lineBaseBoundary _ => true
  | .snapshotPublish _ => true
  | .digestPublish r _ => r < 8
  | .courseBoundary p _ => p < 512
  | .courseBuildStart p f _ => p < 512 && f < 4
  | .courseLaunch p f _ => p < 512 && f < 4
  | .brickReceive p j => p < 512 && j < 256
  | .reflexActionApply => true
  | .arrClose p f _ => p < 512 && f < 4
  | .axisDecisionInstant a _ => a < 16384
  | .axisBoundary a _ => a < 16384
  | .segmentFetch a _ => a < 16384
  | .valveEntryBoundary p _ i => portNo p && i < 4096
  | .valveSwapInstant p => portNo p
  | .valveStopInstant p => portNo p
  | .verifyTimeout p => portNo p
  | .mpacketReceive p _ _ => portNo p
  | .frameReceive p _ _ _ => portNo p
  | .cutThroughDecision p _ _ => portNo p
  | .egressSelect p => portNo p
  | .frameTransmitEnd p => portNo p
  | .spillReadback q => q < 262144
  | .sweepVisit v => v.wf
  | .sweepPassEnd d => d < 2
  | .pauseReceive p => portNo p
  | .pfcReceive p => portNo p
  | .pauseTimerExpire p c => portNo p && c < 8
  | .pauseWd p c => portNo p && c < 8
  | .pauseRefresh p c => portNo p && c < 8
  | .linkStateChange p _ _ => portNo p
  | .inBandControlWord p speed _ _ => portNo p && speed ≤ 3
  | .laneAlignLoss q => q < 136
  | .recalDone lane _ => lane < 136
  | .recalRetry lane => lane < 136
  | .pcsRestartDone p => portNo p
  | .ddrAlert d _ => d < 2
  | .ddrEventn d _ => d < 2
  | .faultSourceFire loc src pair _ => loc.wf && src < 17 && pair < 7
  | .faultWindowClose loc src => loc.wf && src < 17
  | .quarantineSquelch p => p < 512
  | .reactionRegionReset r => r < 8
  | .faultnPulseEnd => true
  | .resetMaskEnd k => k.wf
  | .clockTrip clk => clk < 10
  | .oscWaitEnd => true
  | .pllLock => true
  | .pllLockTimeout => true
  | .rampStep => true
  | .reedQual _ => true
  | .refclkQualified => true
  | .meterGateEnd counts => counts.length == 1 || counts.length == 7 || counts.length == 8
  | .reedTrimRound _ => true
  | .por _ _ => true
  | .pinReset _ _ _ => true
  | .perstn _ => true
  | .resetBegin k => k.wf
  | .resetRelease k => k.wf
  | .controlHandover => true
  | .lockstepRejoin => true
  | .coreMemoryError => true
  | .lockstepMismatch => true
  | .gateHandshakeDone => true
  | .gateHandshakeTimeout => true
  | .unparkDone k => k.wf
  | .bootStart => true
  | .imageLoadDone _ _ => true
  | .firmwareRunning => true
  | .stageDone _ => true
  | .verifyDone => true
  | .activationFlip => true
  | .activationResume => true
  | .firmwareReady => true
  | .fallback => true
  | .leadInEdge _ => true
  | .claimDead => true
  | .breathInEdge _ => true
  | .breathWordReceive u blk _ => u < 8 && blk.length == 14
  | .lone _ => true
  | .twinFrameReceive u _ _ => u < 8
  | .twinFrameSend u => u < 8
  | .brickRecordReceive => true
  | .directRecordReceive => true
  | .commandRecordReceive => true
  | .axsyncRecordReceive => true
  | .digestBlockReceive u blk => u < 8 && blk.length == 14
  | .digestDeadline _ => true
  | .followerArrClose p f _ => p < 512 && f < 4
  | .handoverReceive u blk => u < 8 && blk.length == 14
  | .handoverBoundary => true
  | .masterTimeout => true
  | .traceRecordWrite d => d < 2
  | .traceGap d => d < 2
  | .bellRecordSend => true
  | .bellGap => true
  | .archiveLatch => true
  | .archiveRecordDone => true
  | .tapInstruction _ _ => true
  | .courseHoldStart p f _ => p < 512 && f < 4
  | .forwardedCommandCommit => true
  | .completerAbortRead bar _ _ => (bar == 0 || bar == 2 || bar == 4)
  | .functionLevelReset _ => true
  | .railRestored loc pair => loc.wf && pair < 7

end Sys2Proof
end

