-- ==== Sys2Proof/Certificates/Slice0/Obligations.lean ====
section
/-! DEFINITION. The statements for the provers: what each command does where it completes, what it leaves unchanged, and what holds of
every step. Each docstring names the rules of spec/ it rests on. -/

open Sys2Proof Sys2Proof.Machine

/-! ### Identity, clocks and power -/

/-- ID_QUERY, ECHO and CLOCK_QUERY answer with the words their rules name, and change nothing else (R306, R371). CLKOUT_SET and the
write of CLKOUT select the output where no reserved source is named and the output stays within 125 MHz (R363); another selection
is refused by the command, its word named, and ignored by the register. REED_TRIM starts a trim against REFCLK, or against the
marks of a live time source link, and answers the code it starts from; it is refused while one runs, the clock it needs is absent
or the part lacks the link's port (R2, R355). -/
def Obligations.ClockCommandsTakeEffect : Prop :=
  (∀ h w s, Accepted s 0x0101 h w →
    exec (.idQuery h w) s = .next (deliver s h 0x0101 (.ok
      [wd (partNumber s + 65536 * nDies s + 2 ^ 20 * (s.otp.siliconRev % 256)), wd (imgVersion s.sec.image),
       wd (slotVersion s (1 - s.sec.activeSlot)), wd s.sys.devno, wd (bits s.otp.serial 31 0), wd (bits s.otp.serial 63 32),
       wd (bits s.otp.serial 95 64), wd (bits s.otp.serial 127 96)]))) ∧
  (∀ h w s, Accepted s 0x0102 h w → exec (.echo h w) s = .next (deliver s h 0x0102 (.ok w))) ∧
  (∀ h w s, Accepted s 0x0201 h w →
    exec (.clockQuery h w) s = .next (deliver s h 0x0201 (.ok
      ([wd (clockReg s 0), wd s.clock.tripped, wd (uns 12 s.clock.trim), wd (uns 16 s.clock.resid)] ++ s.clock.meters.map wd)))) ∧
  (∀ h w s, Accepted s 0x0203 h w → fld w 0 31 16 = 0 →
    bits (prm w 0) 3 0 ≤ 10 → clkKhz (bits (prm w 0) 3 0) ≤ 125000 * (bits (prm w 0) 15 4 + 1) →
    exec (.clkoutSet h w) s =
      .next (deliver { s with clock := { s.clock with clkout := w.getD 0 0 } } h 0x0203 .ok)) ∧
  (∀ h w s, Accepted s 0x0203 h w →
    (fld w 0 31 16 ≠ 0 ∨ 10 < bits (prm w 0) 3 0 ∨ 125000 * (bits (prm w 0) 15 4 + 1) < clkKhz (bits (prm w 0) 3 0)) →
    exec (.clkoutSet h w) s = .next (deliver s h 0x0203 (.err stInvalid 1))) ∧
  (∀ v s, Reached s 0x10020 → bits v.toNat 3 0 ≤ 10 → clkKhz (bits v.toNat 3 0) ≤ 125000 * (bits v.toNat 15 4 + 1) →
    exec (.clkoutWrite v) s = .next { s with clock := { s.clock with clkout := v &&& 0xFFFF#32 } }) ∧
  (∀ v s, Reached s 0x10020 → 125000 * (bits v.toNat 15 4 + 1) < clkKhz (bits v.toNat 3 0) →
    exec (.clkoutWrite v) s = .next s) ∧
  (∀ h w s, Accepted s 0x0202 h w → fld w 0 31 11 = 0 → bit (prm w 0) 0 = false → s.trimRun = none → s.clock.refOk = true →
    exec (.reedTrim h w) s =
      .next (deliver { s with trimRun := some { port := none } } h 0x0202 (.ok [wd (uns 12 s.clock.trim)]))) ∧
  (∀ h w s, Accepted s 0x0202 h w → fld w 0 31 11 = 0 → bit (prm w 0) 0 = true → 512 ≤ fld w 0 10 1 → fld w 0 10 1 < 520 →
    hasPort s (fld w 0 10 1) = true → hyOn s (fld w 0 10 1 - 512) = true → [1, 3, 4].contains (lrole s (fld w 0 10 1 - 512)) = true → s.trimRun = none →
    exec (.reedTrim h w) s =
      .next (deliver { s with trimRun := some { port := some (fld w 0 10 1 - 512) } } h 0x0202 (.ok [wd (uns 12 s.clock.trim)]))) ∧
  (∀ h w s, Accepted s 0x0202 h w → fld w 0 31 11 = 0 → bit (prm w 0) 0 = false → s.trimRun.isSome ∨ s.clock.refOk = false →
    exec (.reedTrim h w) s = .next (deliver s h 0x0202 (.err stWrongState))) ∧
  (∀ h w s, Accepted s 0x0202 h w → fld w 0 31 11 = 0 → bit (prm w 0) 0 = true → fld w 0 10 1 < 520 → hasPort s (fld w 0 10 1) = false →
    exec (.reedTrim h w) s = .next (deliver s h 0x0202 (.err stAbsent 1)))

/-- PARK_SET and STANDBY_ENTER of a scope at rest open the gate handshake of 64 CTRL cycles, their reply waiting for its end;
PARK_SET of a parked scope starts its way back: 12 us for a region, 28 us for a die (R368, R370). RESET_ISSUE schedules its reset
at the first line base cycle boundary at or after the reply + 100 us; a DIE reset of the die whose pair executes commands, with the
other pair out of lockstep, is refused (R28, R364). -/
def Obligations.ParkAndResetCommandsTakeEffect : Prop :=
  (∀ h w s, Accepted s 0x0204 h w → prm w 0 = 1 → h.scope = 2 → heldByReset s (.region h.region) = false →
    (s.power.leaving.any fun e => e.1 == .region h.region) = false → regionState s h.region ≠ 1 →
    lowBarred s (.region h.region) = none →
    exec (.parkSet h w) s =
      .next { s with power := { s.power with gate := some (.region h.region, nowNs s + 320, h) } }) ∧
  (∀ h w s, Accepted s 0x0204 h w → prm w 0 = 0 → h.scope = 2 → heldByReset s (.region h.region) = false →
    (s.power.leaving.any fun e => e.1 == .region h.region) = false → regionState s h.region = 1 →
    exec (.parkSet h w) s = .next (deliver
      { s with power := { s.power with leaving := s.power.leaving ++ [(.region h.region, nowNs s + 12000)] } } h 0x0204 .ok)) ∧
  (∀ h w s y, Accepted s 0x0204 h w → prm w 0 = 1 → h.scope = 2 → heldByReset s (.region h.region) = false →
    (s.power.leaving.any fun e => e.1 == .region h.region) = false → regionState s h.region ≠ 1 →
    lowBarred s (.region h.region) = some y →
    exec (.parkSet h w) s = .next (deliver (parkRefused s h.region y 0x3FF) h 0x0204 (.err stRefused))) ∧
  (∀ h w s, Accepted s 0x0206 h w → prm w 0 = 1 → s.twin.role = .off → lowBarred s .standby = none →
    exec (.standbyEnter h w) s = .next { s with power := { s.power with gate := some (.standby, nowNs s + 320, h) } }) ∧
  (∀ h w s, Accepted s 0x0205 h w → prm w 0 = 1 → h.scope = 2 →
    exec (.resetIssue h w) s = .next (deliver { s with power := { s.power with
      resetAt := s.power.resetAt ++ [(.region h.region, nextLine s (nowNs s + 100000))] } } h 0x0205 .ok)) ∧
  (∀ h w s, Accepted s 0x0205 h w → prm w 0 = 1 → h.scope = 0 →
    exec (.resetIssue h w) s = .next (deliver { s with power := { s.power with
      resetAt := s.power.resetAt ++ [(.pkg, nextLine s (nowNs s + 100000))] } } h 0x0205 .ok)) ∧
  (∀ h w s, Accepted s 0x0205 h w → prm w 0 = 1 → h.scope = 1 → s.otp.part5124 = true → h.die ≠ b2n s.power.active1 →
    exec (.resetIssue h w) s = .next (deliver { s with power := { s.power with
      resetAt := s.power.resetAt ++ [(.die h.die, nextLine s (nowNs s + 100000))] } } h 0x0205 .ok)) ∧
  (∀ h w s, Accepted s 0x0205 h w → prm w 0 = 1 → h.scope = 1 → s.otp.part5124 = true → h.die = b2n s.power.active1 →
    s.power.lockstep = false →
    exec (.resetIssue h w) s = .next (deliver (parkRefused s (8 + h.die) 5 0x3FF) h 0x0205 (.err stWrongState)))

/-- The clock state machine (R359, R360): the window of OSC_WAIT ends in LOCK on a good REFCLK, on the reed where REFCLK is
missing, or in CLOCK_WAIT without a qualified reed; lock within its 200 us starts the divider ramp at 64; each step, 2 us apart,
halves it; at its last step the domains run. A loss of PLL lock in RUN makes the outputs safe and returns to LOCK on the same
reference. RETURN moves the PLL back to REFCLK. Each happens at its instant of line time (timerEnd, clock.due: the model's choice,
log entry 153). A meter gate stores the counts of the meters it serves and its number; a count within its window closes the count
of gates outside it. A round of a trim against REFCLK measures the residual in ppm; within 12.5 ppm the trim ends (R355, R358,
R362). -/
def Obligations.ClockEventsTakePlace : Prop :=
  (∀ s, s.clock.state = .oscWait → s.clock.reedQual = true → s.clock.refOk = true →
    exec .oscWaitEnd s = .next (standClock (enterLock (timerEnd s) false false))) ∧
  (∀ s, s.clock.state = .oscWait → s.clock.reedQual = true → s.clock.refOk = false →
    exec .oscWaitEnd s = .next (clockLoss (enterLock (timerEnd s) true false))) ∧
  (∀ s, s.clock.state = .oscWait → s.clock.reedQual = false →
    exec .oscWaitEnd s = .next (assertFaultn (clockLoss
      { s with clock := { s.clock with state := .clockWait, pllLock := false } }))) ∧
  (∀ s, s.clock.state = .lock → nowNs s ≤ s.clock.due →
    exec .pllLock s = .next { s with clock := { s.clock with
      state := .ramp, pllLock := true, rampDiv := 64, due := nowNs s + 2000 } }) ∧
  (∀ s, s.clock.state = .lock → s.clock.triedOther = false → s.clock.refReed = false → s.clock.reedQual = true →
    exec .pllLockTimeout s = .next (enterLock (timerEnd s) true true)) ∧
  (∀ s, s.clock.state = .ramp → 2 < s.clock.rampDiv →
    exec .rampStep s = .next { timerEnd s with clock := { s.clock with
      rampDiv := s.clock.rampDiv / 2, due := s.clock.due + 2000 } }) ∧
  (∀ s, s.clock.state = .ramp → s.clock.rampDiv ≤ 2 →
    exec .rampStep s = .next (
      let u := { timerEnd s with clock := { s.clock with state := .run, rampDiv := 1, fromTrip := false, triedOther := false } }
      settleFaults (if clockBad u.clock then clockLoss u else standClock u))) ∧
  (∀ s, s.clock.state ≠ .off → s.clock.reedQual = true →
    exec .refclkQualified s = .next { s with clock := { s.clock with refOk := true } }) ∧
  (∀ s, s.clock.reedQual = false → s.clock.fromTrip = false →
    exec (.reedQual true) s = .next { s with clock := { s.clock with reedQual := true, reedStop := false } }) ∧
  (∀ s, s.clock.reedQual = true → exec (.reedQual false) s = .next (tripClock s 9)) ∧
  (∀ s, s.clock.state = .run →
    exec (.clockTrip 4) s = .next (
      let u := clockLossSafe (tripBit { s with clock := { s.clock with pllLock := false } } 4)
      refreshClock (enterLock { u with clock := { u.clock with fromTrip := true } } s.clock.refReed false))) ∧
  (∀ s, Reached s 0x10010 → s.clock.state = .lock ∨ s.clock.state = .ramp ∨ s.clock.state = .run →
    s.clock.refReed = true → s.clock.refOk = true → s.ports.all (fun e => e.2.course.state == 0) = true →
    exec .returnWrite s = .next (standClock (enterLock (dropTx s) false false))) ∧
  (∀ s, Reached s 0x10010 → s.clock.refReed = false → exec .returnWrite s = .next (raise s 0x10004 16)) ∧
  (∀ c s, exec (.meterGateEnd c) s = .next (
    let g := (gateMeters c.length).zip c
    let m := (List.range 8).map fun i => match g.find? (·.1 == i) with | some e => e.2 % 2 ^ 32 | none => s.clock.meters.getD i 0
    let u := { s with clock := { s.clock with meters := m, meterSeq := (s.clock.meterSeq + 1) % 2 ^ 32 } }
    let v := g.foldl (fun s e => meterTest s e.1 (e.2 % 2 ^ 32)) u
    settleFaults (if g.any (·.1 == 3) then sdsBack (pciTest v (m.getD 3 0)) (m.getD 2 0) else v))) ∧
  (∀ e s z, s.trimRun = some z → z.port = none →
    exec (.reedTrimRound e) s = .next (trimRound s (((e : Int) - 2 ^ 20) * 1000000) (2 ^ 20))) ∧
  (∀ s z x y, s.trimRun = some z → 0 < y → 2 * x.natAbs ≤ 25 * y.natAbs → (trimRound s x y).trimRun = none) ∧
  (∀ e s, s.trimRun = none → exec (.reedTrimRound e) s = .next s)

/-! ### Low power, resets and the two control-core pairs -/

/-- The gate handshake ends within 64 CTRL cycles with the reply, the error response of every access held and the state entered,
or, without an end by then, with a refusal that leaves the scope running and lets those accesses in (R367 to R370). A write of the
host to the scope that arrives meanwhile is held; so is a read. The way out of PARK, DIE-PARK and STANDBY (R370, R373): WAKE starts
STANDBY's; at its end the scope runs, UNPARK_DONE is raised with the scope as target, and the scope's lanes recalibrate. -/
def Obligations.GateAndLowPowerEventsTakePlace : Prop :=
  (∀ s r t h, s.power.gate = some (.region r, t, h) → nowNs s ≤ t →
    exec .gateHandshakeDone s = .next (enterLow (.region r) (s.power.heldAcc.foldl (refuseAcc (.region r))
      (deliver { s with power := { s.power with gate := none, heldAcc := [] } } h 0x0204 .ok)))) ∧
  (∀ s d t h, s.power.gate = some (.die d, t, h) → nowNs s ≤ t → d ≠ b2n s.power.active1 →
    exec .gateHandshakeDone s = .next (enterLow (.die d) (s.power.heldAcc.foldl (refuseAcc (.die d))
      (deliver { s with power := { s.power with gate := none, heldAcc := [] } } h 0x0204 .ok)))) ∧
  (∀ s t h, s.power.gate = some (.standby, t, h) → nowNs s ≤ t →
    exec .gateHandshakeDone s = .next (enterLow .standby (s.power.heldAcc.foldl (refuseAcc .standby)
      (deliver { s with power := { s.power with gate := none, heldAcc := [] } } h 0x0206 .ok)))) ∧
  (∀ s r t h, s.power.gate = some (.region r, t, h) →
    exec .gateHandshakeTimeout s = .next (releaseHeld (deliver
      (powerEvent (count (atNs { s with power := { s.power with gate := none } } t) 0x2001C 1) r 1 3) h 0x0204 (.err stRefused)))) ∧
  (∀ s r t h a v b, s.power.gate = some (.region r, t, h) → s.pcie.up = true → (blkOf a).regionOf = some r →
    hasRegion s r = true → regionState s r = 0 →
    exec (.registerWrite a v b) s =
      .next { s with power := { s.power with heldAcc := s.power.heldAcc ++ [.write a v b] } }) ∧
  (∀ s r t h a, s.power.gate = some (.region r, t, h) → s.pcie.up = true → (blkOf a).regionOf = some r →
    hasRegion s r = true → regionState s r = 0 →
    exec (.counterLoRead a) s = .next { s with power := { s.power with heldAcc := s.power.heldAcc ++ [.readLo a] } }) ∧
  (∀ s, Reached s 0x20020 → s.power.held = some .standby → s.power.leaving = [] →
    exec .wakeWrite s = .next { s with power := { s.power with leaving := [(.standby, nowNs s + 28000)] } }) ∧
  (∀ s r t, s.power.leaving = [(.region r, t)] →
    exec (.unparkDone (.region r)) s = .next (powerEvent (regionsAgain (wakeLanes (.region r)
      (setRegion { atNs s t with power := { s.power with leaving := [] } } r 0))) r 0 16)) ∧
  (∀ s d t, s.power.leaving = [(.die d, t)] →
    exec (.unparkDone (.die d)) s = .next (powerEvent (regionsAgain (wakeLanes (.die d)
      (pairReturns (dieWakes (setScope (.die d) 0 { atNs s t with power := { s.power with leaving := [] } }) d) d))) (8 + d) 0 16))

/-- A reset issued begins at its instant, lets in the accesses of a gate handshake it ends, holds its scope for its kind's time,
and its release lets the scope run again (R364 to R366); a DIE reset of the die that executes commands first hands them over (R28).
R364: the reset pins and power. POR leaves OTP, the queue and what stands outside the package, and starts the clocks at OSC_WAIT
with the straps sampled; RSTn low holds a PIN reset, and its rise starts the 10 us count; PERSTn resets the endpoint; a function
level reset the function. -/
def Obligations.ResetsTakePlace : Prop :=
  (∀ s r t, s.power.resetAt = [(.region r, t)] →
    exec (.resetBegin (.region r)) s =
      .next (releaseHeld (beginReset (.region r) { atNs s t with power := { s.power with resetAt := [] } }))) ∧
  (∀ s t, s.power.resetAt = [(.die 0, t)] → s.otp.part5124 = true → s.power.active1 = false →
    exec (.resetBegin (.die 0)) s = .next (
      let u := { atNs s t with power := { s.power with resetAt := [] } }
      releaseHeld { u with power := { u.power with handover := some (nextLine u (nowNs u + 1), some (0, false)) } })) ∧
  (∀ s r t, s.power.ends = [(.region r, some t)] →
    exec (.resetRelease (.region r)) s = .next (regionsAgain (wakeLanes (.region r) (setRegion
      (endMask { atNs s t with power := { s.power with ends := [] } } (.region r)) r 0)))) ∧
  (∀ s t, s.power.ends = [(.pkg, some t)] →
    exec (.resetRelease .pkg) s = .next (
      let u := regionsAgain (wakeLanes .pkg (setScope .pkg 0 (endMask { atNs s t with power := { s.power with ends := [] } } .pkg)))
      { u with power := { u.power with held := none } })) ∧
  (∀ h w s, Accepted s 0x0308 h w → (courseOf s h.port).state = 0 →
    exec (.portReset h w) s = .next (deliver (beginReset (.port h.port) s) h 0x0308 .ok)) ∧
  (∀ h w s, Accepted s 0x0308 h w → (courseOf s h.port).state ≠ 0 →
    exec (.portReset h w) s = .next (deliver s h 0x0308 (.err stWrongState))) ∧
  (∀ s k e b, s.power.ends = [(k, e)] → absorbs k b = true → beginReset b s = s) ∧
  (∀ o b s, ∃ t, exec (.por o b) s = .next t ∧ t.otp = s.otp ∧ t.pending = s.pending ∧ t.clock.state = .oscWait ∧
    t.clock.oscDly = o.toNat ∧ t.sec.bootSrc = b.toNat ∧ t.sec.bootState = 0 ∧ t.power.rstCause = 0 ∧ t.ddr = [] ∧ t.regs = [] ∧
    t.ports = [] ∧ t.axes = [] ∧ t.time = {}) ∧
  (∀ o b s, s.power.ends = [] →
    exec (.pinReset true o b) s = .next (
      let u := beginReset .pin { s with pins := { s.pins with rstn := false }, power := { s.power with pinHeld := true } }
      { u with pcie := { u.pcie with up := false, flr0 := u.pcie.flr0 + 1, flr1 := u.pcie.flr1 + 1 } })) ∧
  (∀ o b s, s.power.pinHeld = true → s.clock.state = .run → s.power.ends = [(.pin, none)] →
    exec (.pinReset false o b) s = .next { s with
      pins := { s.pins with rstn := true }
      tap := {}
      clock := { s.clock with oscDly := o.toNat }
      sec := { s.sec with bootSrc := b.toNat }
      power := { s.power with ends := [(.pin, some (nowNs s + 10000))] } }) ∧
  (∀ s, inFilling s.fifo = false →
    exec (.perstn true) s = .next { s with
      pins := { s.pins with perstn := false }
      pcie := { s.pcie with up := false, flr0 := s.pcie.flr0 + 1, flr1 := s.pcie.flr1 + 1 } }) ∧
  (∀ s, s.power.pinHeld = false → s.sec.bootState ≠ 0 → s.clock.pciOk = true →
    exec (.perstn false) s = .next { s with pins := { s.pins with perstn := true }, pcie := { s.pcie with up := true } }) ∧
  (∀ s, exec (.functionLevelReset false) s = .next { s with pcie := { s.pcie with flr0 := s.pcie.flr0 + 1 } }) ∧
  (∀ s, exec (.functionLevelReset true) s = .next { s with pcie := { s.pcie with flr1 := s.pcie.flr1 + 1 } })

/-- The two control-core pairs (R28, R373, R388): a hand-over passes command execution at its boundary, and what waited for it
begins, accesses that a gate held entering if it has ended; a memory error of the die 0 pair has the die 1 pair take over at the next boundary; a lockstep mismatch never
does; a pair that returned is in lockstep again. -/
def Obligations.ControlPassesBetweenThePairs : Prop :=
  (∀ s t, s.power.handover = some (t, none) →
    exec .controlHandover s =
      .next (releaseHeld { atNs s t with power := { s.power with handover := none, active1 := !s.power.active1 } })) ∧
  (∀ s t d, s.power.handover = some (t, some (d, false)) →
    exec .controlHandover s = .next (releaseHeld (beginReset (.die d)
      { atNs s t with power := { s.power with handover := none, active1 := !s.power.active1 } }))) ∧
  (∀ s t d, s.power.handover = some (t, some (d, true)) →
    exec .controlHandover s = .next (releaseHeld (enterLow (.die d)
      { atNs s t with power := { s.power with handover := none, active1 := !s.power.active1 } }))) ∧
  (∀ s, s.otp.part5124 = true → s.power.memError = false → s.power.active1 = false → s.power.handover = none →
    exec .coreMemoryError s = .next (
      let u := setLockstep { s with power := { s.power with memError := true, rejoin := false } } false
      { u with power := { u.power with handover := some (nextLine u (nowNs u + 1), none) } })) ∧
  (∀ s, s.otp.part5124 = true → exec .lockstepMismatch s = .next (setLockstep s false)) ∧
  (∀ s, s.otp.part5124 = false → exec .lockstepMismatch s = .next s) ∧
  (∀ s, s.power.rejoin = true → (List.range (nDies s)).all (dieRuns s) = true → s.power.memError = false →
    s.power.active1 = false →
    exec .lockstepRejoin s = .next (setLockstep { s with power := { s.power with rejoin := false } } true))

/-! ### Drive ports, uplinks, lanes and DDR4 channels -/

/-- PORT_QUERY answers registers 0x000 to 0x038; PORT_COUNT_READ answers N consecutive registers and, with CLEAR, zeroes the
counters among them; neither changes anything else (R237, R248). PORT_SET writes the words its mask names, live fields at once
(putSettings: frames that have begun to arrive keep the old ones, and a class made exempt is no longer paused); a change of MODE,
SPEED, FEC or ADMIN takes the link down and restarts it, and is refused while the port's course is not OFF; PCS_RESTART_DONE ends
the restart (R239, R245). PORT_SLEEP of a port whose course is OFF discards what it holds and stops its valve; SLEEP is entered at
once where no frame is in transmission and none is cut, else once that is finished: the link goes down, the port is cleared and a
lane whose ports all sleep powers off. Another port is refused with reason 2. PORT_WAKE wakes it, its lane recalibrating first
where it was powered off (R244, R373). -/
def Obligations.PortCommandsTakeEffect : Prop :=
  (∀ h w s, Accepted s 0x0301 h w →
    exec (.portQuery h w) s = .next (deliver s h 0x0301 (.ok ((List.range 15).map fun i => wd (portReg s h.port (4 * i)))))) ∧
  (∀ h w s, Accepted s 0x0307 h w → prm w 0 = 0 → prm w 1 % 4 = 0 → 1 ≤ prm w 2 → prm w 2 ≤ 128 →
    prm w 1 + 4 * prm w 2 ≤ 0x1000 →
    exec (.portCountRead h w) s = .next (deliver s h 0x0307 (.ok
      ((List.range (prm w 2)).map fun i => wd (portReg s h.port (prm w 1 + 4 * i)))))) ∧
  (∀ h w s, Accepted s 0x0307 h w → prm w 0 = 1 → prm w 1 = 0x108 → prm w 2 = 1 →
    exec (.portCountRead h w) s = .next (deliver (setReg s (portBase h.port + 0x108) 0) h 0x0307
      (.ok [wd (reg s (portBase h.port + 0x108))]))) ∧
  (∀ h w s, Accepted s 0x0302 h w → portSetBad h.port w (portSetNew h.port w (port s h.port).set) = none →
    ((portSetNew h.port w (port s h.port).set).w0.toNat ^^^ (port s h.port).set.w0.toNat) &&& 0x23F = 0 →
    exec (.portSet h w) s = .next (deliver
      (putSettings s h.port (portSetNew h.port w (port s h.port).set)) h 0x0302 .ok)) ∧
  (∀ p n s, (port (putSettings s p n) p).set = n ∧ (port (putSettings s p n) p).oldSets.head? = some (now16 s, (port s p).set)) ∧
  (∀ h w s, Accepted s 0x0302 h w → portSetBad h.port w (portSetNew h.port w (port s h.port).set) = none →
    ((portSetNew h.port w (port s h.port).set).w0.toNat ^^^ (port s h.port).set.w0.toNat) &&& 0x23F ≠ 0 →
    (courseOf s h.port).state = 0 → isTimeUplink s h.port = false →
    exec (.portSet h w) s = .next (deliver
      (modPort (setLink (putSettings s h.port (portSetNew h.port w (port s h.port).set)) h.port false 0) h.port
        fun x => { x with link := { x.link with restart := true, phySpeed := none, phyUp := false } }) h 0x0302 .ok)) ∧
  (∀ h w s, Accepted s 0x0302 h w → portSetBad h.port w (portSetNew h.port w (port s h.port).set) = none →
    ((portSetNew h.port w (port s h.port).set).w0.toNat ^^^ (port s h.port).set.w0.toNat) &&& 0x23F ≠ 0 →
    (courseOf s h.port).state ≠ 0 →
    exec (.portSet h w) s = .next (deliver s h 0x0302 (.err stWrongState))) ∧
  (∀ h w s d, Accepted s 0x0302 h w → portSetBad h.port w (portSetNew h.port w (port s h.port).set) = some d →
    exec (.portSet h w) s = .next (deliver s h 0x0302 (.err stInvalid d))) ∧
  (∀ p s, hasPort s p = true → exec (.pcsRestartDone p) s = .next (modPort s p fun x => { x with link := { x.link with restart := false } })) ∧
  (∀ h w s, Accepted s 0x0303 h w → (courseOf s h.port).state = 0 → (port s h.port).link.sleeping = false →
    exec (.portSleep h w) s = .next (
      let u := modPort ((queuesOf s h.port).foldl discardQueue s) h.port fun x =>
        { x with link := { x.link with sleeping := true }, valve := {}, txd := { x.txd with ctl := [], mac := none } }
      deliver (sleepDown (sleepEnd (gateMove (holdNow s h.port) (gatesNow s h.port) u h.port) h.port) h.port) h 0x0303 .ok)) ∧
  (∀ p s, (port s p).link.sleeping = true → (port s p).link.up = false →
    sleepDown s p = sleepEnd (modPort (releaseTx s p) p fun x => { x with txd := { x.txd with tx := none, pend := none } }) p) ∧
  (∀ p s, (port s p).link.sleeping = false ∨ (port s p).link.up = true → sleepDown s p = s) ∧
  (∀ p s, (port s p).txd.tx.isSome = true ∨ (port s p).txd.pend.isSome = true → sleepEnd s p = s) ∧
  (∀ p s, (port s p).link.sleeping = true → (port s p).txd.tx = none → (port s p).txd.pend = none →
    ∃ u, (sleepEnd s p = u ∨ sleepEnd s p = modLane u (laneOf p) fun l =>
        { l with off := true, lock := false, recal := none, retry := false }) ∧
      u = modPort (clearPort true (.port p) (setLink s p false 0) p) p fun x =>
        { x with link := { x.link with phySpeed := none, phyUp := false } }) ∧
  (∀ h w s, Accepted s 0x0303 h w → (courseOf s h.port).state ≠ 0 →
    exec (.portSleep h w) s = .next (deliver (raise { s with power := { s.power with
      lastTarget := targetOf h.port, lastReason := 2, lastPort := h.port } } 0x2000C 2) h 0x0303 (.err stRefused))) ∧
  (∀ h w s, Accepted s 0x0304 h w → (port s h.port).link.sleeping = true → (lane s (laneOf h.port)).off = false →
    exec (.portWake h w) s = .next (deliver
      (modPort s h.port fun x => { x with link := { x.link with sleeping := false } }) h 0x0304 .ok)) ∧
  (∀ h w s, Accepted s 0x0304 h w → (port s h.port).link.sleeping = true → (lane s (laneOf h.port)).off = true →
    exec (.portWake h w) s = .next (deliver (startFullRecal
      (modPort s h.port fun x => { x with link := { x.link with sleeping := false } }) (laneOf h.port)) h 0x0304 .ok))

/-- Lanes (R246, R413): LANE_SET stores the transmit settings and the adaptation bit; LANE_RECAL starts an adapt, or a full
recalibration with every course of the lane OFF; its end measures both latencies anew (free values) or leaves the retry to follow
100 ms after it began, with the lane event on each of its ports. An adapt during a full recalibration leaves that to its end, and
the retry's instant is the model's choice (log entries 135, 136). The link (R228 to R232, R429): it comes up at the configured
speed on sync, and in MODE 0 on a good in-band control word of the PHY, at the PHY's speed; half duplex, or another speed than
SPEED with course or valve not OFF, holds it down with its event. An uplink that loses it otherwise than by a remote fault loses
block lock (R249). A sleeping port whose link is down ends what it was sending (R244). -/
def Obligations.LanesAndLinksChange : Prop :=
  (∀ h w s, Accepted s 0x0305 h w → fld w 0 31 1 = 0 → fld w 1 31 24 = 0 → fld w 1 7 0 ≤ 63 → fld w 1 15 8 ≤ 15 →
    fld w 1 23 16 ≤ 31 →
    exec (.laneSet h w) s = .next (deliver
      (modLane s (laneOf h.port) fun l => { l with adaptEn := bit (prm w 0) 0, xmit := some (w.getD 1 0) }) h 0x0305 .ok)) ∧
  (∀ h w s, Accepted s 0x0306 h w → prm w 0 = 0 → (lane s (laneOf h.port)).recal = some 1 →
    exec (.laneRecal h w) s = .next (deliver
      (modLane s (laneOf h.port) fun l => { l with retry := false }) h 0x0306 .ok)) ∧
  (∀ h w s, Accepted s 0x0306 h w → prm w 0 = 0 → (lane s (laneOf h.port)).recal ≠ some 1 →
    exec (.laneRecal h w) s = .next (deliver
      (modLane s (laneOf h.port) fun l => { l with recal := some 0, retry := false }) h 0x0306 .ok)) ∧
  (∀ h w s, Accepted s 0x0306 h w → prm w 0 = 1 → ((lanePorts (laneOf h.port)).any fun p => (courseOf s p).state != 0) = false →
    exec (.laneRecal h w) s = .next (deliver (startFullRecal s (laneOf h.port)) h 0x0306 .ok)) ∧
  (∀ q s k, hasLane s q = true → (lane s q).recal = some k →
    exec (.recalDone q true) s = .next ((lanePorts q).foldl (fun s p => raisePort s p 0x024 16)
      (useFree (useFree (modLane s q fun l => { l with
        recal := none, lock := l.lock || k == 1, latRx := newLatency k l.latRx s.free, latTx := newLatency k l.latTx (s.free + 1) }))))) ∧
  (∀ q s k, hasLane s q = true → (lane s q).recal = some k →
    exec (.recalDone q false) s = .next ((lanePorts q).foldl (fun s p => raisePort s p 0x024 32)
      (modLane s q fun l => { l with recal := none, retry := k == 1 }))) ∧
  (∀ q s, hasLane s q = true → (lane s q).retry = true →
    exec (.recalRetry q) s = .next (startFullRecal (atNs s ((lane s q).recalAt + 100000000)) q)) ∧
  (∀ q s, q < 128 → hasLane s q = true → exec (.laneAlignLoss q) s = .next
    ((lanePorts q).foldl (fun s p =>
        sleepDown (setLink (modPort s p fun x => { x with link := { x.link with phyUp := false } }) p false 0) p)
      (modLane s q fun l => { l with lock := false }))) ∧
  (∀ p r s, hasPort s p = true → isUplink p = false ∨ r = true → exec (.linkStateChange p false r) s = .next
    (sleepDown (modPort (setLink (modPort s p fun x => { x with link := { x.link with phyUp := false } }) p false 0) p fun x => { x with
      link := { x.link with localFault := isUplink p && !r, remoteFault := isUplink p && r } }) p)) ∧
  (∀ p s, hasPort s p = true → isUplink p = true → exec (.linkStateChange p false false) s = .next
    (sleepDown (modPort (setLink (modPort (modLane s (laneOf p) fun l => { l with lock := false }) p fun x =>
      { x with link := { x.link with phyUp := false } }) p false 0) p fun x =>
      { x with link := { x.link with localFault := true, remoteFault := false } }) p)) ∧
  (∀ p r s, hasPort s p = true → canLink s p = true → 512 ≤ p →
    exec (.linkStateChange p true r) s = .next (
      let u := modPort (modLane s (laneOf p) fun l => { l with lock := true }) p fun x => { x with link := { x.link with phyUp := true } }
      setLink u p true (plannedSpeed p (port u p)))) ∧
  (∀ p v s u, p < 512 → pMode (port s p) = 0 → v < 3 → canLink s p = true →
    u = (modLane (modPort s p fun x => { x with link := { x.link with phySpeed := some v, fullDuplex := true, phyUp := true } })
      (laneOf p) fun l => { l with lock := true }) → canLink u p = true → (lane u (laneOf p)).lock = true →
    ((courseOf s p).state = 0 → (port s p).valve.state = 0 →
      exec (.inBandControlWord p v true true) s = .next (sleepDown (setLink u p true (v + 1)) p)) ∧
    ((courseOf s p).state ≠ 0 ∨ (port s p).valve.state ≠ 0 → v ≠ pSpeed (port s p) →
      exec (.inBandControlWord p v true true) s = .next (sleepDown (raisePort (setLink u p false 0) p 0x024 128) p))) ∧
  (∀ p v s u, p < 512 → pMode (port s p) = 0 → v < 3 → canLink s p = true →
    u = (modLane (modPort s p fun x => { x with link := { x.link with phySpeed := some v, fullDuplex := false, phyUp := true } })
      (laneOf p) fun l => { l with lock := true }) → canLink u p = true → (lane u (laneOf p)).lock = true →
    exec (.inBandControlWord p v false true) s = .next (sleepDown (raisePort (setLink u p false 0) p 0x024 2) p)) ∧
  (∀ p v d l s, 512 ≤ p → exec (.inBandControlWord p v d l) s = .next s)

/-- Received pause and PFC (R239 to R242): the oldest pause that waits is in force, from its instant, for every class, an exempt
one's timer pausing nothing; PFC for the classes its vector enables; the timer's end resumes the class; the watchdog resumes it,
counts, raises its event and ignores pauses for as long again; a pause in force is refreshed. DDR4 (R414): an alert is counted; one
that persists leaves the channel untrained and the condition DDR_FAIL standing; EVENTn doubles the refresh rate while it is low. -/
def Obligations.PausesAndDdrEventsTakeEffect : Prop :=
  (∀ p s t n r, hasPort s p = true → (port s p).txd.rxPause = (t, n) :: r →
    exec (.pauseReceive p) s = .next ((List.range 8).foldl
      (fun s c => setPause s p t c n)
      (at16 (modPort s p fun x => { x with txd := { x.txd with rxPause := r } }) t))) ∧
  (∀ p s t b r, hasPort s p = true → (port s p).txd.rxPfc = (t, b) :: r →
    exec (.pfcReceive p) s = .next ((List.range 8).foldl
      (fun s c => if !(bit (beAt b 0 2) c) then s else setPause s p t c (beAt b (2 + 2 * c) 2))
      (at16 (modPort s p fun x => { x with txd := { x.txd with rxPfc := r } }) t))) ∧
  (∀ c s x, c < 8 → bit (pExempt x) c = true → pausedClass s x c = false) ∧
  (∀ p c s, ((port s p).txd.pauses.look c {}).until_ ≠ 0 →
    exec (.pauseTimerExpire p c) s = .next (modPort (at16 s ((port s p).txd.pauses.look c {}).until_) p fun x =>
      { x with txd := { x.txd with
        pauses := x.txd.pauses.put c { (port s p).txd.pauses.look c {} with until_ := 0, since := none } {} } })) ∧
  (∀ p c s b, ((port s p).txd.pauses.look c {}).since = some b → 0 < pPauseWd (port s p) →
    b + pPauseWd (port s p) * 1000000 * 65536 ≤ ((port s p).txd.pauses.look c {}).until_ →
    exec (.pauseWd p c) s = .next (
      let e := b + pPauseWd (port s p) * 1000000 * 65536
      raisePort (countPort (modPort (at16 s e) p fun x => { x with txd := { x.txd with
        pauses := (port s p).txd.pauses.put c { until_ := 0, since := none, ignore := e + pPauseWd (port s p) * 1000000 * 65536 } {} } })
        p 0x1C0 1) p 0x024 4)) ∧
  (∀ p c s, (port s p).txd.refresh.look c 0 ≠ 0 → bit (port s p).txd.xoff c = true →
    exec (.pauseRefresh p c) s = .next (armRefresh
      (sendPause (at16 s ((port s p).txd.refresh.look c 0)) p c (port s p).ing.pauseTime) p c)) ∧
  (∀ d s, hasDie s d = true → exec (.ddrAlert d false) s = .next (count s (dieBase d + 0x2000C) 1)) ∧
  (∀ d s, hasDie s d = true → exec (.ddrAlert d true) s = .next (setCond
    (modDdrChan (count s (dieBase d + 0x2000C) 1) d fun c => { c with trained := false }) (.die d) 8 true)) ∧
  (∀ d b s, hasDie s d = true → exec (.ddrEventn d b) s = .next (modDdrChan s d fun c => { c with hot := b }))

/-! ### Line time, pulses and captures -/

/-- TIME_QUERY answers line time, status, RATE, OFFSET, the permit and every link's D and A; TIME_STEP_PERMIT, TIME_RATE_SET (in
FREE only), TIME_LINK_SET and TIME_PORT_SET write their one setting (R53, R58 to R60, R62, R75). TIME_SOURCE_SET starts a new lock
sequence with the source's parameters and the step permitted; a source other than FREE acquires (R50, R51, R57), but on an acting
root in HOLDOVER, which stays there (log entry 158); the first broken rule's reply is given and nothing changes. -/
def Obligations.TimeCommandsTakeEffect : Prop :=
  (∀ h w s, Accepted s 0x0401 h w →
    exec (.timeQuery h w) s = .next (deliver s h 0x0401 (.ok (ltWords (nowNs s) (nowFrac s) ++
      [wd (timeStatus s), wd (uns 32 s.time.rate), wd (offsetReg s), wd (b2n s.time.permit)] ++
      (List.range (4 * nDies s)).flatMap fun u =>
        [wd (uns 32 (s.time.links.look u {}).d), wd (uns 32 (s.time.links.look u {}).a)])))) ∧
  (∀ h w s, Accepted s 0x0403 h w → prm w 0 = 1 →
    exec (.timeStepPermit h w) s = .next (deliver
      { s with time := { s.time with permit := false, initPend := none, stepDefRaised := false } } h 0x0403 .ok)) ∧
  (∀ h w s, Accepted s 0x0403 h w → prm w 0 = 0 →
    exec (.timeStepPermit h w) s = .next (deliver
      { s with time := { s.time with permit := true, permitSeq := s.time.permit && s.time.permitSeq } } h 0x0403 .ok)) ∧
  (∀ h w s, Accepted s 0x0404 h w → s.time.state = .free →
    exec (.timeRateSet h w) s = .next (deliver { s with time := { s.time with rate := sgn 32 (prm w 0) } } h 0x0404 .ok)) ∧
  (∀ h w s, Accepted s 0x0404 h w → s.time.state ≠ .free →
    exec (.timeRateSet h w) s = .next (deliver s h 0x0404 (.err stWrongState))) ∧
  (∀ h w s, Accepted s 0x0405 h w →
    exec (.timeLinkSet h w) s = .next (deliver { s with time := { s.time with
      links := s.time.links.put (h.port - 512) { s.time.links.look (h.port - 512) {} with a := sgn 32 (prm w 0) } {} } } h 0x0405 .ok)) ∧
  (∀ h w s, Accepted s 0x0406 h w → timeRoleOk (prm w 2) = true → fld w 2 31 13 = 0 →
    exec (.timePortSet h w) s = .next (deliver (modPort s h.port fun p =>
      { p with time := { egress := w.getD 0 0, ingress := w.getD 1 0, cfg := w.getD 2 0 } }) h 0x0406 .ok)) ∧
  (∀ h w s, Accepted s 0x0402 h w → timeSourceBad s w = none → fld w 0 2 0 ≠ 0 →
    s.sys.acting = false ∨ s.time.state ≠ .holdover →
    ∃ t, exec (.timeSourceSet h w) s = .next (deliver t h 0x0402 .ok) ∧ t.time.source = fld w 0 2 0 ∧
      t.time.srcIdx = fld w 0 6 3 ∧ t.time.params = timeParams w ∧ t.time.permit = true ∧ t.time.samples = [] ∧
      t.time.state = .acquire ∧ t.time.goodRun = 0 ∧ t.time.units = s.time.units ∧ t.time.rate = s.time.rate ∧
      t.ports = s.ports ∧ t.axes = s.axes ∧ t.ddr = s.ddr) ∧
  (∀ h w s, Accepted s 0x0402 h w → timeSourceBad s w = none → fld w 0 2 0 ≠ 0 → s.sys.acting = true → s.time.state = .holdover →
    ∃ t, exec (.timeSourceSet h w) s = .next (deliver t h 0x0402 .ok) ∧ t.time.source = fld w 0 2 0 ∧
      t.time.srcIdx = fld w 0 6 3 ∧ t.time.params = timeParams w ∧ t.time.permit = true ∧ t.time.samples = [] ∧
      t.time.state = .holdover ∧ t.time.units = s.time.units ∧ t.time.rate = s.time.rate) ∧
  (∀ h w s r, Accepted s 0x0402 h w → timeSourceBad s w = some r →
    exec (.timeSourceSet h w) s = .next (deliver s h 0x0402 r))

/-- Offset samples, the deferred step and HOLDOVER (R50, R52, R58, R62): the oldest sample a Hyith link or the PPS input has formed, or
the sample a protocol gives, is taken, with the UTC offset a GPTP or PTP source sent with it; in FREE a sample changes nothing of the
time base; HOLD_TO after the last valid sample the rate freezes at its mean, with HOLDOVER's event and, out of LOCKED, LOCK_LOST's. -/
def Obligations.TimeBaseEvents : Prop :=
  (∀ x s y r, s.time.source = 1 ∨ s.time.source = 4 → s.time.sampleQ = y :: r →
    exec (.offsetSample x none) s = .next (takeSample { s with time := { s.time with sampleQ := r } } y)) ∧
  (∀ x v s, s.time.source = 2 ∨ s.time.source = 3 → exec (.offsetSample x (some v)) s =
    .next (takeSample { s with time := { s.time with utcOfs := v.toNat, utcValid := true } } x)) ∧
  (∀ x s, s.time.source ≠ 1 → s.time.source ≠ 4 → exec (.offsetSample x none) s = .next (takeSample s x)) ∧
  (∀ x s, s.time.source ≠ 1 → s.time.source ≠ 4 → s.time.state = .free → exec (.offsetSample x none) s = .next s) ∧
  (∀ s u a, s.time.initPend = some (u, a) → anyCourse s = false → s.time.permit = true → s.sys.acting = false →
    exec .deferredStepApply s = .next (
      let t := applyStep s (u + (s.time.units + unitsWrap - a) % unitsWrap)
      setTState t t.time.state true)) ∧
  (∀ s, s.time.initPend = none ∨ s.sys.acting = true → exec .deferredStepApply s = .next s) ∧
  (∀ s, s.time.state = .locked →
    exec .holdover s = .next (
      let u := atNs s (s.time.lastSample + 1000 * s.time.params.holdTo)
      setTState { u with time := { u.time with rate := rateMean u.time, goodRun := 0 } } .holdover false)) ∧
  tStateBits .locked .holdover = 24 ∧ tStateBits .track .holdover = 16 ∧
  (∀ s, s.time.state = .free → exec .holdover s = .next s)

/-- Transmit timestamp rings and the NOW latch (R73, R74, R76): TSRING_SET enables a ring or disables and empties it; a tail that would
make the ring hold more than 64 records is ignored, another frees its records; a read of NOW_NS latches the seconds and the fraction
of the same instant. -/
def Obligations.TimestampRingsAndNow : Prop :=
  (∀ h w s, Accepted s 0x040B h w → prm w 0 = 1 →
    exec (.tsringSet h w) s = .next (deliver (modPort s h.port fun p => { p with ring := { p.ring with on := true } }) h 0x040B .ok)) ∧
  (∀ h w s, Accepted s 0x040B h w → prm w 0 = 0 →
    exec (.tsringSet h w) s = .next (deliver (modPort s h.port fun p =>
      { p with ring := { p.ring with on := false, tail := p.ring.head, pending := 0 } }) h 0x040B .ok)) ∧
  (∀ p v s, Reached s (portBase p + 0xC04) → accHeld s (.tsTail p v) = false → ((port s p).ring.head + 128 - v.toNat) % 128 ≤ 64 →
    exec (.tsTailWrite p v) s = .next (tsGap (modPort s p fun x => { x with ring := { x.ring with tail := v.toNat } }) p)) ∧
  (∀ p v s, Reached s (portBase p + 0xC04) → accHeld s (.tsTail p v) = false → 64 < ((port s p).ring.head + 128 - v.toNat) % 128 →
    exec (.tsTailWrite p v) s = .next s) ∧
  (∀ s, Reached s 0x40000 →
    exec .nowNsRead s = .next (emit { s with time := { s.time with nowSec := nowNs s / 1000000000, nowFrac := nowFrac s } }
      (.read [wd (nowNs s % 1000000000)])))

/-- PULSE_SET loads a unit that is between pulses: its first leading edge is the earliest START + k x PERIOD at least 1,000 ns
ahead, and k is answered (R65, R66); PULSE_STOP ends it; both wait for the end of a pulse in progress (R68). A unit's edge moves
the TP pins it is routed to (showPins), and nothing leaves by pins whose level stays (R69). The last pulse raises its END_EVENT
whether or not a command waits (R65). TP pins and capture inputs (R50, R69 to R71, R77): PIN_ROUTE_SET and CAPTURE_SET store the
route, which the pin shows at once, and the edges; a selected edge is kept with its instant while fewer than 16 wait, else it only
counts in LOST; a rising edge of the PPS source forms an offset sample (which edges of it the FIFO keeps is the model's choice, log
entry 127); a read of CAP_NS removes the oldest, all ones where none waits. -/
def Obligations.PulsesPinsAndCapturesTakeEffect : Prop :=
  (∀ h w s st, Accepted s 0x0407 h w → fld w 0 31 8 = 0 → instantAt w 1 = .ok st → (pulse s (fld w 0 4 0)).busyTo = none →
    20 ≤ prm w 4 → 10 ≤ prm w 5 → prm w 5 + 10 ≤ prm w 4 →
    exec (.pulseSet h w) s = .next (
      let f := firstAt st (prm w 4) (nowUp s + 1000)
      deliver (pulseEvent (showPins s (setPulse s (fld w 0 4 0)
        { cfg := { start := st, period := prm w 4, width := prm w 5, count := prm w 6, pol := bit (prm w 0) 5,
                   late := bit (prm w 0) 6, endEv := bit (prm w 0) 7 }
          run := true, next := f.1 })) (fld w 0 4 0) (decide (f.2 ≠ 0)))
        h 0x0407 (.rep (if f.2 = 0 then 0 else 16) [wd (sat32 f.2)]))) ∧
  (∀ h w s st, Accepted s 0x0407 h w → fld w 0 31 8 = 0 → instantAt w 1 = .ok st → 0 < prm w 4 → prm w 4 < 20 →
    exec (.pulseSet h w) s = .next (deliver s h 0x0407 (.err stInvalid 5))) ∧
  (∀ h w s, Accepted s 0x0408 h w → fld w 0 31 5 = 0 → (pulse s (fld w 0 4 0)).busyTo = none →
    exec (.pulseStop h w) s = .next (deliver
      (setPulse s (fld w 0 4 0) { pulse s (fld w 0 4 0) with run := false }) h 0x0408 .ok)) ∧
  (∀ h w s e, Accepted s 0x0408 h w → fld w 0 31 5 = 0 → (pulse s (fld w 0 4 0)).busyTo = some e →
    exec (.pulseStop h w) s = .next (deliver
      (setPulse s (fld w 0 4 0) { pulse s (fld w 0 4 0) with waiting := some none }) h 0x0408 .ok)) ∧
  (∀ u s, (pulse s u).busyTo = none → (pulse s u).run = true →
    exec (.pulseEdge u) s = .next (
      let t := atNs s (pulse s u).next
      emit (showPins t (setPulse t u { pulse s u with
        busyTo := some ((pulse s u).next + (pulse s u).cfg.width), emitted := (pulse s u).emitted + 1 }))
        (.pulse u (pulse s u).next))) ∧
  (∀ u s e, (pulse s u).busyTo = some e → (pulse s u).waiting = none → (pulse s u).cfg.period ≠ 0 → (pulse s u).cfg.count = 0 →
    exec (.pulseEdge u) s = .next (showPins (atNs s e) (setPulse (atNs s e) u { pulse s u with
      busyTo := none, next := (pulse s u).next + (pulse s u).cfg.period }))) ∧
  (∀ u s e c n r, (pulse s u).busyTo = some e → (pulse s u).waiting = some (some (c, n, r)) →
    exec (.pulseEdge u) s = .next (
      let v := pulseEvent (atNs s e) u (lastPulse (pulse s u) && (pulse s u).cfg.endEv)
      showPins v (setPulse v u (pulseTakes c n r e)))) ∧
  (∀ s t, (∀ k, k < 8 → tpLevel s k = tpLevel t k) → showPins s t = t) ∧
  (∀ tb per lim, 0 < per → let f := firstAt tb per lim
    f.1 = tb + f.2 * per ∧ lim ≤ f.1 ∧ ∀ k, lim ≤ tb + k * per → f.2 ≤ k) ∧
  (∀ h w s, Accepted s 0x0409 h w → fld w 0 31 10 = 0 → fld w 0 9 8 ≠ 3 →
    exec (.pinRouteSet h w) s = .next (deliver
      (showPins s { s with pulse := { s.pulse with routes := s.pulse.routes.put (fld w 0 2 0) (fld w 0 9 3) 32 } }) h 0x0409 .ok)) ∧
  (∀ s k, s.pulse.routes.look k 32 = 32 → tpLevel s k = false) ∧
  (∀ s k, s.pulse.routes.look k 32 = 64 → tpLevel s k = true) ∧
  (∀ h w s, Accepted s 0x040A h w → fld w 0 31 4 = 0 →
    exec (.captureSet h w) s = .next (deliver (modCapture s (fld w 0 1 0) fun c => { c with edges := fld w 0 3 2 }) h 0x040A .ok)) ∧
  (∀ c b t s, isPps s c = false → bit (capture s c).edges (b2n b) = true → (capture s c).fifo.length < 16 →
    exec (.captureEdge c b t) s = .next (modCapture (at16 s t) c fun x => { x with fifo := x.fifo ++ [(t, b)] })) ∧
  (∀ c b t s, isPps s c = false → bit (capture s c).edges (b2n b) = true → 16 ≤ (capture s c).fifo.length →
    (capture s c).lost ≠ 0x7FFF → (capture s c).lost < 0xFFFF →
    exec (.captureEdge c b t) s = .next (
      let a := 0x5010C + 16 * c
      modCapture (setFresh (at16 s t) a (freshAt (at16 s t) a + 1)) c fun x => { x with lost := min 0xFFFF (x.lost + 1) })) ∧
  (∀ c b t s, isPps s c = false → bit (capture s c).edges (b2n b) = true → 16 ≤ (capture s c).fifo.length →
    (capture s c).lost = 0xFFFF →
    exec (.captureEdge c b t) s = .next (
      let a := 0x5010C + 16 * c
      modCapture (setFresh (at16 s t) a (freshAt (at16 s t) a)) c fun x => { x with lost := 0xFFFF })) ∧
  (∀ c t s, isPps s c = true → bit (capture s c).edges 0 = false →
    exec (.captureEdge c false t) s = .next (ppsSample (at16 s t) t)) ∧
  (∀ c t s, isPps s c = true → bit (capture s c).edges 0 = true →
    exec (.captureEdge c false t) s = .next (capturePut (ppsSample (at16 s t) t) c false t)) ∧
  (∀ c b t s, isPps s c = false → bit (capture s c).edges (b2n b) = false → exec (.captureEdge c b t) s = .next s) ∧
  (∀ c s t b r, c ≤ 3 → Reached s (0x50100 + 0x10 * c) → (capture s c).fifo = (t, b) :: r →
    exec (.capNsRead c) s = .next (emit (modCapture s c fun x => { x with
      fifo := r, latSec := t / 65536 / 1000000000, latFrac := t % 65536, latFall := b }) (.read [wd (t / 65536 % 1000000000)]))) ∧
  (∀ c s, c ≤ 3 → Reached s (0x50100 + 0x10 * c) → (capture s c).fifo = [] →
    exec (.capNsRead c) s = .next (emit s (.read [0xFFFFFFFF])))

/-! ### Valves and preemption -/

/-- VALVE_QUERY, VALVE_READ and PREEMPT_QUERY answer the port's status, entries and counters, and change nothing else (R171).
VALVE_SET stores an OFF valve's settings; VALVE_WRITE stores entries of a list that does not run, and both refuse otherwise (R147,
R151, R170). PREEMPT_SET stores the preemption settings; VERIFY_DIS ends a verify exchange that runs (R162, R163). VALVE_START,
VALVE_SWAP and VALVE_STOP on their own (R153, R155, R303): a command that passes its checks forms its own transaction, committed
20,000 ns later; at C (TXN_COMMIT_APPLY of TXID 0) the start or swap is set for the first VBASE + k x VCT at least 4,000 ns later,
or the stop for its instant, and k and the classes whose frames no window fits are answered; in the wrong state it is refused. -/
def Obligations.ValveCommandsTakeEffect : Prop :=
  (∀ h w s, Accepted s 0x0501 h w → (port s h.port).valve.pend = none → (port s h.port).valve.stopAt = none →
    exec (.valveQuery h w) s = .next (deliver s h 0x0501 (.ok ([wd (valveStatus s h.port)] ++ ltWords (port s h.port).valve.vbase 0 ++
      [wd (port s h.port).valve.vct] ++ ltWords 0 0 ++ [wd (reg s (portBase h.port + 0x410))])))) ∧
  (∀ h w s, Accepted s 0x0504 h w → fld w 0 31 13 = 0 → fld w 1 31 11 = 0 → 1 ≤ fld w 1 10 0 → fld w 1 10 0 ≤ 1024 →
    fld w 0 12 1 + fld w 1 10 0 ≤ vCap h.port →
    exec (.valveRead h w) s = .next (deliver s h 0x0504 (.ok ((List.range (fld w 1 10 0)).flatMap fun i =>
      let e := vEntry (vList (port s h.port) (fld w 0 0 0)) (fld w 0 12 1 + i)
      [e.w0, e.w1])))) ∧
  (∀ h w s, Accepted s 0x0509 h w →
    exec (.preemptQuery h w) s = .next (deliver s h 0x0509 (.ok (wd (preemptStatus s h.port) ::
      (List.range 6).map fun i => wd (reg s (portBase h.port + 0x438 + 4 * i)))))) ∧
  (∀ h w s ml, Accepted s 0x0502 h w → (port s h.port).valve.state = 0 → fld w 0 31 12 = 0 →
    bit (peMask (port s h.port)) (fld w 0 2 0) = false →
    ml = ((List.range 8).map fun c => fld w (1 + c / 2) (16 * (c % 2) + 15) (16 * (c % 2))) →
    (∀ m ∈ ml, 64 ≤ m ∧ m ≤ pMaxFrame (port s h.port)) →
    exec (.valveSet h w) s = .next (deliver (gateMove (holdNow s h.port) (gatesNow s h.port) (modPort s h.port fun x => { x with
      vset := { courseClass := fld w 0 2 0, idleGates := fld w 0 10 3, idleHold := bit (prm w 0) 11, maxLen := ml } }) h.port)
      h 0x0502 .ok)) ∧
  (∀ s p, (port s p).txd.tx = none → holdNow s p = false → ∀ h g, gateMove h g s p = s) ∧
  (∀ h w s, Accepted s 0x0502 h w → (port s h.port).valve.state ≠ 0 →
    exec (.valveSet h w) s = .next (deliver s h 0x0502 (.err stWrongState))) ∧
  (∀ h w s e, Accepted s 0x0503 h w → fld w 0 31 13 = 0 → fld w 1 31 24 = 0 → fld w 1 23 13 = 1 →
    fld w 1 12 0 ≤ vCap h.port → fld w 0 12 1 + 1 ≤ vCap h.port → (port s h.port).valve.pend = none →
    (port s h.port).valve.state = 0 → e = { w0 := w.getD 2 0, w1 := w.getD 3 0 } → e.w1.toNat ≤ 1 → 32 ≤ vInterval e →
    (port s h.port).valve.vct = 0 →
    exec (.valveWrite h w) s = .next (deliver (setPort s h.port (setVList (port s h.port) (fld w 0 0 0)
      { len := fld w 1 12 0
        entries := (vList (port s h.port) (fld w 0 0 0)).entries.put (fld w 0 12 1) e {} })) h 0x0503 .ok)) ∧
  (∀ h w s, Accepted s 0x0508 h w → (isTwinLane h.port && s.twin.role != .off) = false → fld w 0 31 20 = 0 →
    bit (fld w 0 8 1) (port s h.port).vset.courseClass = false → 1 ≤ fld w 0 19 12 → fld w 0 19 12 ≤ 128 →
    bit (prm w 0) 0 = peEn (port s h.port) → peNoVerify (port s h.port) = false →
    exec (.preemptSet h w) s = .next (deliver (peChanged s (modPort s h.port fun x => { x with pre := { x.pre with
      cfg := w.getD 0 0, deadline := if bit (prm w 0) 11 then none else x.pre.deadline } }) h.port) h 0x0508 .ok)) ∧
  (∀ h w s, Accepted s 0x0508 h w → (isTwinLane h.port && s.twin.role != .off) = false → fld w 0 31 20 = 0 →
    bit (fld w 0 8 1) (port s h.port).vset.courseClass = false → 1 ≤ fld w 0 19 12 → fld w 0 19 12 ≤ 128 →
    bit (prm w 0) 0 ≠ peEn (port s h.port) →
    exec (.preemptSet h w) s = .next (deliver (peChanged s (restartVerify (modPort s h.port fun x => { x with pre := { x.pre with
      cfg := w.getD 0 0, deadline := if bit (prm w 0) 11 then none else x.pre.deadline } }) h.port) h.port) h 0x0508 .ok)) ∧
  (∀ h w s, Accepted s 0x0508 h w → isTwinLane h.port = true → s.twin.role ≠ .off →
    exec (.preemptSet h w) s = .next (deliver s h 0x0508 (.err stWrongState))) ∧
  (∀ h w s tb, Solo s 0x0505 h w → fld w 0 31 1 = 0 → instantAt w 1 = .ok tb → 1000 ≤ prm w 4 →
    (port s h.port).valve.pend = none → (port s h.port).valve.state = 0 →
    valveCheck s h.port (fld w 0 0 0) (ltAt w 1).1 (prm w 4) [newMember s 0x0505 h w] = none →
    exec (.valveStart h w) s =
      .next { s with txns := s.txns ++ [ownTxn s 0x0505 valveStartOp h w (nowNs s + 20000)] }) ∧
  (∀ h w s c u, OwnDue s 0x0505 h w c u →
    exec (.txnCommitApply 0) s = .next (
      let a := valveCommit u h.port (fld w 0 0 0) (ltAt w 1).1 (prm w 4) c true
      deliver (closeTxn a.s 0) h 0x0505 (.rep (valveStartOp.report h w a.k u)
        [wd a.k, wd (shortMask u h.port (fld w 0 0 0) (ltAt w 1).1 (prm w 4))]))) ∧
  (∀ h w s tb, Solo s 0x0505 h w → fld w 0 31 1 = 0 → instantAt w 1 = .ok tb → 1000 ≤ prm w 4 →
    (port s h.port).valve.pend = none → (port s h.port).valve.state ≠ 0 →
    exec (.valveStart h w) s = .next (deliver s h 0x0505 (.err stWrongState))) ∧
  (∀ h w s tb, Solo s 0x0506 h w → instantAt w 0 = .ok tb → 1000 ≤ prm w 3 →
    (port s h.port).valve.pend = none → (port s h.port).valve.state = 2 →
    valveCheck s h.port (1 - (port s h.port).valve.list) (ltAt w 0).1 (prm w 3) [newMember s 0x0506 h w] = none →
    exec (.valveSwap h w) s =
      .next { s with txns := s.txns ++ [ownTxn s 0x0506 valveSwapOp h w (nowNs s + 20000)] }) ∧
  (∀ h w s c u, OwnDue s 0x0506 h w c u →
    exec (.txnCommitApply 0) s = .next (
      let a := valveCommit u h.port (1 - (port u h.port).valve.list) (ltAt w 0).1 (prm w 3) c false
      deliver (closeTxn a.s 0) h 0x0506
        (.rep (valveSwapOp.report h w a.k u) (valveSwapOp.words h w { a with s := u })))) ∧
  (∀ h w s, Solo s 0x0507 h w → ¬((courseOf s h.port).state ≠ 0 ∧ h.port < 512) →
    exec (.valveStop h w) s =
      .next { s with txns := s.txns ++ [ownTxn s 0x0507 valveStopOp h w (nowNs s + 20000)] }) ∧
  (∀ h w s c u, OwnDue s 0x0507 h w c u → (port u h.port).valve.state ≠ 0 →
    exec (.txnCommitApply 0) s = .next (
      let t := valveStopAt (port u h.port).valve c
      deliver (closeTxn (setPort u h.port { port u h.port with valve := { (port u h.port).valve with stopAt := some t } }) 0) h 0x0507
        (.ok (ltWords t 0)))) ∧
  (∀ h w s, Solo s 0x0507 h w → (courseOf s h.port).state ≠ 0 → h.port < 512 →
    exec (.valveStop h w) s = .next (deliver s h 0x0507 (.err stWrongState)))

/-- The instants of a valve (R149, R153, R155, R163, R165): at its swap instant the committed list runs from that instant and its event
is raised, every queue's head being tested against the new windows (R161); at its stop instant the valve is OFF; an entry boundary of the running list moves its gates; a course hold cuts what is
being sent; a verify timeout sends another verify mPacket, or after the third reports the failure, and does neither where VERIFY_DIS is set. -/
def Obligations.ValveInstantsTakePlace : Prop :=
  (∀ p s q, (port s p).valve.pend = some q →
    exec (.valveSwapInstant p) s = .next (
      let u := modPort (atNs s q.at_) p fun x => { x with
        valve := { x.valve with state := 2, list := q.list, vbase := q.at_, vct := q.vct, pend := none, idle := none } }
      let v := raisePort (gateEdge s u p q.at_) p 0x408 1
      testHeads (traceRec v (dieOfPort p) 0x05 (portBase p + 0x400) [reg v (portBase p + 0x410)]) p)) ∧
  (∀ p s t, (port s p).valve.stopAt = some t →
    exec (.valveStopInstant p) s = .next (
      let u := modPort (atNs s t) p fun x => { x with
        valve := { x.valve with state := 0, vbase := 0, vct := 0, pend := none, stopAt := none, idle := none } }
      traceRec (speedHold (gateEdge s u p t) p) (dieOfPort p) 0x05 (portBase p + 0x400) [0])) ∧
  (∀ p k i s z, (port s p).valve.state = 2 →
    (vWins (port s p).vset (vList (port s p) (port s p).valve.list) (port s p).valve.vct).find? (fun z => z.idx == i) = some z →
    nowNs s ≤ (port s p).valve.vbase + k * (port s p).valve.vct + z.o → (port s p).valve.idle = none →
    (port s p).valve.pend = none → (port s p).valve.stopAt = none →
    exec (.valveEntryBoundary p k i) s = .next (
      let t := (port s p).valve.vbase + k * (port s p).valve.vct + z.o
      gateEdge s (atNs s t) p t)) ∧
  (∀ p s t, (port s p).pre.deadline = some t → peNoVerify (port s p) = false → (port s p).pre.tries < 3 →
    exec (.verifyTimeout p) s = .next (sendVerify (atNs s t) p)) ∧
  (∀ p s t, (port s p).pre.deadline = some t → peNoVerify (port s p) = false → 3 ≤ (port s p).pre.tries →
    exec (.verifyTimeout p) s = .next (peChanged s (raisePort
      (modPort (atNs s t) p fun x => { x with pre := { x.pre with deadline := none, failed := true } }) p 0x408 16) p)) ∧
  (∀ p s t, (port s p).pre.deadline = some t → peNoVerify (port s p) = true →
    exec (.verifyTimeout p) s = .next (modPort (atNs s t) p fun x => { x with pre := { x.pre with deadline := none } })) ∧
  (∀ p f n s k y, bankForCycle (courseOf s p) (cycleStart s (port s (own s p)).ccfg.ct n) = some k →
    (outFrames s p k).find? (fun y => y.1 == f) = some y → peActive (port s p) = true →
    exec (.courseHoldStart p f n) s = .next (
      let tq := (cycleStart s (port s (own s p)).ccfg.ct n + y.2.1) * qPerNs - 8 * lineQ p (port s p) - holdQ p (port s p)
      let u := at16 s (tq / 100)
      if listHoldAt (port s p) (tq / qPerNs) || courseHoldAt s p (tq - 1) then u
      else modPort (countPort u p 0x438 1) p fun x => cutTx p x (now16 u)))

/-! ### Courses -/

/-- COURSE_QUERY answers the course's status words and the ages asked for (R105, R111). COURSE_SET stores an OFF course's settings
(R111) and COURSE_LINE_SET the line base while no course and no axis runs (R79); both refuse otherwise. BOND_WRITE, FRAME_SET and
SAFE_IMAGE_WRITE store entries, descriptors and the safe image of an OFF course (R92 to R95, R111); the working bank of a course in
RUN or SAFE is not written: INVALID with DETAIL 13 (R96). The safe image that a write replaces stays for the bricks of a frame on
the line whose read instants have passed (R98). -/
def Obligations.CourseSettingsAreStored : Prop :=
  (∀ h w s n, Accepted s 0x0601 h w → n = fld w 0 7 0 → fld w 0 31 8 = 0 → n ≤ 64 →
    exec (.courseQuery h w) s = .next (deliver s h 0x0601
      (.ok ([wd (courseStatus s h.port), wd (seqNow s h.port), wd (swapK s h.port)] ++
        toWordsLe 64 ((((wordsLe (w.drop 1)).take n).map fun e => by8 ((port s (own s h.port)).inStat.age.look e.toNat 0)) ++
          List.replicate ((4 - n % 4) % 4) 0))))) ∧
  (∀ h w s, Accepted s 0x0602 h w → prm w 0 % s.line.baseCt = 0 → 15625 ≤ prm w 0 → prm w 0 ≤ 16777216 → fld w 1 31 26 = 0 →
    fld w 2 31 10 = 0 →
    (fld w 1 25 24 = 1 ∨ fld w 1 25 24 = 2 →
      fld w 2 9 0 < 512 ∧ hasPort s (fld w 2 9 0) = true ∧ dieOfPort (fld w 2 9 0) = dieOfPort h.port) →
    (courseOf s h.port).state = 0 →
    exec (.courseSet h w) s = .next (deliver (modPort s h.port fun p => { p with ccfg := { p.ccfg with
      ct := prm w 0, id := fld w 1 15 0, stale := fld w 1 23 16, plane := fld w 1 25 24, partner := fld w 2 9 0 } })
      h 0x0602 .ok)) ∧
  (∀ h w s, Accepted s 0x0602 h w → prm w 0 % s.line.baseCt = 0 → 15625 ≤ prm w 0 → prm w 0 ≤ 16777216 → fld w 1 31 26 = 0 →
    fld w 2 31 10 = 0 → fld w 1 25 24 = 0 → (courseOf s h.port).state ≠ 0 →
    exec (.courseSet h w) s = .next (deliver s h 0x0602 (.err stWrongState))) ∧
  (∀ h w s a, Accepted s 0x060B h w → 15625 ≤ prm w 0 → prm w 0 ≤ 16777216 → instantAt w 1 = .ok a →
    (s.ports.any fun e => e.2.course.state != 0) = false → (s.axes.any fun e => e.2.dyn.state != 0) = false →
    exec (.courseLineSet h w) s = .next (deliver { s with line := { baseCt := prm w 0, anchor := a } } h 0x060B .ok)) ∧
  (∀ h w s a, Accepted s 0x060B h w → 15625 ≤ prm w 0 → prm w 0 ≤ 16777216 → instantAt w 1 = .ok a →
    (s.ports.any fun e => e.2.course.state != 0) = true →
    exec (.courseLineSet h w) s = .next (deliver s h 0x060B (.err stWrongState))) ∧
  (∀ h w s k n, Accepted s 0x0603 h w → k = fld w 0 1 0 → n = fld w 0 18 10 → fld w 0 31 19 = 0 → k < 2 → 1 ≤ n →
    fld w 0 9 2 + n ≤ 256 → (∀ x ∈ w.drop 1, x.toNat < 2 ^ 25 ∧ hasAxis s (eAxis x.toNat) = true) →
    (courseOf s h.port).state = 0 →
    exec (.bondWrite h w) s = .next (
      let b := bankSel (port s h.port).ccfg k
      let e := (w.drop 1).zipIdx.foldl (fun t x => t.put (fld w 0 9 2 + x.2) x.1 0) b.entries
      deliver (modPort s h.port fun x => { x with ccfg := setBank x.ccfg k { b with entries := e } }) h 0x0603 .ok)) ∧
  (∀ h w s k n, Accepted s 0x0603 h w → k = fld w 0 1 0 → n = fld w 0 18 10 → fld w 0 31 19 = 0 → k < 2 → 1 ≤ n →
    fld w 0 9 2 + n ≤ 256 → (∀ x ∈ w.drop 1, x.toNat < 2 ^ 25 ∧ hasAxis s (eAxis x.toNat) = true) →
    2 ≤ (courseOf s h.port).state → k = b2n (courseOf s h.port).bank →
    exec (.bondWrite h w) s = .next (deliver s h 0x0603 (.err stInvalid 13))) ∧
  (∀ h w s k ds, Accepted s 0x0604 h w → k = fld w 0 1 0 → k < 3 → fld w 0 31 10 = 0 →
    ds = ((List.range 8).filter fun i => bit (prm w 0) (2 + i)) → (∀ x ∈ ds.zipIdx, fld w (3 + 4 * x.2) 31 16 = 0) →
    (courseOf s h.port).state = 0 →
    exec (.frameSet h w) s = .next (
      let b := bankSel (port s h.port).ccfg k
      let e := ds.zipIdx.foldl (fun t x => t.put x.1
        { w0 := w.getD (1 + 4 * x.2) 0, w1 := w.getD (2 + 4 * x.2) 0
          w2 := w.getD (3 + 4 * x.2) 0, w3 := w.getD (4 + 4 * x.2) 0 } {}) b.descs
      deliver (modPort s h.port fun x => { x with ccfg := setBank x.ccfg k { b with descs := e } }) h 0x0604 .ok)) ∧
  (∀ h w s, Accepted s 0x0605 h w → fld w 0 31 17 = 0 → fld w 0 8 0 % 4 = 0 → 1 ≤ fld w 0 16 9 → fld w 0 16 9 ≤ 128 →
    fld w 0 8 0 + 4 * fld w 0 16 9 ≤ 512 →
    exec (.safeImageWrite h w) s = .next (deliver (modPort s h.port fun p => { p with
      course := { p.course with safeOld := (now16 s, p.ccfg.safeImg) :: safeKept (now16 s) p.course.safeOld }
      ccfg := { p.ccfg with
        safeImg := (wordsLe (w.drop 1)).zipIdx.foldl (fun t x => t.put (fld w 0 8 0 + x.2) x.1 0) p.ccfg.safeImg } })
      h 0x0605 .ok))

/-- COURSE_START, COURSE_SWAP, COURSE_RESUME and COURSE_STOP on their own where no LEADER forwards them, and COURSE_SAFE (R106 to
R111, R303): one that passes its checks forms its own transaction, committed 20,000 ns later; at C (TXN_COMMIT_APPLY of TXID 0) it is
set for the first base time plus k cycles at least 4,000 ns later and k is answered. COURSE_SAFE in RUN enters SAFE with cause 1;
on a CLAIMING package it asks it of a twin course as any request that arises there (R265). Each is refused in the states it does not act in. -/
def Obligations.CourseStartSwapSafeResumeStop : Prop :=
  (∀ h w s tb, Solo s 0x0606 h w → fld w 0 31 1 = 0 → instantAt w 1 = .ok tb → (courseOf s h.port).state = 0 →
    (port s (own s h.port)).ccfg.plane ≠ 3 → courseCheck s h.port [fld w 0 0 0] = none →
    isBoundary s (port s (own s h.port)).ccfg.ct (ltAt w 1).1 = true →
    exec (.courseStart h w) s =
      .next { s with txns := s.txns ++ [ownTxn s 0x0606 courseStartOp h w (nowNs s + 20000)] }) ∧
  (∀ h w s c u, OwnDue s 0x0606 h w c u → (courseOf u h.port).state = 0 →
    exec (.txnCommitApply 0) s = .next (
      let o := own u h.port
      let x := commitBoundary u o (ltAt w 1).1 c
      let v := modCourse x.1 o fun d => { d with
        bank := bit (prm w 0) 0, startAt := some x.2.1, startK := x.2.2, safeAtStart := none, swaps := [], swapKs := []
        resumeAt := none, stopAt := none
        foreign := false, missedA := 0, missedB := 0, gotA := false, gotB := false, silentEp := none }
      deliver (closeTxn (setCourse (clearInStatus v o) o 1 0) 0) h 0x0606 (.rep (lateBit x.2.2) [wd x.2.2]))) ∧
  (∀ h w s c u, OwnDue s 0x0606 h w c u → (courseOf u h.port).state ≠ 0 →
    exec (.txnCommitApply 0) s = .next (deliver (closeTxn u 0) h 0x0606 (.err stTxnPartial))) ∧
  (∀ h w s tb, Solo s 0x0606 h w → fld w 0 31 1 = 0 → instantAt w 1 = .ok tb → (courseOf s h.port).state ≠ 0 →
    exec (.courseStart h w) s = .next (deliver s h 0x0606 (.err stWrongState))) ∧
  (∀ h w s tb, Solo s 0x0607 h w → leads s 0x0607 h = false → instantAt w 0 = .ok tb → (courseOf s h.port).state ≠ 0 →
    courseCheck s h.port [b2n (xor (courseOf s h.port).bank ((courseOf s h.port).swaps.length % 2 == 0))] = none →
    isBoundary s (port s (own s h.port)).ccfg.ct (ltAt w 0).1 = true →
    exec (.courseSwap h w) s =
      .next { s with txns := s.txns ++ [ownTxn s 0x0607 courseSwapOp h w (nowNs s + 20000)] }) ∧
  (∀ h w s c u, OwnDue s 0x0607 h w c u → (courseOf u h.port).state ≠ 0 →
    exec (.txnCommitApply 0) s = .next (
      let o := own u h.port
      let x := commitBoundary u o (ltAt w 0).1 c
      deliver (closeTxn (modCourse x.1 o fun d => { d with
        swaps := insertNat x.2.1 d.swaps, swapKs := d.swapKs ++ [x.2] }) 0) h 0x0607
        (.rep (lateBit x.2.2) [wd x.2.2]))) ∧
  (∀ h w s, Accepted s 0x0608 h w → leads s 0x0608 h = false → (courseOf s h.port).state = 2 →
    ¬((port s (own s h.port)).ccfg.plane = 3 ∧ s.twin.role = .claiming) →
    exec (.courseSafe h w) s = .next (deliver (enterSafe s (own s h.port) 1) h 0x0608 .ok)) ∧
  (∀ h w s, Accepted s 0x0608 h w → leads s 0x0608 h = false → (courseOf s h.port).state ≠ 0 →
    (port s (own s h.port)).ccfg.plane = 3 → s.twin.role = .claiming →
    exec (.courseSafe h w) s = .next (deliver (safeReq s h.port 1) h 0x0608 .ok)) ∧
  (∀ h w s, Accepted s 0x0608 h w → (courseOf s h.port).state = 0 →
    exec (.courseSafe h w) s = .next (deliver s h 0x0608 (.err stWrongState))) ∧
  (∀ h w s tb, Solo s 0x0609 h w → leads s 0x0609 h = false → instantAt w 0 = .ok tb → (courseOf s h.port).state = 3 →
    isBoundary s (port s (own s h.port)).ccfg.ct (ltAt w 0).1 = true →
    exec (.courseResume h w) s =
      .next { s with txns := s.txns ++ [ownTxn s 0x0609 courseResumeOp h w (nowNs s + 20000)] }) ∧
  (∀ h w s c u, OwnDue s 0x0609 h w c u → (courseOf u h.port).state = 3 →
    exec (.txnCommitApply 0) s = .next (
      let o := own u h.port
      let x := commitBoundary u o (ltAt w 0).1 c
      deliver (closeTxn (modCourse x.1 o fun d => { d with resumeAt := some x.2.1, resumeK := x.2.2 }) 0) h 0x0609
        (.rep (lateBit x.2.2) [wd x.2.2]))) ∧
  (∀ h w s, Solo s 0x060A h w → leads s 0x060A h = false → (courseOf s h.port).state = 3 →
    exec (.courseStop h w) s =
      .next { s with txns := s.txns ++ [ownTxn s 0x060A courseStopOp h w (nowNs s + 20000)] }) ∧
  (∀ h w s c u, OwnDue s 0x060A h w c u → (courseOf u h.port).state = 3 →
    exec (.txnCommitApply 0) s = .next (
      let o := own u h.port
      let b := nextB u.line.anchor (port u o).ccfg.ct (c + 4000)
      deliver (closeTxn (modCourse u o fun d => { d with stopAt := some b }) 0) h 0x060A (.ok (ltWords b 0)))) ∧
  (∀ h w s, Solo s 0x060A h w → (courseOf s h.port).state = 2 →
    exec (.courseStop h w) s = .next (deliver s h 0x060A (.err stWrongState)))

/-- The instants of a course (R80, R85, R95, R97 to R104, R108, R109, R262): at its boundary what fell due is settled and the
in-status of the ended cycle cleared; 200 ns before LAUNCH a frame's bank, descriptor and entries are fixed; a withheld frame is counted
and not sent; another starts at its instant, and when it has ended its bricks are those of their read instants; a brick that completes
after ARR_CLOSE is counted late, one whose check holds is merged, plane A's first where both copies complete in one CORE cycle; ARR_CLOSE ages the entries of its frame; a
boundary of the line base does the package's work; the snapshot of a cycle is published. -/
def Obligations.CourseInstantsTakePlace : Prop :=
  (∀ p n s, courseRuns s p = true → own s p = p → (sides s p).length ≠ 2 →
    ¬((port s p).ccfg.plane = 3 ∧ s.twin.role = .follower) →
    exec (.courseBoundary p n) s = .next (
      let t := cycleStart s (port s p).ccfg.ct n
      modPort (courseDue (atNs s t) p t) p fun x =>
        { x with inStat := { x.inStat with taken := [], offered := [], kept := [] } })) ∧
  (∀ p f n s y u, courseRuns s p = true → u = courseDue s (own s p) (max (cycleStart s (port s (own s p)).ccfg.ct n) (nowNs s)) →
    own u p = own s p →
    (port u (own s p)).course.state = 2 → outFrame u p (b2n (port u (own s p)).course.bank) f = some y →
    foreignStopped (atNs u (cycleStart s (port s (own s p)).ccfg.ct n + y.1 - 200)) (own s p) = false →
    (port u (own s p)).course.foreign = false →
    (buildOf (atNs u (cycleStart s (port s (own s p)).ccfg.ct n + y.1 - 200)) p f n (cycleStart s (port s (own s p)).ccfg.ct n)).entries
      ≠ [] →
    exec (.courseBuildStart p f n) s = .next (
      let b := cycleStart s (port s (own s p)).ccfg.ct n
      let v := atNs u (b + y.1 - 200)
      modCourse (atNs v (buildLaunch (buildOf v p f n b) - 200)) p fun x => { x with
        builds := x.builds.put f (some (buildOf v p f n b)) none })) ∧
  (∀ p f n s u, (port s p).course.builds.look f none = some u → u.n = n → courseRuns s p = true → u.skip = true →
    exec (.courseLaunch p f n) s = .next (
      let v := settleTx (at16 s ((buildLaunch u * qPerNs - 8 * lineQ p (port s p)) / 100)) p
      countPort (modCourse v p fun c => { c with builds := c.builds.put f none none }) (own s p) 0x660 1)) ∧
  (∀ p f n s u t0 v, (port s p).course.builds.look f none = some u → u.n = n → courseRuns s p = true → u.skip = false →
    t0 = (buildLaunch u * qPerNs - 8 * lineQ p (port s p)) / 100 →
    v = modCourse (settleTx (at16 s t0) p) p (fun c => { c with builds := c.builds.put f none none }) →
    launchOk v p (buildLaunch u) (frameLen (buildSizes u)) = true →
    exec (.courseLaunch p f n) s = .next (
      let z := startTx v p { bytes := [], t16 := t0, cls := (port v p).vset.courseClass
                             now := frameLen (buildSizes u), course := some (f, u) }
      if u.safe then countSafeCycle (countPort z (own s p) 0x624 1) (own s p) n else countPort z (own s p) 0x620 1)) ∧
  (∀ p s f k u, (port s p).txd.tx = some f → f.course = some (k, u) → f.now ≠ 0 → f.cut = false → f.pre = false → f.frags = 0 →
    exec (.frameTransmitEnd p) s = .next (
      let r := at16 s (txEndQ p (port s p) f / 100)
      let g := { f with bytes := courseBytes r p (pMac (underTx (port r p) f)) k u }
      sleepEnd (emit (frameSent (modPort r p fun x => { x with txd := { x.txd with tx := none } }) p g) (.frame p f.t16 g.bytes)) p)) ∧
  (∀ p j s i o d sz a e A v, o = own s p → (port s p).inFrame = some i →
    d = i.desc → sz = i.entries.map eLen →
    j < dCount d → i.done ≤ j → courseRuns s p = true → a = posOf sz j - 28 + i.hdr → e = a + sz.getD j 0 + 2 →
    e ≤ i.bytes.length → A = i.t16 + lineQ p (port s p) * e / 100 →
    v = modPort (at16 s A) p (fun y => { y with inFrame := some { i with done := j + 1 } }) →
    (i.b + d.w3.toNat) * 65536 < A → planeAFirst s p j = false →
    exec (.brickReceive p j) s = .next (countPort v o 0x65C 1)) ∧
  (∀ p j s i o d sz a e A v, o = own s p → (port s p).inFrame = some i →
    d = i.desc → sz = i.entries.map eLen →
    j < dCount d → i.done ≤ j → courseRuns s p = true → a = posOf sz j - 28 + i.hdr → e = a + sz.getD j 0 + 2 →
    e ≤ i.bytes.length → A = i.t16 + lineQ p (port s p) * e / 100 →
    v = modPort (at16 s A) p (fun y => { y with inFrame := some { i with done := j + 1 } }) →
    A ≤ (i.b + d.w3.toNat) * 65536 → planeAFirst s p j = false →
    brickCheck (i.n % 65536) true i.f j ((i.bytes.drop a).take (sz.getD j 0)) = beAt i.bytes (e - 2) 2 →
    ¬((port v o).ccfg.plane = 3 ∧ offers v = true) →
    exec (.brickReceive p j) s = .next (
      let data := (i.bytes.drop a).take (sz.getD j 0)
      let m := mergeBrick v o p (dFirst d + j) (i.entries.getD j 0) A i.planeB data
      if m.2 && (port v o).ccfg.plane == 3 && merges v then
        sendRec m.1 (regionOfPort o) (brickRec v o i.f j i.n A true i.planeB data)
      else m.1)) ∧
  (∀ p j s, planeAFirst s p j = true → exec (.brickReceive p j) s = .next (brickIn (brickIn s (own s p) j) p j)) ∧
  (∀ p f n s, courseRuns s p = true → own s p = p → f < 4 → ¬((port s p).ccfg.plane = 3 ∧ s.twin.role = .follower) →
    exec (.arrClose p f n) s = .next (closeFrame (atNs s (closeAt s p f n)) p f (closeAt s p f n))) ∧
  (∀ p f n s, courseRuns s p = true → own s p = p → f < 4 → (port s p).ccfg.plane = 3 → s.twin.role = .follower →
    exec (.followerArrClose p f n) s = .next (closeFrame (atNs s (closeAt s p f n)) p f (closeAt s p f n))) ∧
  (∀ n s, twinRuns s = true → s.line.last = none → nowNs s < cycleStart s s.line.baseCt n + s.line.baseCt →
    exec (.lineBaseBoundary n) s = .next (
      let t := cycleStart s s.line.baseCt n
      let u := settleAxes (fwdRollback (settleAxes (breathFall (atNs s t)) (t - 1)) t) t
      let u := captureDigests (startSnapshot u n) n
      let u := pruneLogs { u with mirror := { u.mirror with load := [] }, line := { u.line with last := some n } }
      let u := rootReturn (if coresRun u then { u with twin := { u.twin with fwRefresh := t } } else u) t
      let u := if u.twin.role = .off then u else syncStep (twinPins (claimStep (handoverAt (countSilence u n) t) t) t)
      let u := if u.twin.role = .off then u else sendBreath u n
      sendMarks (trimCycle (clkoutEdge u n t)) n t)) ∧
  (∀ n s, twinRuns s = false → exec (.lineBaseBoundary n) s = .next (breathFall (releaseLead s))) ∧
  (∀ n s, twinRuns s = true → s.image.published = false → s.image.snapWriting = n % 2 ^ 32 → s.line.last.isSome = true →
    exec (.snapshotPublish n) s = .next { s with image := { s.image with snapCycle := n % 2 ^ 32, published := true, ever := true } })

/-- The reflex actions of one instant (R140): every quick-stop first, then every SET, then the safe requests and events; the
queue of actions loses them. -/
def Obligations.ReflexActionsApplyInOrder : Prop :=
  ∀ s y r, s.reflex = y :: r →
    exec .reflexActionApply s = .next (
      let now := s.reflex.takeWhile fun z => z.t16 == y.t16
      let s0 := { at16 (settleAxes s (y.t16 / 65536)) y.t16 with
        reflex := (at16 (settleAxes s (y.t16 / 65536)) y.t16).reflex.drop now.length }
      let s1 := now.foldl (fun s z =>
        if bit z.rule.w0.toNat 20 && !(actLost s z) then qstopReq s (bits z.rule.w4.toNat 13 0) 2 y.t16 else s) s0
      let sets := (now.filter fun z => bit z.rule.w0.toNat 19 && !(actLost s1 z)).map (·.rule)
      let s2 := { sets.foldl applySet s1 with image := { (sets.foldl applySet s1).image with sets := (y.t16, sets) } }
      let s3 := now.foldl (fun s z => if bit z.rule.w0.toNat 21 && !z.lostSafe then safeReq s z.port 5 else s) s2
      now.foldl (fun s z => if bit z.rule.w0.toNat 22 then raiseTraj s z.src 4 else s) s3)

/-! ### Axes, reflex rules and images -/

/-- AXIS_QUERY, DIGEST_QUERY and DIGEST_LO_READ answer without effect but the latch of the digest (R141, R144, R145); AXIS_SET stores
the settings of an OFF axis, the values of a direct axis zero (R132), and refuses otherwise; REFLEX_SET and REFLEX_ARM write and re-arm rules (R136, R139, R145); SEG_WRITE
stores segments in the ring and answers PUT (R125, R127). -/
def Obligations.AxisSettingsTakeEffect : Prop :=
  (∀ h w s d, Accepted s 0x0701 h w → fld w 0 31 14 = 0 → hasAxis s (fld w 0 13 0) = true → d = (axis s (fld w 0 13 0)).dyn →
    exec (.axisQuery h w) s = .next (deliver s h 0x0701 (.ok ([wd d.state, wd d.cause, wd d.get, wd d.put, wd d.segExp] ++
      lo64 (uns 64 d.p) ++ lo64 (uns 64 d.v) ++ lo64 (uns 64 d.a) ++
      [wd d.fired, wd d.discards, wd d.underruns, wd d.satCount])))) ∧
  (∀ h w s, Accepted s 0x0702 h w → axisSetBad s w = none → (axis s (fld w 0 13 0)).dyn.state = 0 →
    exec (.axisSet h w) s = .next (deliver (modAxis s (fld w 0 13 0) fun x => { x with
      cfg := axisCfgOf w
      dyn := if bit (prm w 0) 14 then { x.dyn with p := 0, v := 0, a := 0 } else x.dyn
      run := { x.run with lastB := none, decided := none, directAt := if bit (prm w 0) 14 then x.run.directAt else none } }) h 0x0702 .ok)) ∧
  (∀ h w s, Accepted s 0x0702 h w → axisSetBad s w = none → (axis s (fld w 0 13 0)).dyn.state ≠ 0 →
    exec (.axisSet h w) s = .next (deliver s h 0x0702 (.err stWrongState))) ∧
  (∀ h w s, Accepted s 0x0703 h w → leads s 0x0703 h = false → fld w 0 31 18 = 0 → hasAxis s (fld w 0 13 0) = true →
    (∀ x ∈ rulesOf w, ruleBad s (fld w 0 13 0) x.2 = none) →
    exec (.reflexSet h w) s = .next (deliver (modAxis s (fld w 0 13 0) fun x => { x with
      rules := (rulesOf w).foldl (fun t e => t.put e.1 e.2 {}) x.rules
      oldRules := retire x (now16 s) ((rulesOf w).map (·.1))
      dyn := { x.dyn with fired := x.dyn.fired &&& (15 ^^^ fld w 0 17 14) } }) h 0x0703 .ok)) ∧
  (∀ h w s, Accepted s 0x0704 h w → leads s 0x0704 h = false → fld w 0 31 18 = 0 → hasAxis s (fld w 0 13 0) = true →
    exec (.reflexArm h w) s = .next (deliver (modAxis s (fld w 0 13 0) fun x => { x with
      dyn := { x.dyn with fired := x.dyn.fired &&& (15 ^^^ fld w 0 17 14) } }) h 0x0704 .ok)) ∧
  (∀ h w s a n, Accepted s 0x0708 h w → a = fld w 0 13 0 → n = fld w 1 21 17 → fld w 0 31 15 = 0 → hasAxis s a = true →
    fld w 1 31 22 = 0 → 1 ≤ n → n ≤ 16 → (ddrChan s (dieOfAxis a)).trained = true →
    exec (.segWrite h w) s = .next (
      let u := (List.range n).foldl (fun t i => ddrWrite t (dieOfAxis a)
        ((axis s a).cfg.ringBase + 64 * ((fld w 1 16 0 + i) % ringLen (axis s a))) (wordsLe ((w.drop (2 + 16 * i)).take 16))) s
      let v := if bit (prm w 0) 14 then doorbell u a ((fld w 1 16 0 + n) % 131072) else u
      deliver v h 0x0708 (.ok [wd (axis v a).dyn.put]))) ∧
  (∀ h w s, Accepted s 0x0709 h w →
    exec (.digestQuery h w) s = .next (deliver s h 0x0709
      (.ok (lo64 (digest s h.region).val ++ [wd (digest s h.region).cycle])))) ∧
  (∀ r s, Reached s (regionBase r + 0xC020) →
    exec (.digestLoRead r) s = .next (
      let d := digest s r
      emit (modDigest s r fun d => { d with latHi := d.val / 2 ^ 32, latCycle := d.cycle }) (.read [wd d.val]))) ∧
  (∀ r v s a, Reached s (regionBase r + 0xC000) → accHeld s (.segPut r v) = false → a = 2048 * r + bits v.toNat 10 0 → (axis s a).cfg.direct = false →
    (bits v.toNat 27 11 + 131072 - (axis s a).dyn.get) % 131072 ≤ ringLen (axis s a) →
    segHeld (axis s a) (axis s a).dyn.get ≤ (bits v.toNat 27 11 + 131072 - (axis s a).dyn.get) % 131072 →
    exec (.segPutDb r v) s = .next (modAxis s a fun x => { x with dyn := { x.dyn with put := bits v.toNat 27 11 } }))

/-- AXIS_START, AXIS_OFF on their own and AXIS_QSTOP, where no LEADER forwards them (R114, R134, R143, R303): a start or an AXIS_OFF
that passes its checks forms its own transaction, committed at C, 20,000 ns later; at C (TXN_COMMIT_APPLY of TXID 0) a start makes the
axis ARMED with its ring position, or sets a direct axis's first boundary, and AXIS_OFF takes the axis OFF at once from ARMED and
otherwise from the first boundary 4,000 ns after C; AXIS_QSTOP acts at once; AXIS_OFF is refused in the states R114 bars, and in ARMED
where the axis runs by C. -/
def Obligations.AxisStartQstopOff : Prop :=
  (∀ h w s a x c tb, Solo s 0x0705 h w → leads s 0x0705 h = false → a = fld w 0 13 0 → x = axis s a → c = nowNs s + 20000 →
    fld w 0 31 14 = 0 → hasAxis s a = true → x.cfg.direct = false → fld w 4 31 17 = 0 → fld w 5 31 16 = 0 →
    instantAt w 1 = .ok tb → startBarred x.dyn.state = false → x.cfg.ct ≠ 0 → x.cfg.ct % s.line.baseCt = 0 →
    startsOk s [newMember s 0x0705 h w] = true → c + 8 * x.cfg.ct + 4000 ≤ (ltAt w 1).1 → segHeld x (fld w 4 16 0) ≠ 0 →
    segHeld x (fld w 4 16 0) ≤ ringLen x →
    exec (.axisStart h w) s = .next { s with txns := s.txns ++ [ownTxn s 0x0705 axisStartOp h w c] }) ∧
  (∀ h w s c u a x, OwnDue s 0x0705 h w c u → a = fld w 0 13 0 → x = axis u a → startBarred x.dyn.state = false →
    x.cfg.direct = false →
    exec (.txnCommitApply 0) s = .next (
      let v := setAxisState (modAxis u a fun x => { x with
        dyn := { x.dyn with get := fld w 4 16 0, segExp := fld w 5 15 0 }
        run := { x.run with
          s0 := (ltAt w 1).1, cache := [], qstop := none, offAt := none, leadIdx := none
          decided := x.run.decided.map fun d => { d with get := fld w 4 16 0, cache := [] } } }) a 1 x.dyn.cause
      deliver (closeTxn v 0) h 0x0705 (.rep 0 []))) ∧
  (∀ h w s a x c, Solo s 0x0705 h w → leads s 0x0705 h = false → a = fld w 0 13 0 → x = axis s a → c = nowNs s + 20000 →
    fld w 0 31 14 = 0 → hasAxis s a = true → x.cfg.direct = true → startBarred x.dyn.state = false → x.cfg.ct ≠ 0 →
    x.cfg.ct % s.line.baseCt = 0 → startsOk s [newMember s 0x0705 h w] = true →
    exec (.axisStart h w) s = .next { s with txns := s.txns ++ [ownTxn s 0x0705 axisStartOp h w c] }) ∧
  (∀ h w s c u a x, OwnDue s 0x0705 h w c u → a = fld w 0 13 0 → x = axis u a → startBarred x.dyn.state = false →
    x.cfg.direct = true →
    exec (.txnCommitApply 0) s = .next (
      let v := modAxis u a fun x => { x with run := { x.run with
        directAt := some (x.run.directAt.getD (nextB u.line.anchor x.cfg.ct (c + 4000))), offAt := none } }
      deliver (closeTxn v 0) h 0x0705 (.rep 0 []))) ∧
  (∀ h w s, Accepted s 0x0706 h w → leads s 0x0706 h = false → fld w 0 31 14 = 0 → hasAxis s (fld w 0 13 0) = true →
    exec (.axisQstop h w) s = .next (deliver (qstopReq s (fld w 0 13 0) 1 (now16 s)) h 0x0706 .ok)) ∧
  (∀ h w s a x, Solo s 0x0707 h w → leads s 0x0707 h = false → a = fld w 0 13 0 → x = axis s a → fld w 0 31 14 = 0 →
    hasAxis s a = true → x.dyn.state ≠ 2 → x.dyn.state ≠ 4 →
    ¬(x.dyn.state = 1 ∧ nextB s.line.anchor x.cfg.ct x.run.s0 ≤ nowNs s + 20000) →
    exec (.axisOff h w) s = .next { s with txns := s.txns ++ [ownTxn s 0x0707 axisOffOp h w (nowNs s + 20000)] }) ∧
  (∀ h w s c u a x, OwnDue s 0x0707 h w c u → a = fld w 0 13 0 → x = axis u a →
    x.dyn.state = 3 ∨ x.dyn.state = 5 ∨ x.dyn.state = 6 →
    exec (.txnCommitApply 0) s = .next (
      let v := modAxis u a fun x => { x with run := { x.run with
        offAt := some (nextB u.line.anchor x.cfg.ct (c + 4000)), directAt := none } }
      deliver (closeTxn v 0) h 0x0707 (.rep 0 []))) ∧
  (∀ h w s c u a x, OwnDue s 0x0707 h w c u → a = fld w 0 13 0 → x = axis u a → x.dyn.state = 1 →
    exec (.txnCommitApply 0) s = .next (
      let v := setAxisState (modAxis u a fun x => { x with run := { x.run with decided := none, cache := [] } }) a 0 x.dyn.cause
      deliver (closeTxn v 0) h 0x0707 (.rep 0 []))) ∧
  (∀ h w s c u, OwnDue s 0x0707 h w c u → (axis u (fld w 0 13 0)).dyn.state = 0 →
    exec (.txnCommitApply 0) s = .next (deliver (closeTxn u 0) h 0x0707 (.rep 0 []))) ∧
  (∀ h w s, Solo s 0x0707 h w → fld w 0 31 14 = 0 → hasAxis s (fld w 0 13 0) = true →
    (axis s (fld w 0 13 0)).dyn.state = 2 ∨ (axis s (fld w 0 13 0)).dyn.state = 4 →
    exec (.axisOff h w) s = .next (deliver s h 0x0707 (.err stWrongState))) ∧
  (∀ h w s a x, Solo s 0x0707 h w → a = fld w 0 13 0 → x = axis s a → fld w 0 31 14 = 0 → hasAxis s a = true → x.dyn.state = 1 →
    nextB s.line.anchor x.cfg.ct x.run.s0 ≤ nowNs s + 20000 →
    exec (.axisOff h w) s = .next (deliver s h 0x0707 (.err stWrongState)))

/-- A quick-stop request (R134) takes an axis in ARMED, RUNNING, ENDED or DIRECT to QSTOP with its cause and raises the event, and
leaves an axis in OFF, QSTOP or STOPPED, with everything else, as it was. -/
def Obligations.QuickStopActsOnMovingAxesOnly : Prop :=
  (∀ s a cause t, (axis s a).dyn.state = 0 ∨ (axis s a).dyn.state = 4 ∨ (axis s a).dyn.state = 5 → qstopReq s a cause t = s) ∧
  (∀ s a cause t, (axis s a).dyn.state = 1 ∨ (axis s a).dyn.state = 2 ∨ (axis s a).dyn.state = 3 ∨ (axis s a).dyn.state = 6 →
    (axis (qstopReq s a cause t) a).dyn.state = 4 ∧ (axis (qstopReq s a cause t) a).dyn.cause = cause ∧
    ∀ b, b ≠ a → axis (qstopReq s a cause t) b = axis s b)

/-- The instants of an axis (R84, R85, R114, R116, R128, R141, R254): 2,000 ns before a boundary what it will do is decided; at the boundary
the decision takes effect; a segment is fetched and cached; a digest is published; and a word written to the staging entry of a
direct axis is stored there, of another axis discarded and counted. -/
def Obligations.AxisInstantsTakePlace : Prop :=
  (∀ a n s b, b = cycleStart s (axis s a).cfg.ct n → (axis s a).cfg.ct ≠ 0 → engineRuns s a = true → nowNs s < b + (axis s a).cfg.ct →
    (axis s a).run.lastB.any (b ≤ ·) = false →
    ((decide_ (atNs s (b - 2000)) a b).fault.any (· ≤ 6)) = false →
    exec (.axisDecisionInstant a n) s = .next (
      let u := atNs s (b - 2000)
      leadTest (modAxis u a fun x => { x with run := { x.run with decided := some (decide_ u a b) } }) a (b - 2000))) ∧
  (∀ a n s b, b = cycleStart s (axis s a).cfg.ct n → (axis s a).cfg.ct ≠ 0 → engineRuns s a = true →
    (axis s a).run.lastB ≠ some b →
    exec (.axisBoundary a n) s = .next (axisBoundaryAt s a b)) ∧
  (∀ a s i b, i = (axis s a).dyn.get + (axis s a).run.cache.length → b = segBytes s a (i % 131072) →
    (axis s a).dyn.state = 1 ∨ (axis s a).dyn.state = 2 → engineRuns s a = true →
    (ddrChan s (dieOfAxis a)).trained = true → (axis s a).run.cache = [] → 0 < segHeld (axis s a) (axis s a).dyn.get →
    segOk b = true → (segOf b).seq = (axis s a).dyn.segExp →
    exec (.segmentFetch a true) s = .next (modAxis s a fun x => { x with
      dyn := { x.dyn with segExp := ((segOf b).seq + 1) % 65536 }
      run := { x.run with
        cache := x.run.cache ++ [.seg (segOf b)]
        decided := x.run.decided.map fun d => { d with cache := d.cache ++ [.seg (segOf b)] } } })) ∧
  (∀ r n s c, (digest s r).cap = some c → c.1 = n % 2 ^ 32 → regionRuns s r = true → clocksRun s = true → s.twin.role = .off →
    exec (.digestPublish r n) s = .next (modDigest s r fun d => { d with val := c.2, cycle := c.1, cap := none })) ∧
  (∀ ofs data s a, a = (ofs - 0x600000) / 64 → 0x600000 ≤ ofs → ofs < 0x700000 → hasAxis s a = true →
    regionRuns s (regionOfAxis a) = true → dieRuns s 0 = true → clocksRun s = true → s.sec.bootState = 5 → ofs % 4 = 0 →
    accHeld s (.staging ofs data true) = false →
    data ≠ [] → (ofs - 0x600000) % 64 + 4 * data.length ≤ 64 → (axis s a).cfg.direct = true → s.twin.role ≠ .follower →
    exec (.stagingWrite ofs data true) s = .next (stagingPut s a ((ofs - 0x600000) % 64) (wordsLe data))) ∧
  (∀ ofs data s a, a = (ofs - 0x600000) / 64 → 0x600000 ≤ ofs → ofs < 0x700000 → hasAxis s a = true →
    regionRuns s (regionOfAxis a) = true → dieRuns s 0 = true → clocksRun s = true → s.sec.bootState = 5 → ofs % 4 = 0 →
    accHeld s (.staging ofs data true) = false →
    data ≠ [] → (ofs - 0x600000) % 64 + 4 * data.length ≤ 64 → (axis s a).cfg.direct = false →
    exec (.stagingWrite ofs data true) s = .next (
      let d := (axis s a).dyn.discards
      raiseTraj (count (axisHalf
        (modAxis s a fun x => { x with dyn := { x.dyn with discards := sat32 (x.dyn.discards + 1) } }) a d (d + 1))
        (regionBase (regionOfAxis a) + 0xC044) 1) a 6))

/-! ### Flows -/

/-- FLOW_QUERY by ID and by key, FLOW_COUNT_READ and FLOW_TABLE_QUERY answer the contexts, the counters (cleared in the same
instant with CLEAR) and the table's use (R199, R203); a key that names an absent port is TARGET_ABSENT (R2). -/
def Obligations.FlowQueriesAnswer : Prop :=
  (∀ h w s, Accepted s 0x0801 h w → prm w 0 = 0 → fld w 1 31 20 = 0 → hasFlow s (prm w 1) = true →
    dieOfFlow (prm w 1) = h.die →
    exec (.flowQuery h w) s = .next (deliver s h 0x0801 (.ok (ctxWords (flow s (prm w 1)))))) ∧
  (∀ h w s f, Accepted s 0x0801 h w → prm w 0 = 1 → matchOf s h.die (wordsLe ((w.drop 1).take 5)) = some f →
    exec (.flowQuery h w) s = .next (deliver s h 0x0801 (.ok (ctxWords (flow s f))))) ∧
  (∀ h w s, Accepted s 0x0801 h w → prm w 0 = 1 → matchOf s h.die (wordsLe ((w.drop 1).take 5)) = none →
    exec (.flowQuery h w) s = .next (deliver s h 0x0801 (.err stAbsent 2))) ∧
  (∀ h w s, Accepted s 0x0808 h w → countBad w (2 ^ 31) = none →
    idsBad (fld w 0 4 0) 20 (hasFlow s) dieOfFlow h w 1 = none →
    (∀ f ∈ idsOf 19 w, cKind (flow s f) = 5 ∨ cKind (flow s f) = 6) →
    exec (.flowCountRead h w) s = .next (deliver
      (if bit (prm w 0) 31 then (idsOf 19 w).foldl (fun t f => setFlow t f { w0 := (flow t f).w0 }) s else s) h 0x0808
      (.ok ((idsOf 19 w).flatMap fun f => ctxWords (flow s f))))) ∧
  (∀ h w s, Accepted s 0x0809 h w → fld w 0 31 1 = 0 → bit (prm w 0) 0 = true → beAt (wordsLe ((w.drop 1).take 5)) 0 2 < 520 →
    hasPort s (beAt (wordsLe ((w.drop 1).take 5)) 0 2) = false →
    exec (.flowTableQuery h w) s = .next (deliver s h 0x0809 (.err stAbsent 2))) ∧
  (∀ h w s, Accepted s 0x0809 h w → fld w 0 31 1 = 0 →
    ¬(bit (prm w 0) 0 = true ∧ beAt (wordsLe ((w.drop 1).take 5)) 0 2 < 520 ∧
      hasPort s (beAt (wordsLe ((w.drop 1).take 5)) 0 2) = false) →
    exec (.flowTableQuery h w) s = .next (deliver s h 0x0809 (.ok [wd (524288 - (dieFlows s h.die).length),
      if bit (prm w 0) 0 then wd (bucketUsed s [] h.die (bucket1 (wordsLe ((w.drop 1).take 5))) +
        16 * bucketUsed s [] h.die (bucket2 (wordsLe ((w.drop 1).take 5)))) else 0])))

/-- FLOW_ADD, FLOW_WRITE and FLOW_DELETE on their own place, rewrite and free contexts when every check of R202 passes, FLOW_ADD
answering the IDs (R175, R176, R203); FLOW_PORT_SET and FLOW_LATENT_SET store settings (R181, R198); FLOW_RECOV_RESET forms its own
transaction and resets each named recovery at C, 20,000 ns later (R192, R303); the sweep's visits and the end of its pass do their work (R178, R195, R199). -/
def Obligations.FlowCommandsTakeEffect : Prop :=
  (∀ h w s l x, Solo s 0x0802 h w → countBad w 0 = none → (∀ i < fld w 0 4 0, fld w (1 + 9 * i) 23 3 = 0) →
    l = (List.range (fld w 0 4 0)).map (carried w) → (∀ y ∈ l, ctxCheck1 y.2.2 y.2.1 = true) →
    localsIn w = true → carriedAbsent s w 7 = none → placesOf h w (l.map (·.2.2)) s = some x → flowChecks (resolve x.2 w x.1) h.die = none →
    exec (.flowAdd h w) s = .next (deliver (resolve x.2 w x.1) h 0x0802 (.rep (smallBurst w) (x.2.map wd)))) ∧
  (∀ h w s l t, Solo s 0x0803 h w → countBad w 32 = none → idsBad (fld w 0 4 0) 20 (hasFlow s) dieOfFlow h w 9 = none →
    l = ((List.range (fld w 0 4 0)).map fun i => (fld w (1 + 9 * i) 19 0, (carried w i).2)) →
    (∀ x ∈ l, ctxCheck1 x.2.2 x.2.1 = true ∧ cKind x.2.2 = cKind (flow s x.1)) →
    carriedAbsent s w 0 = none → t = l.foldl (fun u x => writeCtx u (bit (prm w 0) 5) x.1 x.2.2) s → flowChecks t h.die = none →
    exec (.flowWrite h w) s = .next (deliver t h 0x0803 (.rep (smallBurst w) []))) ∧
  (∀ h w s t, Solo s 0x0804 h w → countBad w 0 = none → idsBad (fld w 0 4 0) 20 (hasFlow s) dieOfFlow h w 1 = none →
    deleteAll (idsOf 19 w) 2 s = .ok t →
    exec (.flowDelete h w) s = .next (deliver t h 0x0804 (.rep 0 []))) ∧
  (∀ h w s, Accepted s 0x0805 h w → fld w 0 31 23 = 0 → profOk (fld w 0 2 0) (fld w 0 10 3) = true →
    profOk (fld w 0 13 11) (fld w 0 21 14) = true → fld w 1 31 20 = 0 →
    (bit (prm w 0) 22 = true →
      hasFlow s (fld w 1 19 0) = true ∧ cKind (flow s (fld w 1 19 0)) = 2 ∧ dieOfFlow (fld w 1 19 0) = dieOfPort h.port) →
    exec (.flowPortSet h w) s = .next (deliver
      (modPort s h.port fun x => { x with ident := { w0 := w.getD 0 0, dflt := fld w 1 19 0 } }) h 0x0805 .ok)) ∧
  (∀ h w s, Accepted s 0x0806 h w → fld w 0 31 7 = 0 → 2 ≤ fld w 0 6 3 → fld w 0 6 3 ≤ 8 → fld w 1 31 24 = 0 →
    fld w 1 23 16 ≠ 0 → fld w 2 31 8 = 0 → fld w 2 7 0 ≠ 0 →
    exec (.flowLatentSet h w) s = .next (deliver { s with traffic := { s.traffic with
      latent := s.traffic.latent.put (8 * h.die + fld w 0 2 0)
        { paths := fld w 0 6 3, diff := fld w 1 15 0, test := fld w 1 23 16, reset := fld w 2 7 0 } {} } } h 0x0806 .ok)) ∧
  (∀ h w s, Solo s 0x0807 h w → countBad w 0 = none → idsBad (fld w 0 4 0) 20 (hasFlow s) dieOfFlow h w 1 = none →
    (∀ f ∈ idsOf 19 w, cKind (flow s f) = 4) →
    exec (.flowRecovReset h w) s =
      .next { s with txns := s.txns ++ [ownTxn s 0x0807 flowRecovResetOp h w (nowNs s + 20000)] }) ∧
  (∀ h w s c u, OwnDue s 0x0807 h w c u →
    exec (.txnCommitApply 0) s = .next (deliver (closeTxn ((idsOf 19 w).foldl recovReset u) 0) h 0x0807 (.rep 0 []))) ∧
  (∀ f s, dieRuns s (dieOfFlow f) = true → clocksRun s = true → cKind (flow s f) = 4 → rcAny (flow s f) = false →
    bits (flow s f).w3.toNat 10 0 * 1000000 ≤ (shortNs s + 2 ^ 32 - (flow s f).w4.toNat) % 2 ^ 32 →
    exec (.sweepVisit (.flow f)) s = .next (recovReset s f)) ∧
  (∀ f s, dieRuns s (dieOfFlow f) = true → clocksRun s = true → cKind (flow s f) = 2 → stPol (flow s f) = true →
    exec (.sweepVisit (.flow f)) s = .next (refreshStream s f)) ∧
  (∀ q s, dieRuns s (dieOfQueue q) = true → clocksRun s = true → exec (.sweepVisit (.queue q)) s = .next (sweepQueue s q)) ∧
  (∀ d s, dieRuns s d = true → clocksRun s = true →
    exec (.sweepPassEnd d) s = .next (
      let u := (dieFlows s d).foldl (fun t e => latentTest t (fdie s d).sweepNo e.1) s
      modFdie u d fun x => { x with sweepNo := ((fdie s d).sweepNo + 1) % 2 ^ 32 }))

/-- The recovery algorithms decide as R193 and R194 say: a number not seen within the history passes and one that was is discarded;
the policer passes a frame if and only if its tokens cover it (R187). -/
def Obligations.RecoveryAndPolicerDecide : Prop :=
  (∀ s f n, rcAny (flow s f) = true → (recovVector s f n).2 = true ∧ (recovMatch s f n).2 = true) ∧
  (∀ s f n, rcAny (flow s f) = false →
    ((recovVector s f n).2 = true ↔
      -(rcH (flow s f) : Int) < seqDist n (bits (flow s f).w1.toNat 15 0) ∧
      seqDist n (bits (flow s f).w1.toNat 15 0) < rcH (flow s f) ∧
      (seqDist n (bits (flow s f).w1.toNat 15 0) ≤ 0 →
        bit (flow s f).w2.toNat (-(seqDist n (bits (flow s f).w1.toNat 15 0))).toNat = false))) ∧
  (∀ s f n, rcAny (flow s f) = false → ((recovMatch s f n).2 = true ↔ n ≠ bits (flow s f).w1.toNat 15 0)) ∧
  (∀ s f n, stPol (flow s f) = false → police s f n = (s, true)) ∧
  (∀ s f n, stPol (flow s f) = true →
    ((police s f n).2 = true ↔ n * 256 ≤ (flow (refreshStream s f) f).w7.toNat))

/-! ### Queues, buffers, egress and ingress -/

/-- QUEUE_QUERY and BUFFER_QUERY answer (R206, R227); QUEUE_WRITE, SERVICE_SET and PORT_SHAPE_SET on their own store settings that pass
R223, a change resetting the shapers concerned (R210); QUEUE_FLUSH empties the named queues (R223); BUFFER_SET and INGRESS_SET store a
die's pools and a port's marks (R218, R220 to R222). -/
def Obligations.QueueCommandsTakeEffect : Prop :=
  (∀ h w s, Accepted s 0x0901 h w → countBad w 0 = none → idsBad (fld w 0 4 0) 18 (hasQueue s) dieOfQueue h w 1 = none →
    exec (.queueQuery h w) s = .next (deliver s h 0x0901
      (.ok ((List.range (fld w 0 4 0)).flatMap fun i => queueWords s (fld w (1 + i) 17 0))))) ∧
  (∀ h w s, Solo s 0x0902 h w → countBad w (2 ^ 31) = none → idsBad (fld w 0 4 0) 18 (hasQueue s) dieOfQueue h w 5 = none →
    (∀ i < fld w 0 4 0, fld w (1 + 5 * i) 23 18 = 0) → queueWriteBad s w = none →
    exec (.queueWrite h w) s = .next (deliver ((queuesOfCmd w).foldl (writeQueue (bit (prm w 0) 31)) s) h 0x0902
      (.rep (if (queuesOfCmd w).any fun x => x.2.shape && x.2.burst == 0 then 8 else 0) []))) ∧
  (∀ h w s, Accepted s 0x0903 h w → countBad w 0 = none → idsBad (fld w 0 4 0) 18 (hasQueue s) dieOfQueue h w 1 = none →
    exec (.queueFlush h w) s = .next (deliver
      ((List.range (fld w 0 4 0)).foldl (fun t i => flushQueue t (fld w (1 + i) 17 0)) s) h 0x0903 .ok)) ∧
  (∀ h w s c, Solo s 0x0904 h w → c = svcOf w → fld w 0 30 17 = 0 → c.sweight ≠ 0 → c.meter = 0 → fld w 1 31 8 = 0 →
    fld w 4 31 8 = 0 → fld w 6 31 8 = 0 → c.burst < 2 ^ 24 → c.credit < 2 ^ 24 → c.cir < 2 ^ 24 → c.pir < 2 ^ 24 →
    (c.on = true → c.credit ≠ 0) → (c.maxY ≠ 0 → c.maxG ≠ 0 → c.maxY ≤ c.maxG) → c.sched = false →
    exec (.serviceSet h w) s = .next (deliver (writeSvc (bit (prm w 0) 31) s h.port (fld w 0 2 0) c) h 0x0904
      (.rep (if c.on && c.burst == 0 then 8 else 0) []))) ∧
  (∀ h w s c, Solo s 0x0905 h w → c = pshapeOf w → fld w 0 30 1 = 0 → fld w 1 31 8 = 0 → c.burst < 2 ^ 24 → c.credit < 2 ^ 24 →
    (c.on = true → c.credit ≠ 0) →
    exec (.portShapeSet h w) s = .next (deliver (writeShape (bit (prm w 0) 31) s h.port c) h 0x0905
      (.rep (if c.on && c.burst == 0 then 8 else 0) []))) ∧
  (∀ h w s, Accepted s 0x0906 h w → prm w 0 ≤ 393216 → prm w 2 < prm w 1 → prm w 1 + prm w 0 ≤ 393216 → prm w 5 ≤ 2048 →
    w64 w 3 % 2 ^ 20 = 0 → (prm w 5 ≠ 0 → w64 w 3 + prm w 5 * 2 ^ 20 ≤ ddrBytes s h.die) → spillUsed s h.die = 0 →
    exec (.bufferSet h w) s = .next (
      let b : BufCfg := { schedRes := prm w 0, spillOn := prm w 1, spillOff := prm w 2, spillBase := w64 w 3, spillSize := prm w 5 }
      deliver (updateSpilling { s with traffic := { s.traffic with buf := s.traffic.buf.put h.die b {} } } h.die) h 0x0906 .ok)) ∧
  (∀ h w s, Accepted s 0x0906 h w → prm w 0 ≤ 393216 → prm w 2 < prm w 1 → prm w 1 + prm w 0 ≤ 393216 → prm w 5 ≤ 2048 →
    w64 w 3 % 2 ^ 20 = 0 → (prm w 5 ≠ 0 → w64 w 3 + prm w 5 * 2 ^ 20 ≤ ddrBytes s h.die) → spillUsed s h.die ≠ 0 →
    exec (.bufferSet h w) s = .next (deliver s h 0x0906 (.err stWrongState))) ∧
  (∀ h w s, Accepted s 0x0907 h w → fld w 0 31 26 = 0 → fld w 0 1 0 = 0 → (port s h.port).ing.mode ≠ 0 →
    exec (.ingressSet h w) s = .next (deliver (modPort s h.port fun x => { x with
      ing := { mode := 0, mask := fld w 0 9 2, pauseTime := fld w 0 25 10, hi := prm w 1, lo := prm w 2, max := prm w 3 }
      txd := { x.txd with xoff := 0, refresh := [] } }) h 0x0907 .ok)) ∧
  (∀ h w s, Accepted s 0x0907 h w → fld w 0 31 26 = 0 → fld w 0 1 0 = 0 → (port s h.port).ing.mode = 0 →
    (port s h.port).ing.mask = fld w 0 9 2 →
    exec (.ingressSet h w) s = .next (deliver (modPort s h.port fun x => { x with
      ing := { mode := 0, mask := fld w 0 9 2, pauseTime := fld w 0 25 10, hi := prm w 1, lo := prm w 2, max := prm w 3 } })
      h 0x0907 .ok)) ∧
  (∀ h w s c, Accepted s 0x0907 h w → fld w 0 31 26 = 0 → fld w 0 1 0 = 1 → prm w 2 < prm w 1 →
    (prm w 3 ≠ 0 → prm w 1 ≤ prm w 3) → fld w 0 25 10 ≠ 0 →
    (port s h.port).ing.mode ≠ 1 →
    c = ({ mode := 1, mask := fld w 0 9 2, pauseTime := fld w 0 25 10, hi := prm w 1, lo := prm w 2, max := prm w 3 } : Ingress) →
    exec (.ingressSet h w) s = .next (deliver (acctUpdate (modPort s h.port fun x => { x with
      ing := c, txd := { x.txd with xoff := 0, refresh := [] } }) h.port 0) h 0x0907 .ok)) ∧
  (∀ h w s, Accepted s 0x0908 h w → h.scope = 1 →
    exec (.bufferQuery h w) s = .next (deliver s h 0x0908
      (.ok [wd (tmReg s h.die 0), wd (tmReg s h.die 4), wd (tmReg s h.die 8)])))

/-- What a port sends and takes (R158, R163, R167 to R169, R179, R208, R213, R215, R220): a decision on a line that is busy with an express
frame starts nothing, a preemptible one is cut for an express frame that is ready; the MAC control frame that waits goes first, then the
express candidate that was chosen; a transmission ends at its own instant; a spilled frame is read back;
a frame on the pins of a port that receives goes through the MAC; a verify mPacket is answered where the port may send and a preemptible frame reassembled; at the
end of its identification fields a frame of a STREAM with CUT is policed, numbered and cut through to each port that is free. -/
def Obligations.PortsSendAndReceive : Prop :=
  (∀ p s u f, canSend (settleTx s p) p = true →
    u = (List.range 8).foldl (fun t k => testLengths t p k) (refreshShapers (settleTx s p) p) →
    (port u p).txd.tx = some f → f.pre = false → exec (.egressSelect p) s = .next u) ∧
  (∀ p s u f c, canSend (settleTx s p) p = true →
    u = (List.range 8).foldl (fun t k => testLengths t p k) (refreshShapers (settleTx s p) p) →
    (port u p).txd.tx = some f → f.pre = true → chooseFrom u p (now16 u * 100) false = some c →
    exec (.egressSelect p) s = .next (modPort u p fun x => cutTx p x (now16 u))) ∧
  (∀ p s u f, canSend (settleTx s p) p = true →
    u = (List.range 8).foldl (fun t k => testLengths t p k) (refreshShapers (settleTx s p) p) →
    (port u p).txd.tx = none → (port u p).txd.lineFree ≤ now16 u → (port u p).link.sleeping = false →
    (port u p).txd.mac = some f →
    keepsLaunch u p (lineQ p (port u p)) (now16 u * 100) (now16 u * 100 + lineQ p (port u p) * (f.length + 20)) = true →
    exec (.egressSelect p) s = .next (startTx (modPort u p fun x => { x with txd := { x.txd with mac := none } }) p
      { bytes := withSa (port u p) f, t16 := now16 u, cls := 8, now := f.length })) ∧
  (∀ p s u c, canSend (settleTx s p) p = true →
    u = (List.range 8).foldl (fun t k => testLengths t p k) (refreshShapers (settleTx s p) p) →
    (port u p).txd.tx = none → (port u p).txd.lineFree ≤ now16 u → (port u p).link.sleeping = false → (port u p).txd.mac = none →
    chooseFrom u p (now16 u * 100) false = some c →
    exec (.egressSelect p) s = .next (startCand u p c.1 c.2.1 c.2.2)) ∧
  (∀ p s u f, canSend (settleTx s p) p = true →
    u = (List.range 8).foldl (fun t k => testLengths t p k) (refreshShapers (settleTx s p) p) →
    (port u p).txd.tx = none → (port u p).txd.lineFree ≤ now16 u → (port u p).link.sleeping = true → (port u p).txd.pend = some f →
    holdAt u p (now16 u * 100) = false →
    openThrough (port u p) f.cls (now16 u * 100) (now16 u * 100 + fragQ p (port u p) (f.bytes.length - f.sent)) = true →
    keepsLaunch u p (lineQ p (port u p)) (now16 u * 100)
      (now16 u * 100 + fragQ p (port u p) (f.bytes.length - f.sent) + 12 * lineQ p (port u p)) = true →
    exec (.egressSelect p) s = .next (startTx (modPort u p fun x => { x with txd := { x.txd with pend := none } }) p
      { f with t16 := now16 u, now := f.bytes.length - f.sent })) ∧
  (∀ p s f, (port s p).txd.tx = some f → f.now ≠ 0 → exec (.frameTransmitEnd p) s = .next (endTx s p)) ∧
  (∀ q s c i, (copies s q).zipIdx.find? (fun x => x.1.spilled) = some (c, i) → i < 4 →
    (ddrChan s (dieOfQueue q)).trained = true → (frameAt s c.frame).copies = 0 →
    cellsOf (frameAt s c.frame).bytes.length ≤ 393216 - (bufCfg s (dieOfQueue q)).schedRes - sharedUsed s (dieOfQueue q) →
    exec (.spillReadback q) s = .next (
      let g := { frameAt s c.frame with
        copies := (frameAt s c.frame).copies + 1, shared := cellsOf (frameAt s c.frame).bytes.length }
      let u := acctFrame (updateSpilling (setCopies (setFrame (updateSpilling s (dieOfQueue q)) c.frame g)
        q ((copies s q).set i { c with spilled := false })) (dieOfQueue q)) g
      if i = 0 then testHead u q else u)) ∧
  (∀ p t b e s, receives s p = true →
    exec (.frameReceive p t b e) s = .next (frameIn (if e then countPort s p 0x154 1 else s) p t
      (t + lineQ p (port (if e then countPort s p 0x154 1 else s) p) * b.length / 100) b)) ∧
  (∀ p t b e s, receives s p = false → exec (.frameReceive p t b e) s = .next s) ∧
  (∀ p t s, receives s p = true → peEn (port s p) = true → canSend (at16 s t) p = true →
    exec (.mpacketReceive p t .verify) s = .next (emit (at16 s t) (.mpacket p (now16 (at16 s t)) .respond))) ∧
  (∀ p t s, receives s p = true → canSend (at16 s t) p = false → exec (.mpacketReceive p t .verify) s = .next (at16 s t)) ∧
  (∀ p t d s, receives s p = true →
    exec (.mpacketReceive p t (.start d false false)) s = .next
      (modPort (at16 s t) p fun x => { x with txd := { x.txd with asm := some (d, 0, t, false) } })) ∧
  (∀ p t d s, receives s p = true →
    exec (.mpacketReceive p t (.start d true false)) s = .next
      (frameIn (modPort (at16 s t) p fun x => { x with txd := { x.txd with asm := none } }) p t
        (t + lineQ p (port s p) * d.length / 100) d)) ∧
  (∀ p t hd s, hd.length < max (headEnd p (port s p) hd) (idEnd (port s p) hd) →
    exec (.cutThroughDecision p t hd) s = .next s) ∧
  (∀ p t hd s f, streamOf s p hd = some f → cKind (flow s f) = 2 → stCut (flow s f) = false →
    (port s p).oldSets.all (·.1 ≤ t) = true →
    exec (.cutThroughDecision p t hd) s = .next s) ∧
  (∀ p t hd s f c u ch y, streamOf s p hd = some f → c = flow s f → cKind c = 2 → stCut c = true → isCourseFrame hd = false →
    beAt hd (typeAt hd) 2 ≠ 0x8808 → beAt hd (typeAt hd) 2 ≠ 0x88B5 → isPtp (port s p) hd = false →
    (port s p).txd.cutIn = none → receives s p = true → idEnd (port s p) hd ≤ hd.length → isTwinFrame p hd = false →
    headEnd p (port s p) hd ≤ hd.length →
    (port s p).oldSets.all (·.1 ≤ t) = true →
    u = countCtx (identify (at16 s (t + lineQ p (port s p) * idEnd (port s p) hd / 100)) p hd).1 f (stCnt c) 1 1 →
    ch = (if stMaxSdu c = 0 then 1522 else stMaxSdu c) → y = police u f ch → y.2 = false →
    exec (.cutThroughDecision p t hd) s = .next
      (modPort y.1 p fun x => { x with txd := { x.txd with cutIn := some { t16 := t, flow := f, ctx := c, drop := true } } })) ∧
  (∀ p t hd s f c u ch y z, streamOf s p hd = some f → c = flow s f → cKind c = 2 → stCut c = true → isCourseFrame hd = false →
    beAt hd (typeAt hd) 2 ≠ 0x8808 → beAt hd (typeAt hd) 2 ≠ 0x88B5 → isPtp (port s p) hd = false →
    (port s p).txd.cutIn = none → receives s p = true → idEnd (port s p) hd ≤ hd.length → isTwinFrame p hd = false →
    headEnd p (port s p) hd ≤ hd.length →
    (port s p).oldSets.all (·.1 ≤ t) = true →
    u = countCtx (identify (at16 s (t + lineQ p (port s p) * idEnd (port s p) hd / 100)) p hd).1 f (stCnt c) 1 1 →
    ch = (if stMaxSdu c = 0 then 1522 else stMaxSdu c) → y = police u f ch → y.2 = true → z = genSeq y.1 f (numOf c f hd) →
    egressSet z.1 f ≠ [] →
    exec (.cutThroughDecision p t hd) s = .next (
      let r := decideCopies (countCtx z.1 f (stCnt c) 6 1) p f c z.2 (numOf c f hd).isSome hd
      let i : CutIn := { t16 := t, flow := f, ctx := c, num := z.2, charge := if stPol c then some ch else none,
                         strip := (numOf c f hd).isSome, key := z.1.traffic.nextKey
                         tag := countTag (countCtx z.1 f (stCnt c) 6 1) f, cuts := r.2.1, stores := r.2.2 }
      modPort r.1 p fun x => { x with txd := { x.txd with cutIn := some i } }))

/-! ### Twins -/

/-- TWIN_QUERY answers the twin registers (R279); TWIN_SET stores the partner's settings of a package in OFF; TWIN_FOLLOW, TWIN_LEAD,
TWIN_OFF, TWIN_SYNC and TWIN_HANDOVER act in the roles R253, R255, R269, R270 and R278 give them and are refused in others; a handover is
its own transaction, its boundary set at C, 20,000 ns later (R303). -/
def Obligations.TwinCommandsTakeEffect : Prop :=
  (∀ h w s, Accepted s 0x0A01 h w →
    exec (.twinQuery h w) s = .next (deliver s h 0x0A01 (.ok ((List.range 11).map fun i => wd (twinReg s (4 * i)))))) ∧
  (∀ h w s, Accepted s 0x0A02 h w → s.twin.role = .off → fld w 0 31 9 = 0 → 4 ≤ fld w 0 8 1 → fld w 1 31 18 = 0 →
    fld w 3 31 16 = 0 → fld w 5 31 16 = 0 → fld w 7 31 16 = 0 → fld w 9 31 16 = 0 →
    ((List.range (nDies s)).all fun d => twinLoadOk s d [] []) = true →
    exec (.twinSet h w) s = .next (
      let us := (twinUplinks s).zipIdx
      let t := { s with twin := { s.twin with
        set := true
        sideB := bit (prm w 0) 0, k := fld w 0 8 1, partnerDev := fld w 1 17 0
        partnerMac := us.foldl (fun t x => t.put x.1 (w.getD (2 + 2 * x.2) 0, w.getD (3 + 2 * x.2) 0) (0, 0)) s.twin.partnerMac } }
      deliver (us.foldl (fun t x => peChanged t (restartVerify
        (modPort t (512 + x.1) fun y => { y with pre := { y.pre with cfg := twinPreempt y.pre.cfg } }) (512 + x.1)) (512 + x.1)) t)
        h 0x0A02 .ok)) ∧
  (∀ h w s, Accepted s 0x0A02 h w → s.twin.role ≠ .off →
    exec (.twinSet h w) s = .next (deliver s h 0x0A02 (.err stWrongState))) ∧
  (∀ h w s b, Accepted s 0x0A03 h w → s.twin.role = .off ∨ s.twin.role = .follower → s.line.last = none →
    b = nextLine s (nowNs s) → claimLive (atNs s b) = false →
    exec (.twinLead h w) s = .next (deliver
      (setRole { atNs s b with twin := { (atNs s b).twin with claimAt := b, viaLoss := false } } .claiming) h 0x0A03 .ok)) ∧
  (∀ h w s b, Accepted s 0x0A03 h w → s.twin.role = .off ∨ s.twin.role = .follower → s.line.last = none →
    b = nextLine s (nowNs s) → claimLive (atNs s b) = true →
    exec (.twinLead h w) s = .next (deliver (raise (atNs s b) 0x60004 2) h 0x0A03 (.err stWrongState))) ∧
  (∀ h w s, Accepted s 0x0A04 h w → s.twin.role = .off →
    exec (.twinFollow h w) s = .next (deliver (setRole s .follower) h 0x0A04 .ok)) ∧
  (∀ h w s, Accepted s 0x0A04 h w → s.twin.role ≠ .off →
    exec (.twinFollow h w) s = .next (deliver s h 0x0A04 (.err stWrongState))) ∧
  (∀ h w s tb, Solo s 0x0A05 h w → instantAt w 0 = .ok tb → isBoundary s s.line.baseCt tb = true → s.twin.role = .leader →
    bit s.twin.partner 2 = true →
    exec (.twinHandover h w) s = .next { s with txns := s.txns ++ [ownTxn s 0x0A05 twinHandoverOp h w (nowNs s + 20000)] }) ∧
  (∀ h w s c u, OwnDue s 0x0A05 h w c u → u.twin.role = .leader →
    exec (.txnCommitApply 0) s = .next (
      let b := firstAt (ltAt w 0).1 u.line.baseCt (c + 4000)
      let v := { u with mirror := { u.mirror with handover := some b.1 } }
      deliver (closeTxn (if b.1 ≤ c + 8 * u.line.baseCt then sendHandover v b.1 else v) 0) h 0x0A05
        (.rep (lateBit (sat32 b.2)) [wd (sat32 b.2)]))) ∧
  (∀ h w s c u, OwnDue s 0x0A05 h w c u → u.twin.role ≠ .leader →
    exec (.txnCommitApply 0) s = .next (deliver (closeTxn u 0) h 0x0A05 (.err stTxnPartial))) ∧
  (∀ h w s, Accepted s 0x0A06 h w → s.twin.role = .leader →
    exec (.twinSync h w) s = .next (deliver { s with mirror := { s.mirror with
      syncing := true, syncQ := (s.axes.filter fun e => e.2.dyn.state != 0).map (·.1) } } h 0x0A06 .ok)) ∧
  (∀ h w s, Accepted s 0x0A06 h w → s.twin.role ≠ .leader →
    exec (.twinSync h w) s = .next (deliver s h 0x0A06 (.err stWrongState))) ∧
  (∀ h w s, Accepted s 0x0A07 h w → s.twin.role ≠ .claiming →
    (s.ports.any fun e => e.2.ccfg.plane == 3 && e.2.course.state != 0) = false →
    exec (.twinOff h w) s = .next (deliver (setRole s .off) h 0x0A07 .ok))

/-- What the twin's pins, breath words, control blocks and records do (R254 to R257, R259 to R264, R268 to R270): an edge of LEAD_IN is
the partner's claim, and in CLAIMING side B gives way; a claim is dead 3 cycles after its last edge; breath on either path breaks the
cycle's silence; a handover block names its boundary, at which the roles change; digests are compared; a cycle is judged; a frame takes
the records that wait, an AXSYNC record that would come too late being sent again later; each kind of record is used, an AXSYNC record's quick-stop profile being built again from its V0; a forwarded command takes effect at its instant. -/
def Obligations.TwinEventsTakePlace : Prop :=
  (∀ t s, twinRuns s = true → ¬(s.twin.role = .claiming ∧ s.twin.sideB = true) →
    exec (.leadInEdge t) s = .next { atNs s t with twin := { (atNs s t).twin with claimEdge := some t } }) ∧
  (∀ t s, twinRuns s = true → s.twin.role = .claiming → s.twin.sideB = true →
    exec (.leadInEdge t) s = .next (raise
      (setRole { atNs s t with twin := { (atNs s t).twin with claimEdge := some t } } .follower) 0x60004 2)) ∧
  (∀ s e, s.twin.claimEdge = some e → twinRuns s = true →
    exec .claimDead s = .next { atNs s (e + 3 * s.line.baseCt) with twin := { s.twin with claimEdge := none } }) ∧
  (∀ t s, twinRuns s = true →
    exec (.breathInEdge t) s = .next { atNs s t with twin := { s.twin with
      breathIn := some t, pinSeen := s.twin.pinSeen || inLast (atNs s t) t } }) ∧
  (∀ u blk t s m, GoodBlock s u 5 blk → (twinUplinks s).contains u = true → s.twin.role ≠ .off → m = lineNo s t →
    beAt blk 2 4 = m →
    exec (.breathWordReceive u blk t) s = .next { atNs s t with twin := { s.twin with
      linkSeen := s.twin.linkSeen || inLast (atNs s t) t, partner := beAt blk 1 1, wordSeen := some m
      lone := s.twin.lone && decide (t - ((t : Int) - s.line.anchor).toNat % s.line.baseCt + 2000 < t) } }) ∧
  (∀ m s, twinRuns s = true → s.twin.role = .follower → s.twin.wordSeen ≠ some (m % 2 ^ 32) →
    exec (.lone m) s = .next { atNs s (cycleStart s s.line.baseCt m + 2000) with twin := { s.twin with lone := true } }) ∧
  (∀ u t b s, receives s (512 + u) = true →
    exec (.twinFrameReceive u t b) s = .next (frameIn s (512 + u) t (t + lineQ (512 + u) (port s (512 + u)) * b.length / 100) b)) ∧
  (∀ u s mine, mine = s.mirror.txQ.filter (fun r => r.lane == 512 + u) → mine ≠ [] → twinRuns s = true →
    isTwinLane (512 + u) = true → laneUsable s (512 + u) = false →
    laneUsable s (if u % 2 = 0 then 512 + u + 1 else 512 + u - 1) = true →
    exec (.twinFrameSend u) s = .next { s with mirror := { s.mirror with txQ := s.mirror.txQ.map fun r =>
      if r.lane = 512 + u then { r with lane := if u % 2 = 0 then 512 + u + 1 else 512 + u - 1 } else r } }) ∧
  (∀ u s0 s n mac mine fs, s0.mirror.txQ.filter (fun r => r.lane == 512 + u) ≠ [] → twinRuns s0 = true →
    isTwinLane (512 + u) = true → laneUsable s0 (512 + u) = true →
    s = syncAgain s0 ((s0.mirror.txQ.filter fun r => r.lane == 512 + u).filterMap (lateSync s0)) →
    mine = (s0.mirror.txQ.filter fun r => r.lane == 512 + u).filter (fun r => (lateSync s r).isNone) → mine ≠ [] → n = frameTake 255 1496 mine → fs = s.mirror.fseq.look (512 + u) 0 →
    mac = s.twin.partnerMac.look u (0, 0) →
    exec (.twinFrameSend u) s0 = .next (
      let b := be 2 mac.2.toNat ++ be 4 mac.1.toNat ++ pMac (port s (512 + u)) ++ be 2 0x88B5 ++ be 2 0x4754 ++ [1, by8 n] ++ be 4 fs ++
        (mine.take n).flatMap (·.bytes)
      let b := b ++ List.replicate (60 - b.length) 0
      let t := { s with mirror := { s.mirror with
        txQ := s.mirror.txQ.filter (fun r => r.lane != 512 + u) ++ mine.drop n
        fseq := s.mirror.fseq.put (512 + u) ((fs + 1) % 2 ^ 32) 0 } }
      ctlPut (count t 0x60018 n) (512 + u) 7 (b ++ fcs b))) ∧
  (∀ u blk s, GoodBlock s u 7 blk → (twinUplinks s).contains u = true → s.twin.role ≠ .off → hasRegion s (beAt blk 1 1) = true →
    exec (.digestBlockReceive u blk) s = .next (compareDigests { s with mirror := { s.mirror with
      got := s.mirror.got.put (beAt blk 1 1) (beAt blk 2 2 + 1, beAt blk 4 8) (0, 0) } } (beAt blk 1 1))) ∧
  (∀ n s m, twinRuns s = true → s.twin.role ≠ .off → s.mirror.judged ≠ some (n % 2 ^ 32) →
    m = (List.range (nDies s)).foldl (fun m d =>
      let good := (List.range 4).all fun i => m.matched.look (4 * d + i) 0 == n % 65536 + 1
      let run := if good then min 16 (m.okRun.look d 0 + 1) else 0
      { m with okRun := m.okRun.put d run 0, ok := if run = 16 then m.ok.put d true false else m.ok }) s.mirror →
    exec (.digestDeadline n) s = .next (
      let good := ((List.range (4 * nDies s)).all fun r => (s.mirror.got.look r (0, 0)).1 == n % 65536 + 1) &&
        m.lateCycle != some (n % 2 ^ 32)
      { atNs s (cycleStart s s.line.baseCt n + 6000) with mirror := { m with
        unvBase := m.unverified, unverified := if good then 0 else min 255 (m.unverified + 1)
        judged := some (n % 2 ^ 32), lateCycle := none } })) ∧
  (∀ u blk s, GoodBlock s u 9 blk → (twinUplinks s).contains u = true → s.twin.role = .follower →
    exec (.handoverReceive u blk) s = .next { s with mirror := { s.mirror with
      handover := some (cycleStart s s.line.baseCt (nearCycle s (beAt blk 2 4))) } }) ∧
  (∀ s b, s.mirror.handover = some b → twinRuns s = true → s.twin.role = .leader →
    exec .handoverBoundary s = .next (raise
      { setRole (atNs s b) .follower with mirror := { (setRole (atNs s b) .follower).mirror with handover := none } } 0x60004 1024)) ∧
  (∀ s r l u, RecordWaits s 1 r l → u = at16 { s with mirror := { s.mirror with recQ := l } } r.t →
    twinPort u (dieOfPort r.lane) (beAt r.bytes 1 2) = none →
    exec .brickRecordReceive s = .next u) ∧
  (∀ s r l u o n d base e, RecordWaits s 1 r l → u = at16 { s with mirror := { s.mirror with recQ := l } } r.t →
    twinPort u (dieOfPort r.lane) (beAt r.bytes 1 2) = some o → n = r.bytes.length →
    brickCheck (beAt r.bytes 3 2) true (beAt r.bytes 5 1 % 4) (beAt r.bytes 6 1) ((r.bytes.drop 13).take (n - 15)) =
      beAt r.bytes (n - 2) 2 →
    (port u o).course.state = 2 ∨ (port u o).course.state = 3 →
    d = descOf u o (b2n (port u o).course.bank) (4 + beAt r.bytes 5 1 % 4) → beAt r.bytes 6 1 < dCount d → courseRuns u o = true →
    merges u = false → offers u = true → bit (beAt r.bytes 5 1) 7 = true →
    cycleNo u (port u o).ccfg.ct (r.t / 65536) % 65536 = beAt r.bytes 3 2 →
    base = nextB u.line.anchor (port u o).ccfg.ct (r.t / 65536 + 1) - (port u o).ccfg.ct →
    r.t ≤ (base + d.w3.toNat + 1000) * 65536 → e = dFirst d + beAt r.bytes 6 1 → (port u o).inStat.taken.look e false = false →
    exec .brickRecordReceive s = .next (takeBrick (usedRec u) o o e (entryOf u o (b2n (port u o).course.bank) e)
      (near16 u (beAt r.bytes 7 6)) (bit (beAt r.bytes 5 1) 6) ((r.bytes.drop 13).take (n - 15)))) ∧
  (∀ s r l u a, RecordWaits s 2 r l → u = at16 { s with mirror := { s.mirror with recQ := l } } r.t → a = beAt r.bytes 2 2 →
    s.twin.role = .follower → hasAxis u a = true → (axis u a).cfg.direct = true →
    exec .directRecordReceive s = .next (
      let v := stagingPut (usedRec u) a 0 ((r.bytes.drop 8).take 64)
      if (axis v a).dyn.state = 6 then imgWrite v a 0 ((r.bytes.drop 8).take 64) else v)) ∧
  (∀ s r l u pk hd, RecordWaits s 3 r l → u = at16 { s with mirror := { s.mirror with recQ := l } } r.t → s.twin.role = .follower →
    pk = toWordsBe 4096 (r.bytes.drop 8) → 5 ≤ pk.length →
    crc32c (wordsBe (pk.take (pk.length - 1))) = prm pk (pk.length - 1) → hd = pktHdr (.hyith (r.lane - 512) u.twin.partnerDev) pk →
    fwdCheck u (pktOp pk) hd (pktParams pk) = true →
    exec .commandRecordReceive s = .next { usedRec u with mirror := { (usedRec u).mirror with
      fwd := (usedRec u).mirror.fwd ++ [{ op := pktOp pk, h := hd, w := pktParams pk
                                          at_ := near16 u (beAt r.bytes 4 4 * 65536) / 65536 }] } }) ∧
  (∀ s r l u a x cb b v, RecordWaits s 4 r l → u = at16 { s with mirror := { s.mirror with recQ := l } } r.t → s.twin.role = .follower →
    a = beAt r.bytes 2 2 → x = axis u a → b = r.bytes.drop 8 → cb = near16 u (beAt r.bytes 4 4 * 65536) / 65536 → hasAxis u a = true →
    x.cfg.ct ≠ 0 → nowNs u < cb + x.cfg.ct - 2000 → v = setAxisState (usedRec u) a (beAt b 0 1 % 8) (beAt b 1 1 % 16) →
    exec .axsyncRecordReceive s = .next (
      let y := modAxis v a fun x => { x with
        dyn := { x.dyn with
          fired := beAt b 1 1 / 16, segExp := beAt b 2 2, get := beAt b 4 4 % 131072
          p := sgn 64 (beAt b 20 8), v := sgn 64 (beAt b 28 8), a := sgn 64 (beAt b 36 8) }
        run := { x.run with
          s0 := beAt b 8 6 * 1000000000 + beAt b 14 4, segStart := beAt b 8 6 * 1000000000 + beAt b 14 4, cache := [], decided := none
          offAt := none, directAt := none
          qstop := if beAt b 0 1 % 8 = 4 then
              some { profileFrom 0 0 (axis u a).cfg.dec 0 (sgn 64 (beAt b 64 8)) with
                start := beAt b 44 6 * 1000000000 + beAt b 50 4 + (axis u a).cfg.ct, anchor := beAt b 44 6 * 1000000000 + beAt b 50 4
                a0 := sgn 64 (beAt b 56 8), t := beAt b 72 4, capped := beAt b 72 4 == 4294967295 }
            else none } }
      { y with mirror := { y.mirror with syncing := true, syncAt := nowNs y } })) ∧
  (∀ s f u, nextFwd s.mirror.fwd = some f → clocksRun s = true →
    u = { atNs s f.at_ with mirror := { s.mirror with fwd := s.mirror.fwd.erase f } } →
    stoppedTarget u f.op f.h f.w = none → f.op ≠ 0x0607 →
    exec .forwardedCommandCommit s = .next (fwdApply u f.op f.h f.w f.at_))

/-! ### The system and its links -/

/-- SYS_QUERY and HYITH_QUERY answer (R278, R280); SYS_SET and SYS_ROUTE_SET store settings that R274 and R275 allow; SYS_ROOT_RETURN of an
acting root forms its own transaction, which at C, 20,000 ns later, schedules its return, and is refused elsewhere (R276, R303). -/
def Obligations.SystemCommandsTakeEffect : Prop :=
  (∀ h w s, Accepted s 0x0E01 h w →
    exec (.sysQuery h w) s = .next (deliver s h 0x0E01 (.ok ([wd (sysReg s 0x800), wd (sysReg s 0x804)] ++
      (s.sys.backups.map fun x => match x with | some d => wd (d + 2 ^ 18) | none => 0) ++
      [wd ((List.range (4 * nDies s)).map fun u => lrole s u * 16 ^ u).sum])))) ∧
  (∀ h w s, Accepted s 0x0E02 h w → sysSetBad s w = none →
    exec (.sysSet h w) s = .next (deliver { s with
      hlinks := s.hlinks.mapVals (fun l => { l with belowAt := none }) {}
      sys := { s.sys with
        devno := fld w 0 17 0, parent := fld w 0 21 18, standby := fld w 0 25 22
        backups := [1, 2, 3, 4].map fun i => if bit (prm w i) 18 then some (fld w i 17 0) else none
        masterTo := prm w 5, acting := false, lostEp := false, returnAt := none, setAt := nowNs s } } h 0x0E02 .ok)) ∧
  (∀ h w s r, Accepted s 0x0E02 h w → sysSetBad s w = some r →
    exec (.sysSet h w) s = .next (deliver s h 0x0E02 r)) ∧
  (∀ h w s n, Accepted s 0x0E03 h w → n = fld w 0 3 0 → fld w 0 31 4 = 0 → n ≤ 8 → (∀ i < 2 * n, fld w (1 + i) 31 18 = 0) →
    exec (.sysRouteSet h w) s = .next (deliver (modHlink s (h.port - 512) fun l => { l with
      ranges := (List.range n).map fun i => (prm w (1 + 2 * i), prm w (2 + 2 * i)) }) h 0x0E03 .ok)) ∧
  (∀ h w s tb, Solo s 0x0E04 h w → instantAt w 0 = .ok tb → isBoundary s s.line.baseCt tb = true → s.sys.acting = true →
    exec (.sysRootReturn h w) s = .next { s with txns := s.txns ++ [ownTxn s 0x0E04 sysRootReturnOp h w (nowNs s + 20000)] }) ∧
  (∀ h w s c u, OwnDue s 0x0E04 h w c u → u.sys.acting = true →
    exec (.txnCommitApply 0) s = .next (
      let b := firstAt (ltAt w 0).1 u.line.baseCt (c + 4000)
      deliver (closeTxn { u with sys := { u.sys with returnAt := some b.1 } } 0) h 0x0E04
        (.rep (lateBit (sat32 b.2)) [wd (sat32 b.2)]))) ∧
  (∀ h w s c u, OwnDue s 0x0E04 h w c u → u.sys.acting = false →
    exec (.txnCommitApply 0) s = .next (deliver (closeTxn u 0) h 0x0E04 (.err stTxnPartial))) ∧
  (∀ h w s tb, Solo s 0x0E04 h w → instantAt w 0 = .ok tb → isBoundary s s.line.baseCt tb = true → s.sys.acting = false →
    exec (.sysRootReturn h w) s = .next (deliver s h 0x0E04 (.err stWrongState))) ∧
  (∀ h w s, Accepted s 0x0E05 h w →
    exec (.hyithQuery h w) s = .next (deliver s h 0x0E05
      (.ok ((List.range 13).map fun i => wd (hyReg s (h.port - 512) (4 * i))))))

/-- What the control blocks of a link do (R61, R62, R271 to R273, R276, R355): a bad block is counted and nothing else; credit sets the
limit and a command frame leaves while credit and its slot allow and no activation has flipped (R383); time words leave in slots, but not on a further link (R277), are taken with their arrival, and an echo
of one gives a sample on the time source link; the first epoch word there gives the seconds; marks and root blocks are taken; a backup
whose parent has been silent acts as root. -/
def Obligations.LinkEventsTakePlace : Prop :=
  (∀ u blk s, hyOn s u = true → blk.length = 14 → crc16 (blk.take 12) ≠ beAt blk 12 2 →
    exec (.creditReceive u blk) s = .next (raise (count s (0xA0020 + 0x100 * u) 1) (0xA000C + 0x100 * u) 1)) ∧
  (∀ u blk s, GoodBlock s u 6 blk →
    exec (.creditReceive u blk) s = .next (modHlink s u fun l => { l with limit := beAt blk 1 2 })) ∧
  (∀ u s f r, (hlink s u).outQ = f :: r → hyOn s u = true → s.sec.flipped = false → credit (hlink s u) ≠ 0 → credit (hlink s u) < 2 ^ 15 →
    (port s (512 + u)).txd.ctl.look (pMgmtClass (port s (512 + u))) [] = [] →
    exec (.hyithCommandSend u) s = .next (
      let t := modHlink s u fun l => { l with outQ := r, sent := (l.sent + 1) % 65536 }
      ctlAdd (count t (0xA0028 + 0x100 * u) 1) (512 + u) (pMgmtClass (port s (512 + u))) f)) ∧
  (∀ u s, s.sec.flipped = true → exec (.hyithCommandSend u) s = .next s) ∧
  (∀ u s, (hlink s u).outQ ≠ [] → credit (hlink s u) = 0 → exec (.hyithCommandSend u) s = .next s) ∧
  (∀ u s i t e v, hySends s u = true → i = max ((nowNs s + 1023) / 1024) (tlink s u).wordDue →
    t = max (i * 1024 * 65536) (port s (512 + u)).txd.lineFree → e = t / (1024 * 65536) → v = at16 s t →
    lrole v u ≠ 2 → lrole v u ≠ 5 → ¬(i ≤ e - e % 1024) → (tlink v u).rxSeq = none →
    exec (.timeWordSend u) s = .next (
      let k := tlink v u
      let b := modTlink (sendBlock v u 1 (by8 k.txSeq :: short48 t)) u fun k' =>
        { k' with txSeq := (k.txSeq + 1) % 256, tx := (k.txSeq, t % 2 ^ 48) :: k'.tx.take 15 }
      let l := hlink b u
      let due := l.limitSent != l.rxLimit || 63 ≤ k.slots
      let c := if due then modHlink (sendBlock b u 6 (be 2 l.rxLimit)) u fun l => { l with limitSent := l.rxLimit } else b
      modTlink c u fun k' => { k' with wordDue := e + 1, slots := if due then 0 else k'.slots + 1 })) ∧
  (∀ u s i t e v, hySends s u = true → i = max ((nowNs s + 1023) / 1024) (tlink s u).wordDue →
    t = max (i * 1024 * 65536) (port s (512 + u)).txd.lineFree → e = t / (1024 * 65536) → v = at16 s t →
    lrole v u = 5 → ¬(i ≤ e - e % 1024) →
    exec (.timeWordSend u) s = .next (
      let l := hlink v u
      let due := l.limitSent != l.rxLimit || 63 ≤ (tlink v u).slots
      let c := if due then modHlink (sendBlock v u 6 (be 2 l.rxLimit)) u fun l => { l with limitSent := l.rxLimit } else v
      modTlink c u fun k' => { k' with wordDue := e + 1, slots := if due then 0 else k'.slots + 1 })) ∧
  (∀ u blk t s v, GoodBlock s u 1 blk → v = at16 s t → s.sys.parent ≠ u → s.sys.standby ≠ u →
    exec (.timeWordReceive u blk t) s = .next (modHlink
      (modTlink v u fun k => { k with
        rxNew := follows k.rxSeq (beAt blk 1 1), rxSeq := some (beAt blk 1 1), rxT3 := beAt blk 2 6, rxT4 := t % 2 ^ 48 })
      u fun l => { l with wordAt := some (nowNs v) })) ∧
  (∀ u blk s k t1 x, GoodBlock s u 2 blk → k = tlink s u → (k.tx.find? fun x => x.1 == beAt blk 1 1).map (·.2) = some t1 →
    k.rxNew = true → follows k.echoSeq (beAt blk 1 1) = true → x = linkSample t1 (beAt blk 2 6) k.rxT3 k.rxT4 k.a → isSource s u = true →
    exec (.echoReceive u blk) s = .next (
      let v := modTlink (modTlink s u fun k => { k with echoSeq := some (beAt blk 1 1), rxNew := false }) u fun k => { k with d := x.1 }
      { v with time := { v.time with sampleQ := v.time.sampleQ ++ [x.2] } })) ∧
  (∀ u blk s, GoodBlock s u 3 blk → isSource s u = true → s.time.secKnown = false → (tlink s u).rxSeq ≠ some (beAt blk 1 1) →
    exec (.epochReceive u blk) s = .next { s with time := { s.time with
      secKnown := true, epochSec := some (beAt blk 2 6), epochAt := now16 s } }) ∧
  (∀ u blk e s z, GoodBlock s u 4 blk → s.trimRun = some z → z.port = some u → z.mark = none →
    exec (.markReceive u blk e) s = .next { s with trimRun := some { z with mark := some (beAt blk 2 4, beAt blk 6 2, e) } }) ∧
  (∀ u blk s, GoodBlock s u 8 blk → beAt blk 3 3 % 2 ^ 18 ≠ s.sys.devno → isSource s u = false →
    exec (.rootReceive u blk) s = .next (modHlink s u fun l => { l with
      heard := true, peerDev := beAt blk 3 3 % 2 ^ 18, peerDepth := min 6 (beAt blk 2 1)
      rootPos := if beAt blk 1 1 ≤ 4 then beAt blk 1 1 else 0xFF, rootDev := beAt blk 6 3 % 2 ^ 18
      belowAt := if beAt blk 1 1 < backupPos s then some (nowNs s) else l.belowAt })) ∧
  (∀ s u, backupPos s ≠ 0 → s.sys.acting = false → s.sys.parent < 8 → clocksRun s = true → s.sys.lostEp = true →
    u = atNs s (max (max s.sys.setAt ((hlink s s.sys.parent).wordAt.getD 0) + 1000000 * s.sys.masterTo)
      ((s.hlinks.filterMap (·.2.belowAt)).foldl max s.sys.setAt + 1000000 * s.sys.masterTo)) →
    (s.hlinks.filterMap (·.2.belowAt)).foldl max s.sys.setAt + 1000000 * s.sys.masterTo ≤ nowNs u →
    exec .masterTimeout s = .next (raise { u with sys := { u.sys with acting := true } } 0xA0804 4))

/-! ### Transactions -/

/-- TXN_OPEN takes the lowest free TXID, at most 16 at a time, TXN_ABORT and the timeout close a transaction, TXN_QUERY tells of
one (R298); an ID that its path has not open answers TXN_UNKNOWN. TXN_COMMIT whose members all pass is accepted with its instant
and answers nothing yet (R300); one with a failed member, or with members forwarded to a FOLLOWER that has not prepared them (R304,
a free value; the model's choice, log entry 40), closes the transaction with TXN_FAILED and the member's position. At C every
member takes effect in order and the commit is answered, or a rollback is scheduled, PARTNER_FAIL being set where the FOLLOWER
fails; where nothing applied anywhere it is answered TXN_PARTIAL at once (R301, R302, R304). The transaction that a command forms
on its own answers with that command's own reply at C, or with TXN_PARTIAL, an AXIS_OFF whose axis runs with WRONG_STATE (R303,
R114); at R_b the applied members are rolled back, the last first, and it answers TXN_PARTIAL. -/
def Obligations.TransactionsRun : Prop :=
  (∀ h w s, Accepted s 0x0E10 h w → 1 ≤ prm w 0 → prm w 0 ≤ 60000 → s.txns.length < 16 →
    exec (.txnOpen h w) s = .next (deliver { s with txns := s.txns ++ [{
      id := freeTxid s, pcie := (match h.path with | .pcie => true | _ => false), path := h.path
      opened := nowNs s, expires := nowNs s + 1000000 * prm w 0 }] } h 0x0E10 (.ok [wd (freeTxid s)]))) ∧
  (∀ h w s, Accepted s 0x0E10 h w → 1 ≤ prm w 0 → prm w 0 ≤ 60000 → 16 ≤ s.txns.length →
    exec (.txnOpen h w) s = .next (deliver s h 0x0E10 (.err stNoSpace))) ∧
  (∀ h w s t, Accepted s 0x0E12 h w → fld w 0 31 8 = 0 → findTxn s h (fld w 0 7 0) false = some t →
    exec (.txnAbort h w) s = .next (deliver { s with txns := s.txns.filter fun x => x.id != t.id } h 0x0E12 .ok)) ∧
  (∀ h w s, Accepted s 0x0E12 h w → fld w 0 31 8 = 0 → findTxn s h (fld w 0 7 0) false = none →
    exec (.txnAbort h w) s = .next (deliver s h 0x0E12 (.err stTxnUnknown 1))) ∧
  (∀ h w s t, Accepted s 0x0E13 h w → fld w 0 31 8 = 0 → findTxn s h (fld w 0 7 0) true = some t →
    exec (.txnQuery h w) s = .next (deliver s h 0x0E13
      (.ok ([wd t.members.length, wd (b2n (t.commit.isNone && (barred t).isNone))] ++
        match t.commit with | some c => ltWords c.1 0 | none => [0, 0, 0])))) ∧
  (∀ id s t, (s.txns.find? fun x => x.id == id) = some t → t.commit = none →
    exec (.txnExpired id) s = .next (raise
      { atNs s t.expires with txns := s.txns.filter fun x => x.id != id } 0x70038 8)) ∧
  (∀ h w s t c, Accepted s 0x0E11 h w → findTxn s h (fld w 0 7 0) false = some t → commitAt s w = .ok c → barred t = none →
    commitTest s c t.members = none → s.twin.role ≠ .leader →
    exec (.txnCommit h w) s = .next { s with txns := s.txns.map fun x => if x.id = t.id then { x with commit := some (c, h) } else x }) ∧
  (∀ h w s t c y, Accepted s 0x0E11 h w → findTxn s h (fld w 0 7 0) false = some t → commitAt s w = .ok c → barred t = none →
    commitTest s c t.members = none → y = partnerDoes s (firstForwarded s t.members).isSome → y.2 = true →
    exec (.txnCommit h w) s = .next (forwardMembers
      { y.1 with txns := y.1.txns.map fun x => if x.id = t.id then { x with commit := some (c, h) } else x } c t.members)) ∧
  (∀ h w s t c n, Accepted s 0x0E11 h w → findTxn s h (fld w 0 7 0) false = some t → commitAt s w = .ok c → barred t = none →
    commitTest s c t.members = none → firstForwarded s t.members = some n →
    ∃ ws, exec (.txnCommit h w) s = .next (
      let y := partnerDoes s true
      if y.2 then forwardMembers
        { y.1 with txns := y.1.txns.map fun x => if x.id = t.id then { x with commit := some (c, h) } else x } c t.members
      else deliver { y.1 with txns := y.1.txns.filter fun x => x.id != t.id } h 0x0E11 { st := stTxnFailed, detail := n, w := ws })) ∧
  (∀ h w s t c n, Accepted s 0x0E11 h w → findTxn s h (fld w 0 7 0) false = some t → commitAt s w = .ok c → barred t = some n →
    ∃ ws, exec (.txnCommit h w) s = .next (deliver { s with txns := s.txns.filter fun x => x.id != t.id } h 0x0E11
      { st := stTxnFailed, detail := n, w := ws })) ∧
  (∀ h w s, Accepted s 0x0E11 h w → findTxn s h (fld w 0 7 0) false = none →
    exec (.txnCommit h w) s = .next (deliver s h 0x0E11 (.err stTxnUnknown 1))) ∧
  (∀ id s t c h u y r, (s.txns.find? fun x => x.id == id) = some t → t.commit = some (c, h) → t.rollback = none → coresUp s = true →
    u = settleAxes (atNs s c) c → y = partnerDoes u (firstForwarded u t.members).isSome →
    r = t.members.foldl (fun (a : State × List Member) m =>
      ((applyMember a.1 c m).1, a.2 ++ [(applyMember a.1 c m).2])) (y.1, []) →
    y.2 = true → (r.2.all (·.applied)) = true → id ≠ 0 →
    exec (.txnCommitApply id) s = .next (deliver { r.1 with txns := r.1.txns.filter fun x => x.id != id } h 0x0E11
      { w := commitWords { t with members := r.2, partnerFail := false } c })) ∧
  (∀ id s t c h u y r, (s.txns.find? fun x => x.id == id) = some t → t.commit = some (c, h) → t.rollback = none → coresUp s = true →
    u = settleAxes (atNs s c) c → y = partnerDoes u (firstForwarded u t.members).isSome →
    r = t.members.foldl (fun (a : State × List Member) m =>
      ((applyMember a.1 c m).1, a.2 ++ [(applyMember a.1 c m).2])) (y.1, []) →
    y.2 = false ∨ (r.2.all (·.applied)) = false →
    (firstForwarded u t.members).isSome = true ∨ (r.2.all (!·.applied)) = false → id ≠ 0 →
    exec (.txnCommitApply id) s = .next (modTxn r.1 id fun _ => { t with
      members := r.2, partnerFail := !y.2, rollback := some (nextLine u (c + 10000)) })) ∧
  (∀ id s t c h u r, (s.txns.find? fun x => x.id == id) = some t → t.commit = some (c, h) → t.rollback = none → coresUp s = true →
    u = settleAxes (atNs s c) c → firstForwarded u t.members = none → t.members ≠ [] →
    r = t.members.foldl (fun (a : State × List Member) m =>
      ((applyMember a.1 c m).1, a.2 ++ [(applyMember a.1 c m).2])) (u, []) →
    (r.2.all (·.applied)) = false → (r.2.all (!·.applied)) = true → id ≠ 0 →
    exec (.txnCommitApply id) s = .next (deliver { r.1 with txns := r.1.txns.filter fun x => x.id != id } h 0x0E11
      { st := stTxnPartial, w := commitWords { t with members := r.2, partnerFail := false } c })) ∧
  (∀ s t c h u y m l z, (s.txns.find? fun x => x.id == 0) = some t → t.commit = some (c, h) → t.rollback = none → coresUp s = true →
    t.members = m :: l → u = settleAxes (atNs s c) c → y = partnerDoes u (leads u m.op m.h) → z = applyMember y.1 c m →
    z.2.applied = true → ∃ v, exec (.txnCommitApply 0) s = .next v ∧ (y.2 = false → v = modTxn z.1 0 fun t => { t with
      members := [z.2], partnerFail := true, rollback := some (nextLine u (c + 10000)) })) ∧
  (∀ h w s op f c u a, OwnDue s op h w c u → txnOpOf op = some f → f.apply h w c u = .ok a →
    exec (.txnCommitApply 0) s = .next (deliver { a.s with txns := a.s.txns.filter fun x => x.id != 0 } h op
      (.rep (f.report h w a.k u) (f.words h w { a with s := u })))) ∧
  (∀ h w s op f c u r, OwnDue s op h w c u → txnOpOf op = some f → f.apply h w c u = .error r →
    exec (.txnCommitApply 0) s = .next (deliver { u with txns := u.txns.filter fun x => x.id != 0 } h op
      (.err (if op = 0x0707 ∧ r.st = stWrongState then stWrongState else stTxnPartial)))) ∧
  (∀ s t c h rb m l r, (s.txns.find? fun x => x.id == 0) = some t → t.commit = some (c, h) → t.rollback = some rb →
    coresUp s = true → t.members = m :: l →
    r = t.members.foldr (fun m (a : State × List Member) =>
      ((undoMember a.1 rb m).1, (undoMember a.1 rb m).2 :: a.2)) (settleAxes (atNs s rb) (rb - 1), []) →
    exec (.txnRollback 0) s = .next (deliver { r.1 with txns := r.1.txns.filter fun x => x.id != 0 } h m.op (.err stTxnPartial))) ∧
  (∀ id s t c h rb r, id ≠ 0 → (s.txns.find? fun x => x.id == id) = some t → t.commit = some (c, h) → t.rollback = some rb →
    coresUp s = true →
    r = t.members.foldr (fun m (a : State × List Member) =>
      ((undoMember a.1 rb m).1, (undoMember a.1 rb m).2 :: a.2)) (settleAxes (atNs s rb) (rb - 1), []) →
    exec (.txnRollback id) s = .next (deliver { r.1 with txns := r.1.txns.filter fun x => x.id != id } h 0x0E11
      { st := stTxnPartial, w := commitWords { t with members := r.2 } c }))

/-- A command of any opcode that may join a transaction, sent as a member of an open one (R298, R299): its checks pass, and it is
held and answered PREPARED; or one fails, and the member is recorded as failed and answered with its status; or the transaction is
full, and it is answered NO_SPACE. It has no other effect. -/
def Obligations.MembersArePrepared : Prop :=
  ∀ op f h w s t, txnOpOf op = some f → Accepted s op h w → h.txn = true → findTxn s h h.txid false = some t →
    (t.members.length < txnLimit t → f.prep h w s = none →
      runOpcode op h w s = some (.next (deliver
        (addMember s h.txid { op := op, h := h, w := w, st := stPrepared, held := unitsIn s op h w ++ f.holds h w s } false) h op
        { st := stPrepared, report := f.report h w 0 s }))) ∧
    (∀ r, t.members.length < txnLimit t → f.prep h w s = some r →
      runOpcode op h w s = some (.next (deliver (addMember s h.txid
        { op := op, h := h, w := w, st := r.st, held := [], result := 3, outcome := r.st } true) h op r))) ∧
    (txnLimit t ≤ t.members.length →
      runOpcode op h w s = some (.next (deliver (addMember s h.txid
        { op := op, h := h, w := w, st := stNoSpace, held := [], result := 3, outcome := stNoSpace } true) h op (.err stNoSpace))))

/-! ### Faults and safe states -/

/-- FAULT_QUERY answers, FAULT_SET stores a source's threshold and a reaction R335 allows, FAULT_CLEAR and a write of STICKY clear the
named sources (R345, R346); FAULTN_SET and LSO_SET act, a driven LSO being refused while barred (R343, R344); a write of LSO_DRIVE that
sets a bit while barred is ignored and noted. -/
def Obligations.FaultCommandsTakeEffect : Prop :=
  (∀ h w s p, Accepted s 0x0B01 h w → h.scope = 3 → p = h.port →
    exec (.faultQuery h w) s = .next (deliver s h 0x0B01 (.ok (wd (pstat s p) ::
      (List.range (nSources (.port p))).flatMap fun i =>
        let f := faultSrc s (.port p) i
        [wd (f.n + f.w * 65536),
          wd (reactionOf s (.port p) i + 8 * baseLevel (.port p) i + 32 * b2n (f.winEnd.any (nowNs s < ·)))])))) ∧
  (∀ h w s l, Accepted s 0x0B02 h w → l = targetLoc h → prm w 0 < nSources l → (fld w 1 15 0 ≠ 0 → fld w 1 31 16 ≠ 0) →
    prm w 2 < 8 → reactionOk l (prm w 0) (prm w 2) = true →
    exec (.faultSet h w) s = .next (deliver (setSrc s l (prm w 0) fun f => { f with
      n := fld w 1 15 0, w := fld w 1 31 16
      reaction := if prm w 2 = (baseReactions l).getD (prm w 0) 0 then none else some (prm w 2) }) h 0x0B02 .ok)) ∧
  (∀ h w s, Accepted s 0x0B02 h w → prm w 0 < nSources (targetLoc h) → fld w 1 15 0 = 0 →
    reactionOk (targetLoc h) (prm w 0) (prm w 2) = false →
    exec (.faultSet h w) s = .next (deliver s h 0x0B02 (.err stInvalid 3))) ∧
  (∀ h w s, Accepted s 0x0B03 h w → prm w 0 < 2 ^ nSources (targetLoc h) →
    exec (.faultClear h w) s = .next (deliver (clearFaults s (targetLoc h) (prm w 0)) h 0x0B03 .ok)) ∧
  (∀ h w s, Accepted s 0x0B04 h w → 1 ≤ prm w 0 → prm w 0 ≤ 1000 → prm w 1 = 0 →
    exec (.faultnSet h w) s = .next (deliver { s with safety := { s.safety with pulse := prm w 0 } } h 0x0B04 .ok)) ∧
  (∀ h w s, Accepted s 0x0B04 h w → 1 ≤ prm w 0 → prm w 0 ≤ 1000 → prm w 1 = 1 →
    exec (.faultnSet h w) s = .next (deliver (releaseFaultn { s with safety := { s.safety with pulse := prm w 0 } }) h 0x0B04 .ok)) ∧
  (∀ h w s, Accepted s 0x0B05 h w → fld w 0 31 8 = 0 → lsoBarred s = false →
    exec (.lsoSet h w) s = .next (deliver { s with safety := { s.safety with lsoDrive := BitVec.ofNat 8 (prm w 0) } } h 0x0B05 .ok)) ∧
  (∀ h w s, Accepted s 0x0B05 h w → fld w 0 31 8 = 0 → lsoBarred s = true →
    exec (.lsoSet h w) s = .next (deliver s h 0x0B05 (.err stRefused))) ∧
  (∀ loc v s, locPresent s loc = true → Reached s (statusAddr loc) → accHeld s (.w1c loc v) = false →
    exec (.faultStickyW1c loc v) s = .next (clearFaults s loc v.toNat)) ∧
  (∀ s, Reached s 0x30100 → s.safety.asserted = true → faultnCase s = false → s.safety.pulseEnd = none →
    exec .faultnRelease s = .next { s with safety := { s.safety with asserted := false } }) ∧
  (∀ s, Reached s 0x30100 → faultnCase s = true → exec .faultnRelease s = .next s) ∧
  (∀ v s, Reached s 0x30104 → v = 0 ∨ lsoBarred s = false →
    exec (.lsoDriveWrite v) s = .next { s with safety := { s.safety with lsoDrive := v } }) ∧
  (∀ v s, Reached s 0x30104 → v ≠ 0 → lsoBarred s = true →
    exec (.lsoDriveWrite v) s = .next (markFresh { s with safety := { s.safety with lsoRefused := true } } 0x30108 1024))

/-- A source is captured when it fires, once in a SLOW cycle (R329, R331), masked it counts in SUPPRESSED only (R342); a reset
that it issues may end a gate handshake, whose held accesses then enter (R366); its window closes, a quarantined port is squelched once the
last bank S frame of its 16th cycle has ended and a region reset follows when R337 and R341 say; FAULTn's pulse and a reset's mask end; rails that differ again are
watched again (R329). -/
def Obligations.FaultEventsTakePlace : Prop :=
  (∀ loc src pair st s, locPresent s loc = true → src < nSources loc → neverFires s loc src = false → isCond loc src = false →
    isBlock loc src = false → (∀ p, loc = .port p → s.rails.look p 0 = 0) →
    exec (.faultSourceFire loc src pair st) s = .next (releaseHeld (captureFault (countError s loc src) loc src))) ∧
  (∀ loc src pair st s, locPresent s loc = true → src < nSources loc → neverFires s loc src = false → isCond loc src = false →
    isBlock loc src = true → (s.faultPend.any fun e => e.1 == loc && e.2 == src) = true → (∀ p, loc = .port p → s.rails.look p 0 = 0) →
    exec (.faultSourceFire loc src pair st) s = .next (releaseHeld (captureFault
      { s with faultPend := s.faultPend.filter fun e => !(e.1 == loc && e.2 == src) } loc src))) ∧
  (∀ s, s.power.gate.isSome = true ∨ s.power.heldAcc = [] → releaseHeld s = s) ∧
  (∀ s loc src, (faultSrc s loc src).slow = some (slowCycle s) → captureFault s loc src = s) ∧
  (∀ s loc src v, (faultSrc s loc src).slow ≠ some (slowCycle s) →
    v = setSrc s loc src (fun f => { f with slow := some (slowCycle s) }) → masked v loc src = true →
    captureFault s loc src = count v (suppressedAddr loc) 1) ∧
  (∀ s loc src v u, (faultSrc s loc src).slow ≠ some (slowCycle s) →
    v = setSrc s loc src (fun f => { f with slow := some (slowCycle s) }) → masked v loc src = false →
    (faultSrc v loc src).sticky = true → (faultSrc v loc src).n = 0 →
    u = markFresh (setSrc v loc src fun f => { f with sticky := true, u := true }) (statusAddr loc) (2 ^ src) →
    curLevel u loc src < curLevel v loc src + 1 → captureFault s loc src = u) ∧
  (∀ loc src s t, (faultSrc s loc src).winEnd = some t →
    exec (.faultWindowClose loc src) s = .next (setSrc (atNs s t) loc src fun f => { f with winEnd := none, count := 0 })) ∧
  (∀ p s, quarantined s p = true → (port s p).link.squelched = false → (courseOf s p).state = 3 →
    17 ≤ (courseOf s p).safeCycles ∨ (courseOf s p).safeCycles = 16 ∧ lastSafeLaunch s p ≤ nowNs s →
    exec (.quarantineSquelch p) s = .next (squelch (endCourseTx s p) p)) ∧
  (∀ p s, quarantined s p = true → (port s p).link.squelched = false → (courseOf s p).state = 0 →
    exec (.quarantineSquelch p) s = .next (squelch (settleTx s p) p)) ∧
  (∀ r s, dueFor s r = true → regionBusy s r = false → ((portsOf r).all fun p => (courseOf s p).state == 0) = true →
    exec (.reactionRegionReset r) s = .next (releaseHeld (issueRegion s r))) ∧
  (∀ s t, s.safety.pulseEnd = some t → s.safety.relPend = true → faultnCase (atNs s t) = false →
    exec .faultnPulseEnd s = .next { atNs s t with safety := { s.safety with
      pulseEnd := none, relPend := false, asserted := false } }) ∧
  (∀ k s t, (s.power.masks.find? fun m => m.1 == k) = some (k, some t) → (s.faults.all fun e => !e.2.cond) = true →
    exec (.resetMaskEnd k) s = .next { atNs s t with power := { s.power with masks := s.power.masks.filter fun m => m.1 != k } }) ∧
  (∀ p pair s, bit (s.rails.look p 0) pair = true → s.rails.look p 0 ≠ 2 ^ pair →
    exec (.railRestored (.port p) pair) s = .next { s with rails := s.rails.put p (s.rails.look p 0 - 2 ^ pair) 0 })

/-- Package safe (R339, R343, R344) releases the line safety outputs, latches the safe state and asserts FAULTn; clock-loss safe (R340)
does so too and stops the transmitters. -/
def Obligations.SafeStatesReleaseOutputs : Prop :=
  (∀ s t, (packageSafe s t).safety.lsoDrive = 0 ∧ (packageSafe s t).safety.safeLatch = true ∧ (packageSafe s t).safety.asserted = true) ∧
  (∀ s, (clockLossSafe s).safety.lsoDrive = 0 ∧ (clockLossSafe s).safety.safeLatch = true ∧ (clockLossSafe s).safety.asserted = true ∧
    (clockLossSafe s).safety.clockSafe = true ∧ ∀ p, canSend (clockLossSafe s) p = false)

/-! ### Boot, images and attestation -/

/-- SEC_QUERY answers; IMAGE_STAGE and IMAGE_VERIFY begin where R381 lets them and are refused elsewhere; IMAGE_ACTIVATE of the loaded bank
waits for its boundary B, and one more than 60 s ahead is TOO_LATE (R382); ATTEST answers the signed report of a part with an identity (R386); ROLLBACK_ADVANCE to the present
value changes nothing, to a lower one is INVALID, to a higher one the image allows burns the fuses between, and is refused where one of
them fails to read back burned, a physical event whose outcome the model leaves open (R385, log entry 45). -/
def Obligations.SecurityCommandsTakeEffect : Prop :=
  (∀ h w s, Accepted s 0x0C01 h w →
    exec (.secQuery h w) s = .next (deliver s h 0x0C01
      (.ok ([0x000, 0x004, 0x008, 0x00C, 0x010, 0x014, 0x030].map fun o => wd (secReg s o))))) ∧
  (∀ h w s, Accepted s 0x0C02 h w → prm w 2 % 64 = 0 → 256 ≤ prm w 2 → prm w 2 ≤ 4194304 → prm w 3 ≤ 1 → slotBarred s (prm w 3) = false →
    exec (.imageStage h w) s = .next (
      let u := unloadBank (setSlot s (prm w 3) {}) (prm w 3)
      deliver { u with sec := { u.sec with staging := some (prm w 3, prm w 2, w64 w 0) } } h 0x0C02 .ok)) ∧
  (∀ h w s, Accepted s 0x0C02 h w → prm w 2 % 64 = 0 → 256 ≤ prm w 2 → prm w 2 ≤ 4194304 → prm w 3 ≤ 1 → slotBarred s (prm w 3) = true →
    exec (.imageStage h w) s = .next (deliver s h 0x0C02 (.err stWrongState))) ∧
  (∀ h w s, Accepted s 0x0C03 h w → prm w 0 ≤ 1 → slotBarred s (prm w 0) = false →
    exec (.imageVerify h w) s = .next (
      let u := unloadBank s (prm w 0)
      deliver { u with sec := { u.sec with verifying := some (prm w 0) } } h 0x0C03 .ok)) ∧
  (∀ h w s, Accepted s 0x0C03 h w → prm w 0 ≤ 1 → slotBarred s (prm w 0) = true →
    exec (.imageVerify h w) s = .next (deliver s h 0x0C03 (.err stWrongState))) ∧
  (∀ h w s tb b, Accepted s 0x0C04 h w → prm w 0 ≤ 1 → instantAt w 1 = .ok tb → s.sec.bankLoaded = true → s.sec.bankSlot = prm w 0 →
    s.sec.actPending = none → s.sec.trial = none → b = firstAt tb s.line.baseCt (nowNs s + 4000) → b.1 ≤ nowNs s + 60000000000 →
    exec (.imageActivate h w) s = .next { s with sec := { s.sec with actPending := some (prm w 0, b.1, b.2), actReply := some h } }) ∧
  (∀ h w s tb b, Accepted s 0x0C04 h w → prm w 0 ≤ 1 → instantAt w 1 = .ok tb → s.sec.bankLoaded = true → s.sec.bankSlot = prm w 0 →
    s.sec.actPending = none → s.sec.trial = none → b = firstAt tb s.line.baseCt (nowNs s + 4000) → nowNs s + 60000000000 < b.1 →
    exec (.imageActivate h w) s = .next (deliver s h 0x0C04 (.err stTooLate 2))) ∧
  (∀ h w s tb, Accepted s 0x0C04 h w → prm w 0 ≤ 1 → instantAt w 1 = .ok tb → s.sec.bankLoaded = false →
    exec (.imageActivate h w) s = .next (deliver s h 0x0C04 (.err stWrongState))) ∧
  (∀ h w s, Accepted s 0x0C05 h w → s.otp.idValid = true →
    exec (.attest h w) s = .next (deliver { s with sec := { s.sec with rptSeq := (s.sec.rptSeq + 1) % 2 ^ 32 } } h 0x0C05
      (.ok (toWordsLe 72 (report s (wordsLe w)))))) ∧
  (∀ h w s, Accepted s 0x0C05 h w → s.otp.idValid = false →
    exec (.attest h w) s = .next (deliver s h 0x0C05 (.err stAuth))) ∧
  (∀ h w s, Accepted s 0x0C06 h w → prm w 0 < 128 → prm w 0 = s.otp.rollback →
    exec (.rollbackAdvance h w) s = .next (deliver s h 0x0C06 .ok)) ∧
  (∀ h w s, Accepted s 0x0C06 h w → prm w 0 < 128 → prm w 0 < s.otp.rollback →
    exec (.rollbackAdvance h w) s = .next (deliver s h 0x0C06 (.err stInvalid 1))) ∧
  (∀ h w s, Accepted s 0x0C06 h w → prm w 0 < 128 → s.otp.rollback < prm w 0 → prm w 0 ≤ leAt s.sec.image 12 1 →
    s.sec.actPending = none → s.sec.trial = none →
    exec (.rollbackAdvance h w) s = .next (
      let x := burnFuses (prm w 0 - s.otp.rollback) s
      if x.2 then deliver x.1 h 0x0C06 .ok else deliver (raise x.1 0x80018 16) h 0x0C06 (.err stRefused)))

/-- The boot flow and the activation flow (R377 to R384): the ROM starts, loads and starts the first image that passes every check, or
waits for the host, the check of what was loaded being a state of its own (BOOT_STATE 4; two uses of the row, the model's choice, log entry
167); BOOT_GO is taken in HOST_WAIT only; staging and verification end; at B the cores flip their bank, the new image
resumes on trial, sends what fell due since and answers k, and it is ready in time or the cores fall back. -/
def Obligations.BootAndActivationRun : Prop :=
  (∀ s, s.sec.bootState = 0 → clocksRun s = true → s.power.held = none → s.power.pinHeld = false →
    (s.power.ends.all fun e => !(coversPkg e.1)) = true →
    exec .bootStart s = .next { s with
      pcie := { s.pcie with up := s.pins.perstn && s.clock.pciOk }
      sec := { s.sec with bootState := if s.sec.bootSrc = 0 then 1 else 2 } }) ∧
  (∀ a b s, clocksRun s = true → s.power.held = none → s.power.pinHeld = false → s.sec.bootState = 1 →
    exec (.imageLoadDone a b) s = .next { s with sec := { s.sec with
      bootState := 4, checking := (bootOrder s a b).map fun e => (e.1, e.2.map flashImage) } }) ∧
  (∀ a b s, clocksRun s = true → s.power.held = none → s.power.pinHeld = false → s.sec.bootState = 3 →
    exec (.imageLoadDone a b) s = .next { s with sec := { s.sec with
      bootState := 4, checking := [(0, a.map fun b => b.take (reg s 0x80028 % 2 ^ 23))] } }) ∧
  (∀ a b s u i g l, clocksRun s = true → s.power.held = none → s.power.pinHeld = false → s.sec.bootState = 4 →
    s.sec.checking = (i, some g) :: l → u = { s with sec := { s.sec with checking := [] } } → imageCheck u g = none →
    exec (.imageLoadDone a b) s = .next (startImage u i g)) ∧
  (∀ a b s, clocksRun s = true → s.power.held = none → s.power.pinHeld = false → s.sec.bootState = 4 →
    s.sec.checking = [(0, none), (1, none)] →
    exec (.imageLoadDone a b) s = .next (
      let u := checkFailed (checkFailed { s with sec := { s.sec with checking := [] } } 11) 11
      { u with sec := { u.sec with bootState := 2 } })) ∧
  (∀ s, Reached s 0x8002C → s.sec.bootState = 2 →
    exec .bootGo s = .next { s with sec := { s.sec with bootState := 3 } }) ∧
  (∀ s, Reached s 0x8002C → s.sec.bootState ≠ 2 → exec .bootGo s = .next s) ∧
  (∀ s, coresRun s = true → s.sec.ran = false →
    exec .firmwareRunning s = .next (
      let u := (List.range (nDies s)).foldl trainDdr { s with sec := { s.sec with ran := true } }
      let v := setSlot u u.sec.activeSlot { state := 2, bytes := u.sec.image }
      setLockstep v (v.otp.part5124 && !v.power.memError))) ∧
  (∀ b s i n a, s.sec.staging = some (i, n, a) → coresRun s = true → fifoDead s = false → s.pcie.up = true →
    exec (.stageDone (some b)) s = .next (raise
      (setSlot { s with sec := { s.sec with staging := none } } i { state := 1, bytes := b.take n }) 0x80100 1)) ∧
  (∀ s i u, s.sec.verifying = some i → coresRun s = true → u = { s with sec := { s.sec with verifying := none } } →
    imageCheck u (slotOf u i).bytes = none →
    exec .verifyDone s = .next (
      let v := setSlot u i { state := 2, bytes := (slotOf u i).bytes }
      raise { v with sec := { v.sec with bank := (slotOf u i).bytes, bankLoaded := true, bankSlot := i } } 0x80100 2)) ∧
  (∀ s i u c, s.sec.verifying = some i → coresRun s = true → u = { s with sec := { s.sec with verifying := none } } →
    imageCheck u (slotOf u i).bytes = some c →
    exec .verifyDone s = .next (raise (checkFailed (setSlot u i { state := 3, bytes := (slotOf u i).bytes }) c) 0x80100 2)) ∧
  (∀ s i b k, s.sec.actPending = some (i, b, k) → coresRun s = true →
    exec .activationFlip s = .next { atNs s b with
      twin := { s.twin with fwRefresh := max (nowNs s) b }
      sec := { s.sec with image := s.sec.bank, bank := s.sec.image, flipped := true } }) ∧
  (∀ s i b k h u, s.sec.actPending = some (i, b, k) → s.sec.flipped = true → s.sec.actReply = some h →
    u = { s with sec := { s.sec with
      flipped := false, actPending := none, actReply := none, trial := some b, oldSlot := s.sec.activeSlot, activeSlot := i
      bankLoaded := false } } →
    exec .activationResume s = .next (deliver (dueLeaves (count (refreshAt u (nowNs u)) 0x80034 1)) h 0x0C04 (.rep (lateBit k) [wd (sat32 k)]))) ∧
  (∀ s b, s.sec.trial = some b → coresRun s = true → nowNs s ≤ b + 500000000 →
    exec .firmwareReady s = .next { s with
      sec := { s.sec with trial := none }
      otp := { s.otp with keyRevoked := s.otp.keyRevoked ||| (leAt s.sec.image 14 1 % 16) } }) ∧
  (∀ s b, s.sec.trial = some b → coresRun s = true →
    exec .fallback s = .next (
      let u := atNs s (nextLine s (b + 500000001))
      let v := swapBanks (refreshAt u (nowNs u))
      let v := setSlot v s.sec.activeSlot { slotOf v s.sec.activeSlot with state := 3 }
      raise { v with sec := { v.sec with trial := none, activeSlot := v.sec.oldSlot } } 0x80018 12))

/-- What an image must satisfy to pass its checks (R375, R376): the magic and format of its header, this part's number or any, its key
programmed and not revoked nor revoked by itself, the key's hash, a rollback index not below the fuses, a valid signature over its header
and the digest of its body. -/
def Obligations.ImagesThatPassAreSigned : Prop :=
  ∀ s g, imageCheck s g = none →
    128 ≤ g.length ∧ leAt g 0 4 = 0x53484E44 ∧ leAt g 4 2 = 1 ∧ (leAt g 6 2 = partNumber s ∨ leAt g 6 2 = 0xFFFF) ∧
    192 + leAt g 16 4 = g.length ∧ leAt g 13 1 < 4 ∧ bit s.otp.keyProg (leAt g 13 1) = true ∧
    bit s.otp.keyRevoked (leAt g 13 1) = false ∧ bit (leAt g 14 1) (leAt g 13 1) = false ∧
    ofBe (sha256 (sub g 56 64)) = s.otp.keyHash.getD (leAt g 13 1) 0 ∧ s.otp.rollback ≤ leAt g 12 1 ∧
    ecdsaVerify (beAt g 56 32) (beAt g 88 32) (ofBe (sha256 (g.take 128))) (beAt g (128 + leAt g 16 4) 32)
      (beAt g (160 + leAt g 16 4) 32) = true ∧
    ofBe (sha256 (sub g 128 (leAt g 16 4))) = beAt g 24 32

/-! ### Observation: trace, Bell port, archive, boundary scan -/

/-- TRACE_SET takes its mask, ring and Bell port and starts the stream again (R395); TRACE_QUERY answers the three counts; ARCHIVE_SET takes
its period and area, with the first instant at the first multiple of the period at or after now + 1 ms (R399); ARCHIVE_QUERY answers. -/
def Obligations.ObservationSettingsTakeEffect : Prop :=
  (∀ h w s, Accepted s 0x0D01 h w → fld w 0 31 8 = 0 → w64 w 1 % 2 ^ 20 = 0 → prm w 3 ≤ 4096 →
    areaBad s (w64 w 1) (prm w 3) s.arch.base s.arch.size = false → fld w 4 31 1 = 0 →
    exec (.traceSet h w) s = .next (
      let u := setReg (setReg (setReg s 0x90010 0) 0x90014 0) 0x90018 0
      deliver { u with trace := { s.trace with
        mask := prm w 0, base := w64 w 1, size := prm w 3, bellOn := bit (prm w 4) 0, seq := 0 } } h 0x0D01 .ok)) ∧
  (∀ h w s, Accepted s 0x0D02 h w →
    exec (.traceQuery h w) s = .next (deliver s h 0x0D02
      (.ok [wd (reg s 0x90010), wd (reg s 0x90014), wd (reg s 0x90018)]))) ∧
  (∀ h w s p, Accepted s 0x0D03 h w → p = prm w 0 → p = 0 ∨ (10 ≤ p ∧ p ≤ 60000) → w64 w 1 % 2 ^ 20 = 0 → 1 ≤ prm w 3 → prm w 3 ≤ 4096 →
    areaBad s (w64 w 1) (prm w 3) s.trace.base s.trace.size = false →
    exec (.archiveSet h w) s = .next (deliver { s with arch := { s.arch with
      period := p, base := w64 w 1, size := prm w 3, k := 0, busy := none
      next := if p = 0 then 0 else (nowUp s + 1000000 + p * 1000000 - 1) / (p * 1000000) * (p * 1000000) } } h 0x0D03 .ok)) ∧
  (∀ h w s, Accepted s 0x0D04 h w →
    exec (.archiveQuery h w) s = .next (deliver s h 0x0D04
      (.ok ([wd (reg s 0x90024), wd (reg s 0x90028)] ++ ltWords s.arch.last 0))))

/-- Trace records enter the stream, the ring and the Bell port, those of die 1 only over the die bridge, gaps carry the lost counts (R391 to
R397); TRC_CLK runs in the divider ramp too and in no reset; the archive latches and writes its records (R398); the boundary scan port loads
an instruction only with TEST_EN high and RSTn low, SAMPLE/PRELOAD and EXTEST shift the cells of the chain (free values, the model's choice,
log entry 178), and EXTEST drives the pins from them (R400). -/
def Obligations.ObservationEventsTakePlace : Prop :=
  (∀ d s r q, s.trace.queue.look d [] = r :: q → traceReaches s d = true → s.trace.size ≠ 0 → traceDead s = false →
    exec (.traceRecordWrite d) s = .next (bellPut (count
      (ddrWrite { s with trace := { s.trace with queue := s.trace.queue.put d q [], seq := s.trace.seq + 1 } } 0
        (s.trace.base + 32 * (s.trace.seq % (s.trace.size * 32768))) (traceBytes r s.trace.seq)) 0x90010 1) (traceBytes r s.trace.seq))) ∧
  (∀ d s r q, s.trace.queue.look d [] = r :: q → traceReaches s d = true → s.trace.size = 0 → s.trace.bellOn = true → traceDead s = false →
    s.trace.bellQ.length < 256 →
    exec (.traceRecordWrite d) s = .next { s with trace := { s.trace with
      queue := s.trace.queue.put d q [], seq := s.trace.seq + 1, bellQ := s.trace.bellQ ++ [traceBytes r s.trace.seq] } }) ∧
  (∀ d s r q, s.trace.queue.look d [] = r :: q → traceReaches s d = true → s.trace.size ≠ 0 → traceDead s = true →
    exec (.traceRecordWrite d) s = .next (traceDrop { s with trace := { s.trace with queue := s.trace.queue.put d q [] } } d)) ∧
  (∀ d s, traceReaches s d = false → exec (.traceRecordWrite d) s = .next s) ∧
  (∀ d s n, s.trace.pend.look d 0 = n → n ≠ 0 → (s.trace.queue.look d []).length < 512 → traceDead s = false →
    exec (.traceGap d) s = .next (raise { s with trace := { s.trace with
      queue := s.trace.queue.put d (s.trace.queue.look d [] ++ [{ type := 0xFE, t16 := now16 s, addr := 0x90000, args := [n] }]) []
      pend := s.trace.pend.put d 0 0 } } 0x90030 1)) ∧
  (∀ s b q, s.trace.bellQ = b :: q → trcRuns s = true →
    exec .bellRecordSend s = .next (emit { s with trace := { s.trace with bellQ := q } } (.bell (bellFrame b)))) ∧
  (∀ s, trcRuns s = false → exec .bellRecordSend s = .next s) ∧
  (∀ s, s.trace.bellPend ≠ 0 → s.trace.bellQ.length < 256 → s.trace.bellOn = true →
    exec .bellGap s = .next (raise { s with
      free := s.free + 1
      trace := { s.trace with
        bellPend := 0
        bellQ := s.trace.bellQ ++ [traceBytes { type := 0xFE, t16 := now16 s, addr := 0x90000, args := [s.trace.bellPend] }
          (Config.freeByte s.free).toNat] } } 0x90030 2)) ∧
  (∀ s u, s.arch.period ≠ 0 → clocksRun s = true → dieRuns s 0 = true → s.arch.busy = none → u = atNs s (archNext s) →
    exec .archiveLatch s = .next { u with arch := { s.arch with
      k := s.arch.k + 1, next := archNext s + s.arch.period * 1000000, busy := some (s.arch.k, archNext s, archived u) } }) ∧
  (∀ s, s.arch.period ≠ 0 → clocksRun s = true → dieRuns s 0 = true → s.arch.busy.isSome = true →
    exec .archiveLatch s = .next (
      let u := atNs s (archNext s)
      raise (count { u with arch := { s.arch with
        k := s.arch.k + 1, next := archNext s + s.arch.period * 1000000 } } 0x90028 1) 0x90030 4)) ∧
  (∀ s k t l, s.arch.busy = some (k, t, l) → clocksRun s = true → dieRuns s 0 = true → (ddrChan s 0).trained = true →
    exec .archiveRecordDone s = .next (
      let o := s.arch.base + 2 ^ 20 * (k % s.arch.size)
      let u := { s with
        ddr := Tbl.drop s.ddr fun i => decide (o ≤ i ∧ i < o + 2 ^ 20)
        arch := { s.arch with busy := none, last := t } }
      let v := ddrWrite u 0 o (le 4 0x41524348 ++ le 4 k ++ wordsLe (ltWords t 0))
      count (l.foldl (fun v x => ddrWrite v 0 (o + x.1) (le 4 x.2.toNat)) v) 0x90024 1)) ∧
  (∀ i s, s.pins.rstn = false → i = .bypass ∨ i = .clamp ∨ i = .highz →
    exec (.tapInstruction true i) s = .next { s with
      pins := { s.pins with testEn := true }, tap := { s.tap with inst := i, reset := false } }) ∧
  (∀ i s, s.pins.rstn = false → i = .samplePreload ∨ i = .extest →
    exec (.tapInstruction true i) s = .next { s with
      pins := { s.pins with testEn := true }, tap := { inst := i, reset := false, cells := s.free }, free := s.free + 1 }) ∧
  (∀ s, s.pins.rstn = false → exec (.tapInstruction true .idcode) s = .next (emit { s with
      pins := { s.pins with testEn := true }, tap := { s.tap with inst := .idcode, reset := false } } (.idcode (idcode s)))) ∧
  (∀ s n level, s.tap.reset = false → s.tap.inst = .extest → chainPin s n level = some (Config.freeCell s.tap.cells n)) ∧
  (∀ s n level, s.tap.reset = true ∨ s.tap.inst = .samplePreload ∨ s.tap.inst = .bypass → chainPin s n level = some level) ∧
  (∀ i s, exec (.tapInstruction false i) s = .next { s with pins := { s.pins with testEn := false }, tap := {} }) ∧
  (∀ e i s, s.pins.rstn = true → exec (.tapInstruction e i) s = .next { s with pins := { s.pins with testEn := e }, tap := {} })

/-! ### PCIe FIFOs, packets and registers -/

/-- Host writes to BAR2 and the FIFO registers (R289 to R294, R307): a mode 0 TLP that arrives whole at FRONT is appended, and rewinds
what is in filling where a header test fails or the TLP is poisoned, too long or out of place; a mode 1 write stores its enabled bytes and
completes packets; the read pointers move where they may. -/
def Obligations.HostFillsAndDrainsTheFifos : Prop :=
  (∀ o l s g, s.pcie.up = true → dieRuns s 0 = true → ctrlRuns s = true → s.sec.bootState = 5 → s.fifo.mode = false → o < 0x40000 →
    l.length ≤ 65536 - s.fifo.used → o = 4 * s.fifo.front → fillWords l s.fifo = (g, none) →
    exec (.cmdFifoWrite o l true false) s = .next { s with fifo := g }) ∧
  (∀ o l s g why, s.pcie.up = true → dieRuns s 0 = true → ctrlRuns s = true → s.sec.bootState = 5 → s.fifo.mode = false → o < 0x40000 →
    l.length ≤ 65536 - s.fifo.used → o = 4 * s.fifo.front → fillWords l s.fifo = (g, some why) →
    exec (.cmdFifoWrite o l true false) s = .next (rewind { s with fifo := g } why)) ∧
  (∀ o l b s, s.pcie.up = true → dieRuns s 0 = true → ctrlRuns s = true → s.sec.bootState = 5 → s.fifo.mode = false → o < 0x40000 →
    exec (.cmdFifoWrite o l b true) s = .next (rewind s 2)) ∧
  (∀ o l b s, s.pcie.up = true → dieRuns s 0 = true → ctrlRuns s = true → s.sec.bootState = 5 → s.fifo.mode = false → o < 0x40000 →
    65536 - s.fifo.used < l.length → exec (.cmdFifoWrite o l b false) s = .next (rewind s 6)) ∧
  (∀ o l b s, s.pcie.up = true → dieRuns s 0 = true → ctrlRuns s = true → s.sec.bootState = 5 → s.fifo.mode = false → o < 0x40000 →
    l.length ≤ 65536 - s.fifo.used → b = false ∨ o ≠ 4 * s.fifo.front → exec (.cmdFifoWrite o l b false) s = .next (rewind s 5)) ∧
  (∀ o l s g last, s.pcie.up = true → dieRuns s 0 = true → ctrlRuns s = true → s.sec.bootState = 5 → s.fifo.mode = true → o < 0x40000 → l ≠ [] →
    last = (o + l.length - 1) / 4 → (o / 4 + 65536 - s.fifo.front) % 65536 < 65536 - s.fifo.used →
    (last + 65536 - s.fifo.front) % 65536 < 65536 - s.fifo.used → last + 1 - o / 4 ≤ 65536 - s.fifo.used →
    complete 65536 (putBytes s.fifo o l) = (g, none) →
    exec (.cmdFifoWriteMode1 o l false) s = .next { s with fifo := g }) ∧
  (∀ o l s g p last, s.pcie.up = true → dieRuns s 0 = true → ctrlRuns s = true → s.sec.bootState = 5 → s.fifo.mode = true → o < 0x40000 → l ≠ [] →
    last = (o + l.length - 1) / 4 → (o / 4 + 65536 - s.fifo.front) % 65536 < 65536 - s.fifo.used →
    (last + 65536 - s.fifo.front) % 65536 < 65536 - s.fifo.used → last + 1 - o / 4 ≤ 65536 - s.fifo.used →
    p = putBytes s.fifo o l → complete 65536 { p with ends := p.ends.put (last % 65536) true false } = (g, none) →
    exec (.cmdFifoWriteMode1 (0x90000 + o) l false) s = .next { s with fifo := g }) ∧
  (∀ s, Reached s 0x70000 → inFilling s.fifo = true → exec .cmdAbort s = .next (rewind s 1)) ∧
  (∀ s, Reached s 0x70000 → inFilling s.fifo = false → exec .cmdAbort s = .next s) ∧
  (∀ b s, Reached s 0x70000 → s.fifo.mode = b → exec (.fifoModeWrite b) s = .next s) ∧
  (∀ b s, Reached s 0x70000 → s.fifo.mode ≠ b → inFilling s.fifo = false →
    exec (.fifoModeWrite b) s = .next { s with fifo := { s.fifo with mode := b } }) ∧
  (∀ b s, Reached s 0x70000 → s.fifo.mode ≠ b → inFilling s.fifo = true →
    exec (.fifoModeWrite b) s = .next (let u := rewind s 7; { u with fifo := { u.fifo with mode := b } })) ∧
  (∀ v s, Reached s 0x70024 →
    (v.toNat + 65536 - s.fifo.rplRd) % 65536 ≤ (s.fifo.rplWr + 65536 - s.fifo.rplRd) % 65536 →
    exec (.rplRdWrite v) s = .next { s with fifo := { s.fifo with rplRd := v.toNat } }) ∧
  (∀ v s, Reached s 0x70024 →
    (s.fifo.rplWr + 65536 - s.fifo.rplRd) % 65536 < (v.toNat + 65536 - s.fifo.rplRd) % 65536 →
    exec (.rplRdWrite v) s = .next (raise s 0x70038 4)) ∧
  (∀ v s, Reached s 0x7002C →
    (v.toNat + 16384 - s.fifo.evtRd) % 16384 ≤ s.fifo.evtUsed →
    exec (.evtRdWrite v) s = .next (evtGap { s with fifo := { s.fifo with
      evtRd := v.toNat, evtUsed := s.fifo.evtUsed - (v.toNat + 16384 - s.fifo.evtRd) % 16384 } })) ∧
  (∀ v s, Reached s 0x7002C →
    s.fifo.evtUsed < (v.toNat + 16384 - s.fifo.evtRd) % 16384 →
    exec (.evtRdWrite v) s = .next s)

/-- The control cores serve their three paths in turn (R295): a command of the path whose turn it is is taken, of another not. The oldest
packet of the ring (R285, R306): tests 3 to 5 of the header order answer the first that fails, a packet for another device is routed, an
opcode R306 does not define is UNKNOWN_OPCODE, and one it defines runs; a packet with a stored parity error is discarded as a rewind
(R292). A frame of the management ports and of the Hyith links is taken likewise. -/
def Obligations.CommandsAreTakenAndRun : Prop :=
  (∀ s v x h u, coresFree s = true → pathTurn s = some 0 → v = { s with served := 0 } → x = takePacket v → h = pktHdr .pcie x.2 →
    packetTests h x.2 = none → h.devno = s.sys.devno → runOpcode (pktOp x.2) h (pktParams x.2) x.1 = some (.next u) →
    exec (.commandTake .pcie false) s = .next u) ∧
  (∀ s v x h, coresFree s = true → pathTurn s = some 0 → v = { s with served := 0 } → x = takePacket v → h = pktHdr .pcie x.2 →
    packetTests h x.2 = none → h.devno = s.sys.devno → runOpcode (pktOp x.2) h (pktParams x.2) x.1 = none →
    exec (.commandTake .pcie false) s = .next (deliver x.1 h (pktOp x.2) (.err stUnknownOpcode))) ∧
  (∀ s v x h r, coresFree s = true → pathTurn s = some 0 → v = { s with served := 0 } → x = takePacket v → h = pktHdr .pcie x.2 →
    packetTests h x.2 = some r →
    exec (.commandTake .pcie false) s = .next (deliver x.1 h (pktOp x.2) r)) ∧
  (∀ s v x h, coresFree s = true → pathTurn s = some 0 → v = { s with served := 0 } → x = takePacket v → h = pktHdr .pcie x.2 →
    packetTests h x.2 = none → h.devno ≠ s.sys.devno →
    exec (.commandTake .pcie false) s = .next (routePacket x.1 h (pktOp x.2) 0 (wordsBe x.2))) ∧
  (∀ s v x, coresFree s = true → pathTurn s = some 0 → v = { s with served := 0 } → x = takePacket v →
    exec (.commandTake .pcie true) s = .next (raise (count { x.1 with fifo := { x.1.fifo with why := 2 } } 0x70018 1) 0x70038 1)) ∧
  (∀ s f q b, coresFree s = true → pathTurn s = some 1 → s.mgmtQ = f :: q →
    exec (.commandTake .frames b) s = .next
      (runFrame { s with served := 1, mgmtQ := q } (.mgmt f.port f.sa f.tags) f.bytes 0)) ∧
  (∀ s f q b, coresFree s = true → pathTurn s = some 2 → s.hyithQ = f :: q → isReply f.bytes = false →
    exec (.commandTake .hyith b) s = .next (runFrame
      (modHlink { s with served := 2, hyithQ := q } f.uplink fun l => { l with rxLimit := (l.rxLimit + 1) % 65536 })
      (.hyith f.uplink f.origin) f.bytes f.hops)) ∧
  (∀ s i p b, pathTurn s = some i → p ≠ pathOf i → exec (.commandTake p b) s = .next s) ∧
  (∀ s p b, pathTurn s = none → exec (.commandTake p b) s = .next s) ∧
  (∀ s p b, coresFree s = false → exec (.commandTake p b) s = .next s)

/-- Accesses of BAR0 (R7, R28, R238, R426, R427): a whole word written to an event register clears the bits written as 1 that no event of
the same CTRL cycle set (R7), to its enable register sets the mask; a narrower or unaligned write to a defined register is discarded and
counted; reserved space ignores it. A read of an octet counter latches its high word, a read of a capture's word 3 clears LOST, and a read
that breaks the rules ends with Completer Abort. An access to a region in its gate handshake is held (R367); with the link down none arrives. A write that reaches a mover's block completes whatever it writes and whatever state the
channel or ring is in, after a hand-over that waits (R311, R312): it is taken, ignored or answered by its event. -/
def Obligations.RegistersAreWrittenAndRead : Prop :=
  (∀ a v s e, a < 0x4000000 → a % 4 = 0 → Reached s a → defined s (blkOf a) = true → enableAddr a = some e →
    accHeld s (.write a v 15) = false →
    exec (.registerWrite a v 15) s = .next (setReg s a (reg s a &&& (0xFFFFFFFF ^^^ clears s a v.toNat)))) ∧
  (∀ a v s, a < 0x4000000 → a % 4 = 0 → Reached s a → defined s (blkOf a) = true → enableAddr a = none → 4 ≤ a →
    accHeld s (.write a v 15) = false →
    enableAddr (a - 4) = some a →
    exec (.registerWrite a v 15) s = .next (setReg s a (v.toNat % 2 ^ eventWidth (blkOf (a - 4))))) ∧
  (∀ a v s, a < 0x4000000 → a % 4 = 0 → Reached s a → defined s (blkOf a) = true → accHeld s (.write a v 15) = false →
    exec (.registerWrite a v 15) s = .next (writeWord s a v)) ∧
  (∀ a v be s, a < 0x4000000 → Reached s a → defined s (blkOf (a - a % 4)) = true → a % 4 ≠ 0 ∨ be ≠ 15 →
    accHeld s (.write a v be) = false →
    exec (.registerWrite a v be) s = .next (count s 0x20 1)) ∧
  (∀ a v be s, a < 0x4000000 → Reached s a → defined s (blkOf (a - a % 4)) = false → accHeld s (.write a v be) = false →
    exec (.registerWrite a v be) s = .next s) ∧
  (∀ a p o s, blkOf a = .port p o → o = 0x100 ∨ o = 0x180 → Reached s a → hasPort s p = true → accHeld s (.readLo a) = false →
    exec (.counterLoRead a) s = .next (emit { s with hiLatch := s.hiLatch.put a (wd (reg s (a + 4))) 0 } (.read [wd (reg s a)]))) ∧
  (∀ a o s, blkOf a = .pkg 5 o → 0x100 ≤ o → o < 0x140 → o % 16 = 12 → Reached s a →
    exec (.rcRead a) s = .next (
      let n := settledLost s ((o - 0x100) / 16)
      emit (modCapture s ((o - 0x100) / 16) fun c => { c with lost := c.lost - n })
        (.read [wd (pulseReg s o % 65536 + 65536 * n)]))) ∧
  (∀ a s, a < 0x4000000 → busStop s (blkOf a) = none → inSlow (blkOf a) = true ∨ dieRuns s 0 = true → defined s (blkOf (a - a % 4)) = true →
    a % 4 ≠ 0 → s.pcie.up = true → accHeld s (.read 0 a 1) = false →
    exec (.completerAbortRead 0 a 1) s = .next (emit (count s 0x20 1) (.completerAbort 0 a))) ∧
  (∀ a n s, dieRuns s 0 = true → ctrlRuns s = true → s.sec.bootState = 5 → inPage a n = false → s.pcie.up = true →
    exec (.completerAbortRead 2 a n) s = .next (emit (count s 0x20 1) (.completerAbort 2 a))) ∧
  (∀ a n s, dieRuns s 0 = false → s.pcie.up = true →
    exec (.completerAbortRead 2 a n) s = .next (emit (accessErr s 8) (.completerAbort 2 a))) ∧
  (∀ b a n s, s.pcie.up = false → exec (.completerAbortRead b a n) s = .next s) ∧
  (∀ a v be s, accHeld s (.write a v be) = true →
    exec (.registerWrite a v be) s = .next { s with power := { s.power with heldAcc := s.power.heldAcc ++ [.write a v be] } }) ∧
  (∀ b a n s, accHeld s (.read b a n) = true →
    exec (.completerAbortRead b a n) s = .next { s with power := { s.power with heldAcc := s.power.heldAcc ++ [.read b a n] } }) ∧
  (∀ m o v s, Reached s (chanBase m + o) →
    exec (.moverSetWrite m o v) s = .next (setWrite s m o v (decide (o = 0x14) && bit v.toNat 0))) ∧
  (∀ m v s, Reached s (chanBase m + 0x14) → exec (.moverGo m v) s = .next (setWrite s m 0x14 v true)) ∧
  (∀ m s, Reached s (chanBase m + 0x20) → exec (.moverAbort m) s = .next (
    let u := handOver s m
    if (chan u m).state ≠ 1 then u
    else settleXfer (modChan u m fun c => { c with
      state := 2, shd := noShadow, armed := false
      x := { c.x with ending := worse c.x.ending 1, dropped := (chan u m).armed } }) m)) ∧
  (∀ m s, Reached s (chanBase m + 0x20) → exec (.moverClear m) s = .next (
    let u := handOver s m
    if (chan u m).state ≠ 4 then u else modChan u m fun c => { c with state := 0, shd := noShadow, armed := false })) ∧
  (∀ d r o v s, Reached s (moverBase d + 0x2000 + 0x20 * r + o) → ∃ t, exec (.ringCfgWrite d r o v) s = .next t ∧
    (t = s ∨ (∃ c, c < 32 ∧ t = moverEvent s d c 5) ∨
      ∃ f : MRing → MRing, t = modMring s d r fun x => { f x with wr := 0, rd := 0, rseq := 0 })) ∧
  (∀ d r v s, Reached s (moverBase d + 0x2000 + 0x20 * r + 0x10) → exec (.crRdWrite d r v) s = .next (
    let x := mring s d r
    if r ≤ 3 ∧ (x.wr + 131072 - v.toNat) % 131072 ≤ ringRoom x then modMring s d r fun x => { x with rd := v.toNat } else s))

/-! ### The mover -/

/-- Writes of the mover's registers (R311, R312, R319, R320, R324): a write reaches the active set while the channel is IDLE, else the
shadow set while it is not armed; GO starts a transfer or arms; ABORT acts in RUN only, CLEAR in HALTED only; a completion ring is
configured while no channel uses it; CR_RD moves where it leaves the ring at most its 2^CR_K records. -/
def Obligations.MoverRegistersAreWritten : Prop :=
  (∀ m o v s, Reached s (chanBase m + o) → o % 4 = 0 → o ≤ 0x18 → o ≠ 0x14 ∨ bit v.toNat 0 = false → (chan s m).handover = false →
    (chan s m).state = 0 → exec (.moverSetWrite m o v) s = .next (modChan s m fun c => { c with act := setWord c.act o v })) ∧
  (∀ m o v s, Reached s (chanBase m + o) → o % 4 = 0 → o ≤ 0x18 → o ≠ 0x14 ∨ bit v.toNat 0 = false → (chan s m).handover = false →
    (chan s m).state ≠ 0 → (chan s m).armed = false →
    exec (.moverSetWrite m o v) s = .next (modChan s m fun c => { c with shd := setWord c.shd o v, armed := false })) ∧
  (∀ m o v s, Reached s (chanBase m + o) → o % 4 = 0 → o ≤ 0x18 → (chan s m).handover = false →
    (chan s m).state ≠ 0 → (chan s m).armed = true →
    exec (.moverSetWrite m o v) s = .next (moverEvent s (dieOfMover m) (m % 32) 3)) ∧
  (∀ m v s u, Reached s (chanBase m + 0x14) → (chan s m).handover = false → (chan s m).state = 0 →
    u = modChan s m (fun c => { c with act := setWord c.act 0x14 v }) → ringOn (mring u (dieOfMover m) (mRing (chan u m).act)) = true →
    (chan u m).act.count ≠ 0 →
    startBad u (dieOfMover m) (chan u m).act = none →
    exec (.moverGo m v) s = .next (modChan u m fun c => { c with
      state := 1, allow := 8 * mBurst c.act, allowAt := coreCycle u
      x := { src := sideInit (chan u m).act false, dst := sideInit (chan u m).act true } })) ∧
  (∀ m v s, Reached s (chanBase m + 0x14) → (chan s m).handover = false → (chan s m).state ≠ 0 → (chan s m).armed = false →
    exec (.moverGo m v) s = .next (modChan s m fun c => { c with shd := setWord c.shd 0x14 v, armed := true })) ∧
  (∀ m o v s, Reached s (chanBase m + o) → o % 4 ≠ 0 ∨ 0x18 < o → (chan s m).handover = false →
    exec (.moverSetWrite m o v) s = .next s) ∧
  (∀ m v s u, Reached s (chanBase m + 0x14) → (chan s m).handover = false → (chan s m).state = 0 →
    u = modChan s m (fun c => { c with act := setWord c.act 0x14 v }) → ringOn (mring u (dieOfMover m) (mRing (chan u m).act)) = false →
    exec (.moverGo m v) s = .next (moverEvent (modChan u m fun c => { c with
      state := 0, lastStatus := 7, handover := true
      x := { src := sideInit (chan u m).act false, dst := sideInit (chan u m).act true, atStart := true } }) (dieOfMover m) (m % 32) 4)) ∧
  (∀ m v s u e, Reached s (chanBase m + 0x14) → (chan s m).handover = false → (chan s m).state = 0 →
    u = modChan s m (fun c => { c with act := setWord c.act 0x14 v }) → ringOn (mring u (dieOfMover m) (mRing (chan u m).act)) = true →
    startBad u (dieOfMover m) (chan u m).act = some e →
    exec (.moverGo m v) s = .next (moverEvent (finish (modChan (modChan u m fun c => { c with
      state := 1, allow := 8 * mBurst c.act, allowAt := coreCycle u
      x := { src := sideInit (chan u m).act false, dst := sideInit (chan u m).act true } })
      m fun c => { c with x := { c.x with atStart := true } }) m e) (dieOfMover m) (m % 32) 4)) ∧
  (∀ m v s, Reached s (chanBase m + 0x14) → (chan s m).handover = false → (chan s m).state ≠ 0 → (chan s m).armed = true →
    exec (.moverGo m v) s = .next (moverEvent s (dieOfMover m) (m % 32) 3)) ∧
  (∀ m s, Reached s (chanBase m + 0x20) → (chan s m).handover = false → (chan s m).state = 1 →
    exec (.moverAbort m) s = .next (settleXfer (modChan s m fun c => { c with
      state := 2, shd := noShadow, armed := false
      x := { c.x with ending := worse c.x.ending 1, dropped := c.armed } }) m)) ∧
  (∀ m s, Reached s (chanBase m + 0x20) → (chan s m).handover = false → (chan s m).state ≠ 1 → exec (.moverAbort m) s = .next s) ∧
  (∀ m s, Reached s (chanBase m + 0x20) → (chan s m).handover = false → (chan s m).state = 4 →
    exec (.moverClear m) s = .next (modChan s m fun c => { c with state := 0, shd := noShadow, armed := false })) ∧
  (∀ m s, Reached s (chanBase m + 0x20) → (chan s m).handover = false → (chan s m).state ≠ 4 → exec (.moverClear m) s = .next s) ∧
  (∀ d r v s, Reached s (moverBase d + 0x2000 + 0x20 * r) → r ≤ 3 →
    (∀ c, c < 32 → (chan s (32 * d + c)).state = 0 ∨ (chan s (32 * d + c)).state = 4 ∨ mRing (chan s (32 * d + c)).act ≠ r) →
    exec (.ringCfgWrite d r 0 v) s = .next (modMring s d r fun x =>
      { x with wr := 0, rd := 0, rseq := 0, baseLo := v &&& 0xFFFFF000#32 })) ∧
  (∀ d r v s, Reached s (moverBase d + 0x2000 + 0x20 * r + 4) → r ≤ 3 →
    (∀ c, c < 32 → (chan s (32 * d + c)).state = 0 ∨ (chan s (32 * d + c)).state = 4 ∨ mRing (chan s (32 * d + c)).act ≠ r) →
    exec (.ringCfgWrite d r 4 v) s = .next (modMring s d r fun x =>
      { x with wr := 0, rd := 0, rseq := 0, baseHi := v })) ∧
  (∀ d r c o v s, Reached s (moverBase d + 0x2000 + 0x20 * r + o) → r ≤ 3 → o = 0 ∨ o = 4 ∨ o = 8 → c < 32 →
    1 ≤ (chan s (32 * d + c)).state → (chan s (32 * d + c)).state ≤ 3 → mRing (chan s (32 * d + c)).act = r →
    (∀ k, k < c → (chan s (32 * d + k)).state = 0 ∨ (chan s (32 * d + k)).state = 4 ∨ mRing (chan s (32 * d + k)).act ≠ r) →
    exec (.ringCfgWrite d r o v) s = .next (moverEvent s d c 5)) ∧
  (∀ d r o v s, Reached s (moverBase d + 0x2000 + 0x20 * r + o) → 3 < r ∨ (o ≠ 0 ∧ o ≠ 4 ∧ o ≠ 8) →
    exec (.ringCfgWrite d r o v) s = .next s) ∧
  (∀ d r v s, Reached s (moverBase d + 0x2000 + 0x20 * r + 8) → r ≤ 3 →
    (∀ c, c < 32 → (chan s (32 * d + c)).state = 0 ∨ (chan s (32 * d + c)).state = 4 ∨ mRing (chan s (32 * d + c)).act ≠ r) →
    exec (.ringCfgWrite d r 8 v) s = .next (modMring s d r fun x =>
      { x with wr := 0, rd := 0, rseq := 0, cfg := v &&& 0x3FFFF#32 })) ∧
  (∀ d r v s, Reached s (moverBase d + 0x2000 + 0x20 * r + 0x10) → r ≤ 3 →
    ((mring s d r).wr + 131072 - v.toNat) % 131072 ≤ ringRoom (mring s d r) →
    exec (.crRdWrite d r v) s = .next (modMring s d r fun x => { x with rd := v.toNat })) ∧
  (∀ d r v s, Reached s (moverBase d + 0x2000 + 0x20 * r + 0x10) →
    3 < r ∨ ringRoom (mring s d r) < ((mring s d r).wr + 131072 - v.toNat) % 131072 →
    exec (.crRdWrite d r v) s = .next s)

/-- What the mover does of itself (R312 to R321): the only channel with a burst to issue charges its credit and issues it; a burst that
completes is held and written as far as the destination takes it; a failed one is tried again while RETRY allows; a list entry is taken and checked, and one whose fetch fails beyond RETRY ends the
list with its ending;
the record of an ended transfer is written once its ring has space, and the hand-over ends a transfer in IDLE or in the shadow's. -/
def Obligations.MoverWorks : Prop :=
  (∀ d l a n s u, clocksRun s = true → dieRuns s d = true → l < 32 → nextBurst (chan s (32 * d + l)) = some (a, n) →
    (∀ k, k < 32 → k ≠ l → nextBurst (chan s (32 * d + k)) = none) →
    a + (if mFix (chan s (32 * d + l)).act false then mW (chan s (32 * d + l)).act false else n) ≤
      spaceSize s d (mSp (chan s (32 * d + l)).act false) →
    u = chargeBurst s (32 * d + l) n →
    exec (.moverBurstIssue d) s = .next (
      let v := { u with mdies := u.mdies.put d { mdie u d with lastServed := l } {} }
      stepLists (modChan v (32 * d + l) fun c => { c with x := { c.x with
        read := c.x.read + n, flight := c.x.flight ++ [(a, n, 0)]
        src := if mSg c.act false then { c.x.src with ofs := c.x.src.ofs + n } else c.x.src } }) (32 * d + l))) ∧
  (∀ m a n t r l b s, (chan s m).x.flight = (a, n, t) :: r → clocksRun s = true → dieRuns s (dieOfMover m) = true →
    spaceUp s (dieOfMover m) (mSp (chan s m).act false) = true → b = burstBytes s m a n l → n ≤ b.length →
    exec (.moverBurstComplete m true l) s = .next (settleXfer (modChan s m fun c => { c with
      x := { c.x with flight := r, hold := c.x.hold ++ b } }) m)) ∧
  (∀ m a n t r l s, (chan s m).x.flight = (a, n, t) :: r → clocksRun s = true → dieRuns s (dieOfMover m) = true →
    t < mRetry (chan s m).act →
    exec (.moverBurstComplete m false l) s = .next (
      let u := countMover (modChan s m fun c => { c with x := { c.x with retries := c.x.retries + 1 } }) (dieOfMover m) (m % 32) 0x2110 1
      chargeBurst (modChan u m fun c => { c with x := { c.x with flight := (a, n, t + 1) :: r } }) m n)) ∧
  (∀ m a n t r l s, (chan s m).x.flight = (a, n, t) :: r → clocksRun s = true → dieRuns s (dieOfMover m) = true →
    mRetry (chan s m).act ≤ t →
    exec (.moverBurstComplete m false l) s = .next (settleXfer (modChan s m fun c => { c with
      x := { c.x with ending := worse c.x.ending 2, flight := [] } }) m)) ∧
  (∀ m e s, needsEntry (chan s m) false = true → clocksRun s = true → dieRuns s (dieOfMover m) = true →
    mSp (chan s m).act false = 0 → spaceUp s (dieOfMover m) 0 = true → (chan s m).x.src.next + 16 ≤ 2 ^ 64 →
    exec (.moverListFetch m false true e) s = .next (settleXfer (modChan s m fun c => { c with
      x := { c.x with src := if entryBad s m false c.x.src e then failEntry c.x.src 6 else takeEntry c.x.src e } }) m)) ∧
  (∀ m e s, needsEntry (chan s m) true = true → clocksRun s = true → dieRuns s (dieOfMover m) = true →
    mSp (chan s m).act true = 0 → spaceUp s (dieOfMover m) 0 = true → (chan s m).x.dst.next + 16 ≤ 2 ^ 64 →
    exec (.moverListFetch m true true e) s = .next (settleXfer (modChan s m fun c => { c with
      x := { c.x with dst := if entryBad s m true c.x.dst e then failEntry c.x.dst 6 else takeEntry c.x.dst e } }) m)) ∧
  (∀ m dst e s, needsEntry (chan s m) dst = true → clocksRun s = true → dieRuns s (dieOfMover m) = true →
    mRetry (chan s m).act ≤ (if dst then (chan s m).x.dst else (chan s m).x.src).tries →
    exec (.moverListFetch m dst false e) s = .next (settleXfer (modChan s m fun c => { c with
      x := if dst then { c.x with dst := failEntry c.x.dst 2 } else { c.x with src := failEntry c.x.src 2 } }) m)) ∧
  (∀ m e s d r, (chan s m).x.ending = some e → (chan s m).state = 3 → (chan s m).handover = false → clocksRun s = true →
    dieRuns s (dieOfMover m) = true → d = dieOfMover m → r = mring s d (mRing (chan s m).act) → ringFull r = false →
    spaceOpen s d (bits r.cfg.toNat 6 5) = true → hostUp s d = true → e ≠ 0 → e ≠ 1 →
    exec (.moverRecordWrite m) s = .next (
      let k := mRing (chan s m).act
      let u := putSpace s d (bits r.cfg.toNat 6 5) (r.baseLo.toNat + r.baseHi.toNat * 2 ^ 32 + 32 * (r.wr % 2 ^ bits r.cfg.toNat 4 0))
        (wordsLe (recordWords s m e))
      let u := countMover (modMring u d k fun r => { r with wr := (r.wr + 1) % 131072, rseq := (r.rseq + 1) % 2 ^ 32 })
        d (m % 32) 0x2118 1
      modChan (emit u (.msix (bits r.cfg.toNat 17 7))) m fun c => { c with lastStatus := e, handover := true })) ∧
  (∀ m s d r, (chan s m).x.ending = some 0 → (chan s m).state = 3 → (chan s m).handover = false → clocksRun s = true →
    dieRuns s (dieOfMover m) = true → d = dieOfMover m → r = mring s d (mRing (chan s m).act) → ringFull r = false →
    spaceOpen s d (bits r.cfg.toNat 6 5) = true → mIrq (chan s m).act = false →
    exec (.moverRecordWrite m) s = .next (
      let k := mRing (chan s m).act
      let u := putSpace s d (bits r.cfg.toNat 6 5) (r.baseLo.toNat + r.baseHi.toNat * 2 ^ 32 + 32 * (r.wr % 2 ^ bits r.cfg.toNat 4 0))
        (wordsLe (recordWords s m 0))
      let u := countMover (modMring u d k fun r => { r with wr := (r.wr + 1) % 131072, rseq := (r.rseq + 1) % 2 ^ 32 })
        d (m % 32) 0x2118 1
      modChan u m fun c => { c with lastStatus := 0, handover := true })) ∧
  (∀ m e s, (chan s m).x.ending = some e → (chan s m).state = 3 → (chan s m).handover = false → clocksRun s = true →
    dieRuns s (dieOfMover m) = true → ringFull (mring s (dieOfMover m) (mRing (chan s m).act)) = true → (chan s m).x.fullRaised = true →
    exec (.moverRecordWrite m) s = .next s) ∧
  (∀ m e s d r, (chan s m).x.ending = some e → (chan s m).state = 3 → (chan s m).handover = false → clocksRun s = true →
    dieRuns s (dieOfMover m) = true → d = dieOfMover m → r = mring s d (mRing (chan s m).act) → ringFull r = false →
    spaceOpen s d (bits r.cfg.toNat 6 5) = false → exec (.moverRecordWrite m) s = .next s) ∧
  (∀ m s, clocksRun s = true → dieRuns s (dieOfMover m) = true → (chan s m).handover = true → (chan s m).x.ending = some 1 →
    exec (.moverHandover m) s = .next (modChan (modChan s m fun c => { c with handover := false }) m fun c => { c with state := 0 })) ∧
  (∀ m e s, clocksRun s = true → dieRuns s (dieOfMover m) = true → (chan s m).handover = true → (chan s m).x.ending = some e →
    e ≠ 1 → (chan s m).x.atStart = true ∨ (e ≠ 2 ∧ e ≠ 3) → (chan s m).armed = false →
    exec (.moverHandover m) s = .next (modChan (modChan s m fun c => { c with handover := false }) m fun c =>
      { c with act := c.shd, shd := noShadow, armed := false, state := 0, allow := allowAt c (coreCycle s) })) ∧
  (∀ m e s, clocksRun s = true → dieRuns s (dieOfMover m) = true → (chan s m).handover = true → (chan s m).x.ending = some e →
    e = 2 ∨ e = 3 → (chan s m).x.atStart = false →
    exec (.moverHandover m) s = .next (moverEvent (countMover
      (modChan (modChan s m fun c => { c with handover := false }) m fun c => { c with state := 4 })
      (dieOfMover m) (m % 32) 0x2114 1) (dieOfMover m) (m % 32) 0)) ∧
  (∀ m s, (chan s m).handover = false → exec (.moverHandover m) s = .next s)

/-! ### The machine as a whole -/

/-- A step runs the command at the front of the queue on the state with the queue's rest. -/
def Obligations.AStepRunsTheFrontCommand : Prop :=
  ∀ c r s, s.pending = c :: r → step s = exec c { s with pending := r }

/-- On an empty queue a step is one TIME cycle and nothing else: line time gains the cycle's length (the model's choice, log entry 1). -/
def Obligations.AnEmptyQueueIsATimeCycle : Prop :=
  ∀ s, s.pending = [] → step s = .next { s with time := { s.time with units := (s.time.units + tickUnits s) % unitsWrap } }

/-- What reset leaves: line time 0 in FREE with one step permit and RATE 0 (R49), BASE_CT 62,500 ns (R79), role OFF (R253), axes OFF
(R142), courses and valves OFF, the axis image zero, no queue mapped to a port, every mover channel in IDLE, no transaction open, no command
waiting, and the event registers and counters zero. That DDR4 reads 0 is the model's choice (log entry 3). -/
def Obligations.ResetLeaves : Prop :=
  nowNs State.reset = 0 ∧ nowFrac State.reset = 0 ∧ State.reset.time.state = .free ∧ State.reset.time.permit = true ∧
  State.reset.time.rate = 0 ∧ State.reset.line.baseCt = 62500 ∧ State.reset.twin.role = .off ∧
  (∀ p, (port State.reset p).valve.state = 0 ∧ (port State.reset p).course.state = 0) ∧
  (∀ a, (axis State.reset a).dyn.state = 0) ∧ (∀ a, reg State.reset a = 0) ∧
  (∀ a o n, imgRead State.reset a o n = List.replicate n 0) ∧ (∀ q, (qcfg State.reset q).port = 0x3FF) ∧
  (∀ d a, ddrGet State.reset d a = 0) ∧ (∀ m, (chan State.reset m).state = 0) ∧ State.reset.txns = [] ∧ State.reset.pending = []

/-- The invariant holds at reset: the OTP's fields lie in their ranges. -/
def Obligations.TheOtpIsInRangeAtReset : Prop := OtpOk State.reset.otp

/-- Every step, from every state, answers a next state: it takes the front command off the queue, and its OTP differs at most by fuses blown
(the rollback value rises, to at most 127, and key revocation bits set), so that an OTP in its ranges stays in them (R374, R385). -/
def Obligations.EveryStepGoesOnAndOnlyBlowsFuses : Prop :=
  (∀ s, ∃ t, step s = .next t ∧ OtpStep s.otp t.otp ∧ t.pending = s.pending.tail) ∧
  (∀ s t, step s = .next t → OtpOk s.otp → OtpOk t.otp)

/-- A command that fails a test of its header answers that test's reply and does nothing else but report it (R285); one for another
device is routed where its way has room, else it waits (R284, R273); a member of a transaction that is not open answers TXN_UNKNOWN (R296); one that meets a busy unit answers BUSY (R299), one whose target is stopped STOPPED with the access counted
(R369); and while no command starts nothing happens at all (R293, R368). -/
def Obligations.RefusedCommandsOnlyReply : Prop :=
  (∀ i op h w s r, i.command = some (op, h, w) → coresFree s = true → canTake s h = true →
    targetAgrees h = true → h.devno = s.sys.devno → headerTests s h op w = some r →
    exec i s = .next (deliver (authEvent s op r) h op r) ∧ OnlyReplies s (deliver (authEvent s op r) h op r)) ∧
  (∀ i op h w s, i.command = some (op, h, w) → coresFree s = true → canTake s h = true →
    targetAgrees h = true → h.devno ≠ s.sys.devno → hasRoom s h = true →
    exec i s = .next (routePacket s h op 0 (cmdBytes h op w))) ∧
  (∀ i op h w s, i.command = some (op, h, w) → coresFree s = true → canTake s h = true →
    targetAgrees h = true → h.devno ≠ s.sys.devno → hasRoom s h = false → exec i s = .next s) ∧
  (∀ i op h w s, i.command = some (op, h, w) → coresFree s = true → canTake s h = true →
    targetAgrees h = true → h.devno = s.sys.devno → headerTests s h op w = none → h.txn = true → findTxn s h h.txid false = none →
    exec i s = .next (deliver s h op (.err stTxnUnknown))) ∧
  (∀ i op h w s, i.command = some (op, h, w) → coresFree s = true → canTake s h = true →
    targetAgrees h = true → h.devno = s.sys.devno → headerTests s h op w = none →
    (h.txn = true → (findTxn s h h.txid false).isSome = true) → busy s h (unitsIn s op h w) = true →
    exec i s = .next (deliver (failMember s h op w stBusy) h op (.err stBusy))) ∧
  (∀ i op h w s d, i.command = some (op, h, w) → coresFree s = true → canTake s h = true →
    targetAgrees h = true → h.devno = s.sys.devno → headerTests s h op w = none →
    (h.txn = true → (findTxn s h h.txid false).isSome = true) → busy s h (unitsIn s op h w) = false →
    stoppedTarget s op h w = some d →
    exec i s = .next (deliver (failMember (accessErr s d) h op w stStopped) h op (.err stStopped))) ∧
  (∀ i op h w s, i.command = some (op, h, w) → coresFree s = false ∨ canTake s h = false → exec i s = .next s)

/-- What reports an event reports and changes nothing else: setting event bits, counting, and the reply to a command (R237, R282, R293,
R294, R331, R392). -/
def Obligations.ReportsOnlyReport : Prop :=
  (∀ s a b, OnlyReports s (raise s a b)) ∧ (∀ s a n, OnlyReports s (count s a n)) ∧ (∀ s a n, OnlyReports s (count64 s a n)) ∧
  (∀ s h op r, OnlyReplies s (deliver s h op r))

/-- DDR4 reads what was stored last, every other byte as before, and its list of cells keeps its canonical form. -/
def Obligations.Ddr4HoldsWhatWasStored : Prop :=
  (∀ s d a l, Memory.wf s.ddr = true → ddrRead (ddrWrite s d a l) d a l.length = l) ∧
  (∀ s d a l e b, d * 2 ^ 36 + a + l.length ≤ e * 2 ^ 36 + b ∨ e * 2 ^ 36 + b < d * 2 ^ 36 + a →
    ddrGet (ddrWrite s d a l) e b = ddrGet s e b) ∧
  (∀ s d a l, Memory.wf s.ddr = true → Memory.wf (ddrWrite s d a l).ddr = true)

/-- The packet of any command, with every value its header's fields may hold, is read back as that command (R282, R283, R285, R306): it passes
the tests of the header, its fields, opcode and parameters are those given, a frame holds it whole, and its opcode runs the command. -/
def Obligations.APacketIsReadBackAsItsCommand : Prop :=
  ∀ i op h w l, Instr.command i = some (op, h, w) → cmdWf h w = true → targetAgrees h = true →
    l = packet (b2n h.txn * 4 + b2n h.quiet * 8) op h.tag.toNat h.scope h.die h.region h.txid h.devno h.port w →
    packetTests h l = none ∧ pktHdr h.path l = h ∧ pktOp l = op ∧ pktParams l = w ∧ frameWords (wordsBe l) = some l ∧
    commandOf op h w = some i ∧ ∀ s, runOpcode op h w s = some (exec i s)

/-- A command's packet, written whole by one TLP to an empty command ring, is the command the cores take next (R285, R289, R290, R295,
R306) where it is their turn or no other path has one: the write makes it visible and nothing else, and the take runs it on the state with the ring empty again. -/
def Obligations.ACommandWrittenIsTheCommandTaken : Prop :=
  ∀ i op h w l s, Instr.command i = some (op, h, w) → cmdWf h w = true → targetAgrees h = true → h.path = .pcie →
    l = packet (b2n h.txn * 4 + b2n h.quiet * 8) op h.tag.toNat h.scope h.die h.region h.txid h.devno h.port w →
    s.pcie.up = true → dieRuns s 0 = true → ctrlRuns s = true → s.sec.bootState = 5 → coresFree s = true → canTake s {} = true →
    s.served % 3 = 2 ∨ (s.mgmtQ = [] ∧ s.hyithQ = []) → s.fifo.mode = false → s.fifo.used = 0 → s.fifo.count = 0 → s.fifo.rd = s.fifo.head → s.fifo.head = s.fifo.front →
    s.fifo.front < 65536 → Tbl.wf s.fifo.ring 0 = true → h.devno = s.sys.devno →
    ∃ f t, exec (.cmdFifoWrite (4 * s.fifo.front) l true false) s = .next { s with fifo := f } ∧ f.count = 1 ∧
      t = { s with served := 0, fifo := { f with rd := (s.fifo.front + l.length) % 65536, used := 0, count := 0 } } ∧
      exec (.commandTake .pcie false) { s with fifo := f } = exec i t

/-- An edge that finds its capture FIFO full is not recorded and counts in LOST, which saturates at 0xFFFF (R71). -/
def Obligations.AnEdgeAtAFullCaptureFifoIsLost : Prop :=
  ∀ c b t s, bit (capture s c).edges (b2n b) = true → (capture s c).fifo.length = 16 →
    ∃ u, exec (.captureEdge c b t) s = .next u ∧
      capture u c = { capture s c with lost := min 0xFFFF ((capture s c).lost + 1) }

/-- Short time is the seconds and nanoseconds of line time mod 2^32, in ns; followed by FRAC it has 48 bits; it is not NS (R44). -/
def Obligations.ShortTimeIsLongTimeModuloItsWidth : Prop :=
  (∀ s sec ns frac, ns < 1000000000 → frac < 65536 → s.time.units / 2 ^ 25 = (sec * 1000000000 + ns) * 65536 + frac →
    shortNs s = (sec * 1000000000 + ns) % 2 ^ 32 ∧
    now16 s % 2 ^ 48 = shortNs s * 65536 + frac) ∧
  (∃ s : State, shortNs s ≠ nowNs s % 1000000000)

/-- Mover channel m is local channel m mod 32 of die m / 32: its registers and the die's own lie where the mover block of that die has
them, and the MHV-2562 has no block for channels 32 to 63 (R308). -/
def Obligations.MoverChannelsLieInTheirDie : Prop :=
  (∀ m, chanBase m = 0x1000000 * (m / 32 + 1) + 0x10000 + 0x100 * (m % 32)) ∧
  (∀ m o, m < 64 → o < 0x100 → blkOf (chanBase m + o) = .mover (m / 32) (0x100 * (m % 32) + o)) ∧
  (∀ d o, d < 2 → o < 0xE000 → blkOf (moverBase d + 0x2000 + o) = .mover d (0x2000 + o)) ∧
  (∀ s m o, s.otp.part5124 = false → o < 0x100 → m < 32 → blkPresent s (blkOf (chanBase m + o)) = true) ∧
  (∀ s m o, s.otp.part5124 = false → o < 0x100 → 32 ≤ m → m < 64 → blkPresent s (blkOf (chanBase m + o)) = false)
end

