-- ==== Sys2Proof/Laws/Arms.lean ====
section
/-! SUPPORT. Each arm of exec, as an equation. -/

namespace Sys2Proof.Machine

@[simp] theorem exec_idQuery (h : CmdHdr) (w : List Word) (s : State) :
    exec (.idQuery h w) s = execIdQuery h w s := rfl
@[simp] theorem exec_echo (h : CmdHdr) (w : List Word) (s : State) :
    exec (.echo h w) s = execEcho h w s := rfl
@[simp] theorem exec_clockQuery (h : CmdHdr) (w : List Word) (s : State) :
    exec (.clockQuery h w) s = execClockQuery h w s := rfl
@[simp] theorem exec_reedTrim (h : CmdHdr) (w : List Word) (s : State) :
    exec (.reedTrim h w) s = execReedTrim h w s := rfl
@[simp] theorem exec_clkoutSet (h : CmdHdr) (w : List Word) (s : State) :
    exec (.clkoutSet h w) s = execClkoutSet h w s := rfl
@[simp] theorem exec_parkSet (h : CmdHdr) (w : List Word) (s : State) :
    exec (.parkSet h w) s = execParkSet h w s := rfl
@[simp] theorem exec_resetIssue (h : CmdHdr) (w : List Word) (s : State) :
    exec (.resetIssue h w) s = execResetIssue h w s := rfl
@[simp] theorem exec_standbyEnter (h : CmdHdr) (w : List Word) (s : State) :
    exec (.standbyEnter h w) s = execStandbyEnter h w s := rfl
@[simp] theorem exec_portQuery (h : CmdHdr) (w : List Word) (s : State) :
    exec (.portQuery h w) s = execPortQuery h w s := rfl
@[simp] theorem exec_portSet (h : CmdHdr) (w : List Word) (s : State) :
    exec (.portSet h w) s = execPortSet h w s := rfl
@[simp] theorem exec_portSleep (h : CmdHdr) (w : List Word) (s : State) :
    exec (.portSleep h w) s = execPortSleep h w s := rfl
@[simp] theorem exec_portWake (h : CmdHdr) (w : List Word) (s : State) :
    exec (.portWake h w) s = execPortWake h w s := rfl
@[simp] theorem exec_laneSet (h : CmdHdr) (w : List Word) (s : State) :
    exec (.laneSet h w) s = execLaneSet h w s := rfl
@[simp] theorem exec_laneRecal (h : CmdHdr) (w : List Word) (s : State) :
    exec (.laneRecal h w) s = execLaneRecal h w s := rfl
@[simp] theorem exec_portCountRead (h : CmdHdr) (w : List Word) (s : State) :
    exec (.portCountRead h w) s = execPortCountRead h w s := rfl
@[simp] theorem exec_portReset (h : CmdHdr) (w : List Word) (s : State) :
    exec (.portReset h w) s = execPortReset h w s := rfl
@[simp] theorem exec_timeQuery (h : CmdHdr) (w : List Word) (s : State) :
    exec (.timeQuery h w) s = execTimeQuery h w s := rfl
@[simp] theorem exec_timeSourceSet (h : CmdHdr) (w : List Word) (s : State) :
    exec (.timeSourceSet h w) s = execTimeSourceSet h w s := rfl
@[simp] theorem exec_timeStepPermit (h : CmdHdr) (w : List Word) (s : State) :
    exec (.timeStepPermit h w) s = execTimeStepPermit h w s := rfl
@[simp] theorem exec_timeRateSet (h : CmdHdr) (w : List Word) (s : State) :
    exec (.timeRateSet h w) s = execTimeRateSet h w s := rfl
@[simp] theorem exec_timeLinkSet (h : CmdHdr) (w : List Word) (s : State) :
    exec (.timeLinkSet h w) s = execTimeLinkSet h w s := rfl
@[simp] theorem exec_timePortSet (h : CmdHdr) (w : List Word) (s : State) :
    exec (.timePortSet h w) s = execTimePortSet h w s := rfl
@[simp] theorem exec_pulseSet (h : CmdHdr) (w : List Word) (s : State) :
    exec (.pulseSet h w) s = execPulseSet h w s := rfl
@[simp] theorem exec_pulseStop (h : CmdHdr) (w : List Word) (s : State) :
    exec (.pulseStop h w) s = execPulseStop h w s := rfl
@[simp] theorem exec_pinRouteSet (h : CmdHdr) (w : List Word) (s : State) :
    exec (.pinRouteSet h w) s = execPinRouteSet h w s := rfl
@[simp] theorem exec_captureSet (h : CmdHdr) (w : List Word) (s : State) :
    exec (.captureSet h w) s = execCaptureSet h w s := rfl
@[simp] theorem exec_tsringSet (h : CmdHdr) (w : List Word) (s : State) :
    exec (.tsringSet h w) s = execTsringSet h w s := rfl
@[simp] theorem exec_valveQuery (h : CmdHdr) (w : List Word) (s : State) :
    exec (.valveQuery h w) s = execValveQuery h w s := rfl
@[simp] theorem exec_valveSet (h : CmdHdr) (w : List Word) (s : State) :
    exec (.valveSet h w) s = execValveSet h w s := rfl
@[simp] theorem exec_valveWrite (h : CmdHdr) (w : List Word) (s : State) :
    exec (.valveWrite h w) s = execValveWrite h w s := rfl
@[simp] theorem exec_valveRead (h : CmdHdr) (w : List Word) (s : State) :
    exec (.valveRead h w) s = execValveRead h w s := rfl
@[simp] theorem exec_valveStart (h : CmdHdr) (w : List Word) (s : State) :
    exec (.valveStart h w) s = execValveStart h w s := rfl
@[simp] theorem exec_valveSwap (h : CmdHdr) (w : List Word) (s : State) :
    exec (.valveSwap h w) s = execValveSwap h w s := rfl
@[simp] theorem exec_valveStop (h : CmdHdr) (w : List Word) (s : State) :
    exec (.valveStop h w) s = execValveStop h w s := rfl
@[simp] theorem exec_preemptSet (h : CmdHdr) (w : List Word) (s : State) :
    exec (.preemptSet h w) s = execPreemptSet h w s := rfl
@[simp] theorem exec_preemptQuery (h : CmdHdr) (w : List Word) (s : State) :
    exec (.preemptQuery h w) s = execPreemptQuery h w s := rfl
@[simp] theorem exec_courseQuery (h : CmdHdr) (w : List Word) (s : State) :
    exec (.courseQuery h w) s = execCourseQuery h w s := rfl
@[simp] theorem exec_courseSet (h : CmdHdr) (w : List Word) (s : State) :
    exec (.courseSet h w) s = execCourseSet h w s := rfl
@[simp] theorem exec_bondWrite (h : CmdHdr) (w : List Word) (s : State) :
    exec (.bondWrite h w) s = execBondWrite h w s := rfl
@[simp] theorem exec_frameSet (h : CmdHdr) (w : List Word) (s : State) :
    exec (.frameSet h w) s = execFrameSet h w s := rfl
@[simp] theorem exec_safeImageWrite (h : CmdHdr) (w : List Word) (s : State) :
    exec (.safeImageWrite h w) s = execSafeImageWrite h w s := rfl
@[simp] theorem exec_courseStart (h : CmdHdr) (w : List Word) (s : State) :
    exec (.courseStart h w) s = execCourseStart h w s := rfl
@[simp] theorem exec_courseSwap (h : CmdHdr) (w : List Word) (s : State) :
    exec (.courseSwap h w) s = execCourseSwap h w s := rfl
@[simp] theorem exec_courseSafe (h : CmdHdr) (w : List Word) (s : State) :
    exec (.courseSafe h w) s = execCourseSafe h w s := rfl
@[simp] theorem exec_courseResume (h : CmdHdr) (w : List Word) (s : State) :
    exec (.courseResume h w) s = execCourseResume h w s := rfl
@[simp] theorem exec_courseStop (h : CmdHdr) (w : List Word) (s : State) :
    exec (.courseStop h w) s = execCourseStop h w s := rfl
@[simp] theorem exec_courseLineSet (h : CmdHdr) (w : List Word) (s : State) :
    exec (.courseLineSet h w) s = execCourseLineSet h w s := rfl
@[simp] theorem exec_axisQuery (h : CmdHdr) (w : List Word) (s : State) :
    exec (.axisQuery h w) s = execAxisQuery h w s := rfl
@[simp] theorem exec_axisSet (h : CmdHdr) (w : List Word) (s : State) :
    exec (.axisSet h w) s = execAxisSet h w s := rfl
@[simp] theorem exec_reflexSet (h : CmdHdr) (w : List Word) (s : State) :
    exec (.reflexSet h w) s = execReflexSet h w s := rfl
@[simp] theorem exec_reflexArm (h : CmdHdr) (w : List Word) (s : State) :
    exec (.reflexArm h w) s = execReflexArm h w s := rfl
@[simp] theorem exec_axisStart (h : CmdHdr) (w : List Word) (s : State) :
    exec (.axisStart h w) s = execAxisStart h w s := rfl
@[simp] theorem exec_axisQstop (h : CmdHdr) (w : List Word) (s : State) :
    exec (.axisQstop h w) s = execAxisQstop h w s := rfl
@[simp] theorem exec_axisOff (h : CmdHdr) (w : List Word) (s : State) :
    exec (.axisOff h w) s = execAxisOff h w s := rfl
@[simp] theorem exec_segWrite (h : CmdHdr) (w : List Word) (s : State) :
    exec (.segWrite h w) s = execSegWrite h w s := rfl
@[simp] theorem exec_digestQuery (h : CmdHdr) (w : List Word) (s : State) :
    exec (.digestQuery h w) s = execDigestQuery h w s := rfl
@[simp] theorem exec_flowQuery (h : CmdHdr) (w : List Word) (s : State) :
    exec (.flowQuery h w) s = execFlowQuery h w s := rfl
@[simp] theorem exec_flowAdd (h : CmdHdr) (w : List Word) (s : State) :
    exec (.flowAdd h w) s = execFlowAdd h w s := rfl
@[simp] theorem exec_flowWrite (h : CmdHdr) (w : List Word) (s : State) :
    exec (.flowWrite h w) s = execFlowWrite h w s := rfl
@[simp] theorem exec_flowDelete (h : CmdHdr) (w : List Word) (s : State) :
    exec (.flowDelete h w) s = execFlowDelete h w s := rfl
@[simp] theorem exec_flowPortSet (h : CmdHdr) (w : List Word) (s : State) :
    exec (.flowPortSet h w) s = execFlowPortSet h w s := rfl
@[simp] theorem exec_flowLatentSet (h : CmdHdr) (w : List Word) (s : State) :
    exec (.flowLatentSet h w) s = execFlowLatentSet h w s := rfl
@[simp] theorem exec_flowRecovReset (h : CmdHdr) (w : List Word) (s : State) :
    exec (.flowRecovReset h w) s = execFlowRecovReset h w s := rfl
@[simp] theorem exec_flowCountRead (h : CmdHdr) (w : List Word) (s : State) :
    exec (.flowCountRead h w) s = execFlowCountRead h w s := rfl
@[simp] theorem exec_flowTableQuery (h : CmdHdr) (w : List Word) (s : State) :
    exec (.flowTableQuery h w) s = execFlowTableQuery h w s := rfl
@[simp] theorem exec_queueQuery (h : CmdHdr) (w : List Word) (s : State) :
    exec (.queueQuery h w) s = execQueueQuery h w s := rfl
@[simp] theorem exec_queueWrite (h : CmdHdr) (w : List Word) (s : State) :
    exec (.queueWrite h w) s = execQueueWrite h w s := rfl
@[simp] theorem exec_queueFlush (h : CmdHdr) (w : List Word) (s : State) :
    exec (.queueFlush h w) s = execQueueFlush h w s := rfl
@[simp] theorem exec_serviceSet (h : CmdHdr) (w : List Word) (s : State) :
    exec (.serviceSet h w) s = execServiceSet h w s := rfl
@[simp] theorem exec_portShapeSet (h : CmdHdr) (w : List Word) (s : State) :
    exec (.portShapeSet h w) s = execPortShapeSet h w s := rfl
@[simp] theorem exec_bufferSet (h : CmdHdr) (w : List Word) (s : State) :
    exec (.bufferSet h w) s = execBufferSet h w s := rfl
@[simp] theorem exec_ingressSet (h : CmdHdr) (w : List Word) (s : State) :
    exec (.ingressSet h w) s = execIngressSet h w s := rfl
@[simp] theorem exec_bufferQuery (h : CmdHdr) (w : List Word) (s : State) :
    exec (.bufferQuery h w) s = execBufferQuery h w s := rfl
@[simp] theorem exec_twinQuery (h : CmdHdr) (w : List Word) (s : State) :
    exec (.twinQuery h w) s = execTwinQuery h w s := rfl
@[simp] theorem exec_twinSet (h : CmdHdr) (w : List Word) (s : State) :
    exec (.twinSet h w) s = execTwinSet h w s := rfl
@[simp] theorem exec_twinLead (h : CmdHdr) (w : List Word) (s : State) :
    exec (.twinLead h w) s = execTwinLead h w s := rfl
@[simp] theorem exec_twinFollow (h : CmdHdr) (w : List Word) (s : State) :
    exec (.twinFollow h w) s = execTwinFollow h w s := rfl
@[simp] theorem exec_twinHandover (h : CmdHdr) (w : List Word) (s : State) :
    exec (.twinHandover h w) s = execTwinHandover h w s := rfl
@[simp] theorem exec_twinSync (h : CmdHdr) (w : List Word) (s : State) :
    exec (.twinSync h w) s = execTwinSync h w s := rfl
@[simp] theorem exec_twinOff (h : CmdHdr) (w : List Word) (s : State) :
    exec (.twinOff h w) s = execTwinOff h w s := rfl
@[simp] theorem exec_faultQuery (h : CmdHdr) (w : List Word) (s : State) :
    exec (.faultQuery h w) s = execFaultQuery h w s := rfl
@[simp] theorem exec_faultSet (h : CmdHdr) (w : List Word) (s : State) :
    exec (.faultSet h w) s = execFaultSet h w s := rfl
@[simp] theorem exec_faultClear (h : CmdHdr) (w : List Word) (s : State) :
    exec (.faultClear h w) s = execFaultClear h w s := rfl
@[simp] theorem exec_faultnSet (h : CmdHdr) (w : List Word) (s : State) :
    exec (.faultnSet h w) s = execFaultnSet h w s := rfl
@[simp] theorem exec_lsoSet (h : CmdHdr) (w : List Word) (s : State) :
    exec (.lsoSet h w) s = execLsoSet h w s := rfl
@[simp] theorem exec_secQuery (h : CmdHdr) (w : List Word) (s : State) :
    exec (.secQuery h w) s = execSecQuery h w s := rfl
@[simp] theorem exec_imageStage (h : CmdHdr) (w : List Word) (s : State) :
    exec (.imageStage h w) s = execImageStage h w s := rfl
@[simp] theorem exec_imageVerify (h : CmdHdr) (w : List Word) (s : State) :
    exec (.imageVerify h w) s = execImageVerify h w s := rfl
@[simp] theorem exec_imageActivate (h : CmdHdr) (w : List Word) (s : State) :
    exec (.imageActivate h w) s = execImageActivate h w s := rfl
@[simp] theorem exec_attest (h : CmdHdr) (w : List Word) (s : State) :
    exec (.attest h w) s = execAttest h w s := rfl
@[simp] theorem exec_rollbackAdvance (h : CmdHdr) (w : List Word) (s : State) :
    exec (.rollbackAdvance h w) s = execRollbackAdvance h w s := rfl
@[simp] theorem exec_traceSet (h : CmdHdr) (w : List Word) (s : State) :
    exec (.traceSet h w) s = execTraceSet h w s := rfl
@[simp] theorem exec_traceQuery (h : CmdHdr) (w : List Word) (s : State) :
    exec (.traceQuery h w) s = execTraceQuery h w s := rfl
@[simp] theorem exec_archiveSet (h : CmdHdr) (w : List Word) (s : State) :
    exec (.archiveSet h w) s = execArchiveSet h w s := rfl
@[simp] theorem exec_archiveQuery (h : CmdHdr) (w : List Word) (s : State) :
    exec (.archiveQuery h w) s = execArchiveQuery h w s := rfl
@[simp] theorem exec_sysQuery (h : CmdHdr) (w : List Word) (s : State) :
    exec (.sysQuery h w) s = execSysQuery h w s := rfl
@[simp] theorem exec_sysSet (h : CmdHdr) (w : List Word) (s : State) :
    exec (.sysSet h w) s = execSysSet h w s := rfl
@[simp] theorem exec_sysRouteSet (h : CmdHdr) (w : List Word) (s : State) :
    exec (.sysRouteSet h w) s = execSysRouteSet h w s := rfl
@[simp] theorem exec_sysRootReturn (h : CmdHdr) (w : List Word) (s : State) :
    exec (.sysRootReturn h w) s = execSysRootReturn h w s := rfl
@[simp] theorem exec_hyithQuery (h : CmdHdr) (w : List Word) (s : State) :
    exec (.hyithQuery h w) s = execHyithQuery h w s := rfl
@[simp] theorem exec_txnOpen (h : CmdHdr) (w : List Word) (s : State) :
    exec (.txnOpen h w) s = execTxnOpen h w s := rfl
@[simp] theorem exec_txnCommit (h : CmdHdr) (w : List Word) (s : State) :
    exec (.txnCommit h w) s = execTxnCommit h w s := rfl
@[simp] theorem exec_txnAbort (h : CmdHdr) (w : List Word) (s : State) :
    exec (.txnAbort h w) s = execTxnAbort h w s := rfl
@[simp] theorem exec_txnQuery (h : CmdHdr) (w : List Word) (s : State) :
    exec (.txnQuery h w) s = execTxnQuery h w s := rfl
@[simp] theorem exec_txnCommitApply (txid : Nat) (s : State) :
    exec (.txnCommitApply txid) s = execTxnCommitApply txid s := rfl
@[simp] theorem exec_txnRollback (txid : Nat) (s : State) :
    exec (.txnRollback txid) s = execTxnRollback txid s := rfl
@[simp] theorem exec_txnExpired (txid : Nat) (s : State) :
    exec (.txnExpired txid) s = execTxnExpired txid s := rfl
@[simp] theorem exec_cmdFifoWrite (ofs : Nat) (data : List Word) (whole poisoned : Bool) (s : State) :
    exec (.cmdFifoWrite ofs data whole poisoned) s = execCmdFifoWrite ofs data whole poisoned s := rfl
@[simp] theorem exec_cmdFifoWriteMode1 (ofs : Nat) (data : List (Option Byte)) (poisoned : Bool) (s : State) :
    exec (.cmdFifoWriteMode1 ofs data poisoned) s = execCmdFifoWriteMode1 ofs data poisoned s := rfl
@[simp] theorem exec_cmdAbort (s : State) :
    exec (.cmdAbort) s = execCmdAbort s := rfl
@[simp] theorem exec_fifoModeWrite (mode : Bool) (s : State) :
    exec (.fifoModeWrite mode) s = execFifoModeWrite mode s := rfl
@[simp] theorem exec_rplRdWrite (v : BitVec 16) (s : State) :
    exec (.rplRdWrite v) s = execRplRdWrite v s := rfl
@[simp] theorem exec_evtRdWrite (v : BitVec 14) (s : State) :
    exec (.evtRdWrite v) s = execEvtRdWrite v s := rfl
@[simp] theorem exec_commandTake (sel : PathSel) (parityBad : Bool) (s : State) :
    exec (.commandTake sel parityBad) s = execCommandTake sel parityBad s := rfl
@[simp] theorem exec_hyithCommandSend (u : Nat) (s : State) :
    exec (.hyithCommandSend u) s = execHyithCommandSend u s := rfl
@[simp] theorem exec_creditReceive (u : Nat) (blk : List Byte) (s : State) :
    exec (.creditReceive u blk) s = execCreditReceive u blk s := rfl
@[simp] theorem exec_registerWrite (addr : Nat) (v : Word) (be : BitVec 4) (s : State) :
    exec (.registerWrite addr v be) s = execRegisterWrite addr v be s := rfl
@[simp] theorem exec_nowNsRead (s : State) :
    exec (.nowNsRead) s = execNowNsRead s := rfl
@[simp] theorem exec_capNsRead (c : Nat) (s : State) :
    exec (.capNsRead c) s = execCapNsRead c s := rfl
@[simp] theorem exec_digestLoRead (r : Nat) (s : State) :
    exec (.digestLoRead r) s = execDigestLoRead r s := rfl
@[simp] theorem exec_counterLoRead (addr : Nat) (s : State) :
    exec (.counterLoRead addr) s = execCounterLoRead addr s := rfl
@[simp] theorem exec_rcRead (addr : Nat) (s : State) :
    exec (.rcRead addr) s = execRcRead addr s := rfl
@[simp] theorem exec_tsTailWrite (p : Nat) (v : BitVec 7) (s : State) :
    exec (.tsTailWrite p v) s = execTsTailWrite p v s := rfl
@[simp] theorem exec_segPutDb (r : Nat) (v : Word) (s : State) :
    exec (.segPutDb r v) s = execSegPutDb r v s := rfl
@[simp] theorem exec_stagingWrite (ofs : Nat) (data : List Word) (whole : Bool) (s : State) :
    exec (.stagingWrite ofs data whole) s = execStagingWrite ofs data whole s := rfl
@[simp] theorem exec_faultStickyW1c (loc : FaultLoc) (v : Word) (s : State) :
    exec (.faultStickyW1c loc v) s = execFaultStickyW1c loc v s := rfl
@[simp] theorem exec_faultnRelease (s : State) :
    exec (.faultnRelease) s = execFaultnRelease s := rfl
@[simp] theorem exec_lsoDriveWrite (v : BitVec 8) (s : State) :
    exec (.lsoDriveWrite v) s = execLsoDriveWrite v s := rfl
@[simp] theorem exec_clkoutWrite (v : Word) (s : State) :
    exec (.clkoutWrite v) s = execClkoutWrite v s := rfl
@[simp] theorem exec_returnWrite (s : State) :
    exec (.returnWrite) s = execReturnWrite s := rfl
@[simp] theorem exec_wakeWrite (s : State) :
    exec (.wakeWrite) s = execWakeWrite s := rfl
@[simp] theorem exec_bootGo (s : State) :
    exec (.bootGo) s = execBootGo s := rfl
@[simp] theorem exec_moverSetWrite (m ofs : Nat) (v : Word) (s : State) :
    exec (.moverSetWrite m ofs v) s = execMoverSetWrite m ofs v s := rfl
@[simp] theorem exec_moverGo (m : Nat) (ctrl : Word) (s : State) :
    exec (.moverGo m ctrl) s = execMoverGo m ctrl s := rfl
@[simp] theorem exec_moverAbort (m : Nat) (s : State) :
    exec (.moverAbort m) s = execMoverAbort m s := rfl
@[simp] theorem exec_moverClear (m : Nat) (s : State) :
    exec (.moverClear m) s = execMoverClear m s := rfl
@[simp] theorem exec_ringCfgWrite (d r ofs : Nat) (v : Word) (s : State) :
    exec (.ringCfgWrite d r ofs v) s = execRingCfgWrite d r ofs v s := rfl
@[simp] theorem exec_crRdWrite (d r : Nat) (v : BitVec 17) (s : State) :
    exec (.crRdWrite d r v) s = execCrRdWrite d r v s := rfl
@[simp] theorem exec_moverBurstIssue (d : Nat) (s : State) :
    exec (.moverBurstIssue d) s = execMoverBurstIssue d s := rfl
@[simp] theorem exec_moverBurstComplete (m : Nat) (ok : Bool) (data : List Byte) (s : State) :
    exec (.moverBurstComplete m ok data) s = execMoverBurstComplete m ok data s := rfl
@[simp] theorem exec_moverListFetch (m : Nat) (dst ok : Bool) (entry : List Word) (s : State) :
    exec (.moverListFetch m dst ok entry) s = execMoverListFetch m dst ok entry s := rfl
@[simp] theorem exec_moverRecordWrite (m : Nat) (s : State) :
    exec (.moverRecordWrite m) s = execMoverRecordWrite m s := rfl
@[simp] theorem exec_moverHandover (m : Nat) (s : State) :
    exec (.moverHandover m) s = execMoverHandover m s := rfl
@[simp] theorem exec_timeWordSend (u : Nat) (s : State) :
    exec (.timeWordSend u) s = execTimeWordSend u s := rfl
@[simp] theorem exec_timeWordReceive (u : Nat) (blk : List Byte) (t16 : Nat) (s : State) :
    exec (.timeWordReceive u blk t16) s = execTimeWordReceive u blk t16 s := rfl
@[simp] theorem exec_echoReceive (u : Nat) (blk : List Byte) (s : State) :
    exec (.echoReceive u blk) s = execEchoReceive u blk s := rfl
@[simp] theorem exec_epochReceive (u : Nat) (blk : List Byte) (s : State) :
    exec (.epochReceive u blk) s = execEpochReceive u blk s := rfl
@[simp] theorem exec_markReceive (u : Nat) (blk : List Byte) (reedEdges : Nat) (s : State) :
    exec (.markReceive u blk reedEdges) s = execMarkReceive u blk reedEdges s := rfl
@[simp] theorem exec_rootReceive (u : Nat) (blk : List Byte) (s : State) :
    exec (.rootReceive u blk) s = execRootReceive u blk s := rfl
@[simp] theorem exec_offsetSample (ext : Int) (utc : Option (BitVec 16)) (s : State) :
    exec (.offsetSample ext utc) s = execOffsetSample ext utc s := rfl
@[simp] theorem exec_deferredStepApply (s : State) :
    exec (.deferredStepApply) s = execDeferredStepApply s := rfl
@[simp] theorem exec_holdover (s : State) :
    exec (.holdover) s = execHoldover s := rfl
@[simp] theorem exec_captureEdge (c : Nat) (falling : Bool) (t16 : Nat) (s : State) :
    exec (.captureEdge c falling t16) s = execCaptureEdge c falling t16 s := rfl
@[simp] theorem exec_pulseEdge (u : Nat) (s : State) :
    exec (.pulseEdge u) s = execPulseEdge u s := rfl
@[simp] theorem exec_lineBaseBoundary (n : Nat) (s : State) :
    exec (.lineBaseBoundary n) s = execLineBaseBoundary n s := rfl
@[simp] theorem exec_snapshotPublish (n : Nat) (s : State) :
    exec (.snapshotPublish n) s = execSnapshotPublish n s := rfl
@[simp] theorem exec_digestPublish (r n : Nat) (s : State) :
    exec (.digestPublish r n) s = execDigestPublish r n s := rfl
@[simp] theorem exec_courseBoundary (p n : Nat) (s : State) :
    exec (.courseBoundary p n) s = execCourseBoundary p n s := rfl
@[simp] theorem exec_courseBuildStart (p f n : Nat) (s : State) :
    exec (.courseBuildStart p f n) s = execCourseBuildStart p f n s := rfl
@[simp] theorem exec_courseLaunch (p f n : Nat) (s : State) :
    exec (.courseLaunch p f n) s = execCourseLaunch p f n s := rfl
@[simp] theorem exec_brickReceive (p j : Nat) (s : State) :
    exec (.brickReceive p j) s = execBrickReceive p j s := rfl
@[simp] theorem exec_reflexActionApply (s : State) :
    exec (.reflexActionApply) s = execReflexActionApply s := rfl
@[simp] theorem exec_arrClose (p f n : Nat) (s : State) :
    exec (.arrClose p f n) s = execArrClose p f n s := rfl
@[simp] theorem exec_axisDecisionInstant (a n : Nat) (s : State) :
    exec (.axisDecisionInstant a n) s = execAxisDecisionInstant a n s := rfl
@[simp] theorem exec_axisBoundary (a n : Nat) (s : State) :
    exec (.axisBoundary a n) s = execAxisBoundary a n s := rfl
@[simp] theorem exec_segmentFetch (a : Nat) (ok : Bool) (s : State) :
    exec (.segmentFetch a ok) s = execSegmentFetch a ok s := rfl
@[simp] theorem exec_valveEntryBoundary (p k i : Nat) (s : State) :
    exec (.valveEntryBoundary p k i) s = execValveEntryBoundary p k i s := rfl
@[simp] theorem exec_valveSwapInstant (p : Nat) (s : State) :
    exec (.valveSwapInstant p) s = execValveSwapInstant p s := rfl
@[simp] theorem exec_valveStopInstant (p : Nat) (s : State) :
    exec (.valveStopInstant p) s = execValveStopInstant p s := rfl
@[simp] theorem exec_verifyTimeout (p : Nat) (s : State) :
    exec (.verifyTimeout p) s = execVerifyTimeout p s := rfl
@[simp] theorem exec_mpacketReceive (p t16 : Nat) (m : MPacket) (s : State) :
    exec (.mpacketReceive p t16 m) s = execMpacketReceive p t16 m s := rfl
@[simp] theorem exec_frameReceive (p t16 : Nat) (bytes : List Byte) (symErr : Bool) (s : State) :
    exec (.frameReceive p t16 bytes symErr) s = execFrameReceive p t16 bytes symErr s := rfl
@[simp] theorem exec_cutThroughDecision (p t16 : Nat) (head : List Byte) (s : State) :
    exec (.cutThroughDecision p t16 head) s = execCutThroughDecision p t16 head s := rfl
@[simp] theorem exec_egressSelect (p : Nat) (s : State) :
    exec (.egressSelect p) s = execEgressSelect p s := rfl
@[simp] theorem exec_frameTransmitEnd (p : Nat) (s : State) :
    exec (.frameTransmitEnd p) s = execFrameTransmitEnd p s := rfl
@[simp] theorem exec_spillReadback (q : Nat) (s : State) :
    exec (.spillReadback q) s = execSpillReadback q s := rfl
@[simp] theorem exec_sweepVisit (v : SweepTarget) (s : State) :
    exec (.sweepVisit v) s = execSweepVisit v s := rfl
@[simp] theorem exec_sweepPassEnd (d : Nat) (s : State) :
    exec (.sweepPassEnd d) s = execSweepPassEnd d s := rfl
@[simp] theorem exec_pauseReceive (p : Nat) (s : State) :
    exec (.pauseReceive p) s = execPauseReceive p s := rfl
@[simp] theorem exec_pfcReceive (p : Nat) (s : State) :
    exec (.pfcReceive p) s = execPfcReceive p s := rfl
@[simp] theorem exec_pauseTimerExpire (p c : Nat) (s : State) :
    exec (.pauseTimerExpire p c) s = execPauseTimerExpire p c s := rfl
@[simp] theorem exec_pauseWd (p c : Nat) (s : State) :
    exec (.pauseWd p c) s = execPauseWd p c s := rfl
@[simp] theorem exec_pauseRefresh (p c : Nat) (s : State) :
    exec (.pauseRefresh p c) s = execPauseRefresh p c s := rfl
@[simp] theorem exec_linkStateChange (p : Nat) (up remote : Bool) (s : State) :
    exec (.linkStateChange p up remote) s = execLinkStateChange p up remote s := rfl
@[simp] theorem exec_inBandControlWord (p speed : Nat) (fullDuplex link : Bool) (s : State) :
    exec (.inBandControlWord p speed fullDuplex link) s = execInBandControlWord p speed fullDuplex link s := rfl
@[simp] theorem exec_laneAlignLoss (q : Nat) (s : State) :
    exec (.laneAlignLoss q) s = execLaneAlignLoss q s := rfl
@[simp] theorem exec_recalDone (lane : Nat) (ok : Bool) (s : State) :
    exec (.recalDone lane ok) s = execRecalDone lane ok s := rfl
@[simp] theorem exec_recalRetry (lane : Nat) (s : State) :
    exec (.recalRetry lane) s = execRecalRetry lane s := rfl
@[simp] theorem exec_pcsRestartDone (p : Nat) (s : State) :
    exec (.pcsRestartDone p) s = execPcsRestartDone p s := rfl
@[simp] theorem exec_ddrAlert (d : Nat) (persists : Bool) (s : State) :
    exec (.ddrAlert d persists) s = execDdrAlert d persists s := rfl
@[simp] theorem exec_ddrEventn (d : Nat) (low : Bool) (s : State) :
    exec (.ddrEventn d low) s = execDdrEventn d low s := rfl
@[simp] theorem exec_faultSourceFire (loc : FaultLoc) (src pair : Nat) (standing : Bool) (s : State) :
    exec (.faultSourceFire loc src pair standing) s = execFaultSourceFire loc src pair standing s := rfl
@[simp] theorem exec_faultWindowClose (loc : FaultLoc) (src : Nat) (s : State) :
    exec (.faultWindowClose loc src) s = execFaultWindowClose loc src s := rfl
@[simp] theorem exec_quarantineSquelch (p : Nat) (s : State) :
    exec (.quarantineSquelch p) s = execQuarantineSquelch p s := rfl
@[simp] theorem exec_reactionRegionReset (r : Nat) (s : State) :
    exec (.reactionRegionReset r) s = execReactionRegionReset r s := rfl
@[simp] theorem exec_faultnPulseEnd (s : State) :
    exec (.faultnPulseEnd) s = execFaultnPulseEnd s := rfl
@[simp] theorem exec_resetMaskEnd (k : ResetKind) (s : State) :
    exec (.resetMaskEnd k) s = execResetMaskEnd k s := rfl
@[simp] theorem exec_clockTrip (clk : Nat) (s : State) :
    exec (.clockTrip clk) s = execClockTrip clk s := rfl
@[simp] theorem exec_oscWaitEnd (s : State) :
    exec (.oscWaitEnd) s = execOscWaitEnd s := rfl
@[simp] theorem exec_pllLock (s : State) :
    exec (.pllLock) s = execPllLock s := rfl
@[simp] theorem exec_pllLockTimeout (s : State) :
    exec (.pllLockTimeout) s = execPllLockTimeout s := rfl
@[simp] theorem exec_rampStep (s : State) :
    exec (.rampStep) s = execRampStep s := rfl
@[simp] theorem exec_reedQual (q : Bool) (s : State) :
    exec (.reedQual q) s = execReedQual q s := rfl
@[simp] theorem exec_refclkQualified (s : State) :
    exec (.refclkQualified) s = execRefclkQualified s := rfl
@[simp] theorem exec_meterGateEnd (counts : List Nat) (s : State) :
    exec (.meterGateEnd counts) s = execMeterGateEnd counts s := rfl
@[simp] theorem exec_reedTrimRound (edges : Nat) (s : State) :
    exec (.reedTrimRound edges) s = execReedTrimRound edges s := rfl
@[simp] theorem exec_por (oscDly : BitVec 3) (bootSrc : BitVec 2) (s : State) :
    exec (.por oscDly bootSrc) s = execPor oscDly bootSrc s := rfl
@[simp] theorem exec_pinReset (low : Bool) (oscDly : BitVec 3) (bootSrc : BitVec 2) (s : State) :
    exec (.pinReset low oscDly bootSrc) s = execPinReset low oscDly bootSrc s := rfl
@[simp] theorem exec_perstn (low : Bool) (s : State) :
    exec (.perstn low) s = execPerstn low s := rfl
@[simp] theorem exec_resetBegin (k : ResetKind) (s : State) :
    exec (.resetBegin k) s = execResetBegin k s := rfl
@[simp] theorem exec_resetRelease (k : ResetKind) (s : State) :
    exec (.resetRelease k) s = execResetRelease k s := rfl
@[simp] theorem exec_controlHandover (s : State) :
    exec (.controlHandover) s = execControlHandover s := rfl
@[simp] theorem exec_lockstepRejoin (s : State) :
    exec (.lockstepRejoin) s = execLockstepRejoin s := rfl
@[simp] theorem exec_coreMemoryError (s : State) :
    exec (.coreMemoryError) s = execCoreMemoryError s := rfl
@[simp] theorem exec_lockstepMismatch (s : State) :
    exec (.lockstepMismatch) s = execLockstepMismatch s := rfl
@[simp] theorem exec_gateHandshakeDone (s : State) :
    exec (.gateHandshakeDone) s = execGateHandshakeDone s := rfl
@[simp] theorem exec_gateHandshakeTimeout (s : State) :
    exec (.gateHandshakeTimeout) s = execGateHandshakeTimeout s := rfl
@[simp] theorem exec_unparkDone (k : ResetKind) (s : State) :
    exec (.unparkDone k) s = execUnparkDone k s := rfl
@[simp] theorem exec_bootStart (s : State) :
    exec (.bootStart) s = execBootStart s := rfl
@[simp] theorem exec_imageLoadDone (slot0 slot1 : Option (List Byte)) (s : State) :
    exec (.imageLoadDone slot0 slot1) s = execImageLoadDone slot0 slot1 s := rfl
@[simp] theorem exec_firmwareRunning (s : State) :
    exec (.firmwareRunning) s = execFirmwareRunning s := rfl
@[simp] theorem exec_stageDone (bytes : Option (List Byte)) (s : State) :
    exec (.stageDone bytes) s = execStageDone bytes s := rfl
@[simp] theorem exec_verifyDone (s : State) :
    exec (.verifyDone) s = execVerifyDone s := rfl
@[simp] theorem exec_activationFlip (s : State) :
    exec (.activationFlip) s = execActivationFlip s := rfl
@[simp] theorem exec_activationResume (s : State) :
    exec (.activationResume) s = execActivationResume s := rfl
@[simp] theorem exec_firmwareReady (s : State) :
    exec (.firmwareReady) s = execFirmwareReady s := rfl
@[simp] theorem exec_fallback (s : State) :
    exec (.fallback) s = execFallback s := rfl
@[simp] theorem exec_leadInEdge (t : Nat) (s : State) :
    exec (.leadInEdge t) s = execLeadInEdge t s := rfl
@[simp] theorem exec_claimDead (s : State) :
    exec (.claimDead) s = execClaimDead s := rfl
@[simp] theorem exec_breathInEdge (t : Nat) (s : State) :
    exec (.breathInEdge t) s = execBreathInEdge t s := rfl
@[simp] theorem exec_breathWordReceive (u : Nat) (blk : List Byte) (t : Nat) (s : State) :
    exec (.breathWordReceive u blk t) s = execBreathWordReceive u blk t s := rfl
@[simp] theorem exec_lone (m : Nat) (s : State) :
    exec (.lone m) s = execLone m s := rfl
@[simp] theorem exec_twinFrameReceive (u t16 : Nat) (bytes : List Byte) (s : State) :
    exec (.twinFrameReceive u t16 bytes) s = execTwinFrameReceive u t16 bytes s := rfl
@[simp] theorem exec_twinFrameSend (u : Nat) (s : State) :
    exec (.twinFrameSend u) s = execTwinFrameSend u s := rfl
@[simp] theorem exec_brickRecordReceive (s : State) :
    exec (.brickRecordReceive) s = execBrickRecordReceive s := rfl
@[simp] theorem exec_directRecordReceive (s : State) :
    exec (.directRecordReceive) s = execDirectRecordReceive s := rfl
@[simp] theorem exec_commandRecordReceive (s : State) :
    exec (.commandRecordReceive) s = execCommandRecordReceive s := rfl
@[simp] theorem exec_axsyncRecordReceive (s : State) :
    exec (.axsyncRecordReceive) s = execAxsyncRecordReceive s := rfl
@[simp] theorem exec_digestBlockReceive (u : Nat) (blk : List Byte) (s : State) :
    exec (.digestBlockReceive u blk) s = execDigestBlockReceive u blk s := rfl
@[simp] theorem exec_digestDeadline (n : Nat) (s : State) :
    exec (.digestDeadline n) s = execDigestDeadline n s := rfl
@[simp] theorem exec_followerArrClose (p f n : Nat) (s : State) :
    exec (.followerArrClose p f n) s = execFollowerArrClose p f n s := rfl
@[simp] theorem exec_handoverReceive (u : Nat) (blk : List Byte) (s : State) :
    exec (.handoverReceive u blk) s = execHandoverReceive u blk s := rfl
@[simp] theorem exec_handoverBoundary (s : State) :
    exec (.handoverBoundary) s = execHandoverBoundary s := rfl
@[simp] theorem exec_masterTimeout (s : State) :
    exec (.masterTimeout) s = execMasterTimeout s := rfl
@[simp] theorem exec_traceRecordWrite (d : Nat) (s : State) :
    exec (.traceRecordWrite d) s = execTraceRecordWrite d s := rfl
@[simp] theorem exec_traceGap (d : Nat) (s : State) :
    exec (.traceGap d) s = execTraceGap d s := rfl
@[simp] theorem exec_bellRecordSend (s : State) :
    exec (.bellRecordSend) s = execBellRecordSend s := rfl
@[simp] theorem exec_bellGap (s : State) :
    exec (.bellGap) s = execBellGap s := rfl
@[simp] theorem exec_archiveLatch (s : State) :
    exec (.archiveLatch) s = execArchiveLatch s := rfl
@[simp] theorem exec_archiveRecordDone (s : State) :
    exec (.archiveRecordDone) s = execArchiveRecordDone s := rfl
@[simp] theorem exec_tapInstruction (testEn : Bool) (i : TapInstr) (s : State) :
    exec (.tapInstruction testEn i) s = execTapInstruction testEn i s := rfl
@[simp] theorem exec_courseHoldStart (p f n : Nat) (s : State) :
    exec (.courseHoldStart p f n) s = execCourseHoldStart p f n s := rfl
@[simp] theorem exec_forwardedCommandCommit (s : State) :
    exec (.forwardedCommandCommit) s = execForwardedCommandCommit s := rfl
@[simp] theorem exec_completerAbortRead (bar addr dwords : Nat) (s : State) :
    exec (.completerAbortRead bar addr dwords) s = execCompleterAbortRead bar addr dwords s := rfl
@[simp] theorem exec_functionLevelReset (pf1 : Bool) (s : State) :
    exec (.functionLevelReset pf1) s = execFunctionLevelReset pf1 s := rfl
@[simp] theorem exec_railRestored (loc : FaultLoc) (pair : Nat) (s : State) :
    exec (.railRestored loc pair) s = execRailRestored loc pair s := rfl

end Sys2Proof.Machine
end

