-- ==== Sys2Proof/Laws/Accept.lean ====
section
/-! SUPPORT. What an accepted command's run is, and what a register access that reaches its register is. -/

namespace Sys2Proof.Machine

variable {s : State} {op : Nat} {h : CmdHdr} {w : List Word}

/-- An accepted command passes the gate unchanged. -/
theorem Accepted.gate (a : Accepted s op h w) : gateCmd s h op w = (s, true) := by
  have ht : (h.txn && (findTxn s h h.txid false).isNone) = false := by
    cases hx : h.txn with
    | false => rfl
    | true =>
      have := a.txnOpen hx
      cases hf : findTxn s h h.txid false with
      | none => rw [hf] at this; cases this
      | some _ => rfl
  unfold gateCmd
  simp only [coresFree, a.cores, a.noGate, a.idle, a.room, a.target, a.here, a.tests, a.free, a.runs, ht, Option.isNone_none, bne_self_eq_false,
    Bool.not_false,
    Bool.and_true, Bool.not_true, Bool.and_false, if_false, Bool.false_eq_true, reduceIte]

/-- The run of an accepted command is its body and the reply. -/
theorem Accepted.run (a : Accepted s op h w) (b : Body) :
    runCmd s h op w b = deliver (b h w s).1 h op (b h w s).2 := by
  simp only [runCmd, a.gate, reduceIte]

theorem Solo.run (a : Solo s op h w) (b : Body) : runCmd s h op w b = deliver (b h w s).1 h op (b h w s).2 := a.acc.run b

/-- The run of an accepted command that may reply later: its body, and its reply where it gives one. -/
theorem Accepted.later (a : Accepted s op h w) (b : CmdHdr → List Word → State → State × Option Reply) :
    runLater s h op w b = (match (b h w s).2 with | some r => deliver (b h w s).1 h op r | none => (b h w s).1) := by
  simp only [runLater, a.gate, reduceIte] <;> (split <;> simp_all)

/-- On its own a command of class Transaction that passes its checks registers its own transaction, to be committed 20,000 ns on. -/
theorem Solo.txn_run (a : Solo s op h w) (f : TxnOp) (hp : f.prep h w s = none)
    (ht : f.test h w [newMember s op h w] (nowNs s + 20000) s = none) :
    runLater s h op w (bodyTxn op f) = { s with txns := s.txns ++ [ownTxn s op f h w (nowNs s + 20000)] } := by
  simp only [a.acc.later, bodyTxn, a.alone, soloTxn, hp, ht, Bool.false_eq_true, reduceIte]

/-- The same where the package does not forward the command as a twin LEADER. -/
theorem Solo.fwd_run (a : Solo s op h w) (f : TxnOp) (x : CmdHdr → List Word → State → List Word) (hl : leads s op h = false)
    (hp : f.prep h w s = none) (ht : f.test h w [newMember s op h w] (nowNs s + 20000) s = none) :
    runLater s h op w (bodyTxnFwd op f x) = { s with txns := s.txns ++ [ownTxn s op f h w (nowNs s + 20000)] } := by
  simp only [a.acc.later, bodyTxnFwd, bodyTxn, a.alone, soloTxn, hp, ht, hl, Bool.and_false, Bool.false_eq_true, reduceIte]

/-- On its own a command of class Transaction that fails a check of its own only answers. -/
theorem Solo.txn_bad (a : Solo s op h w) (f : TxnOp) {r : Reply} (hp : f.prep h w s = some r) :
    runLater s h op w (bodyTxn op f) = deliver s h op r := by
  simp only [a.acc.later, bodyTxn, a.alone, soloTxn, hp, Bool.false_eq_true, reduceIte]

theorem Solo.fwd_bad (a : Solo s op h w) (f : TxnOp) (x : CmdHdr → List Word → State → List Word) {r : Reply}
    (hp : f.prep h w s = some r) : runLater s h op w (bodyTxnFwd op f x) = deliver s h op r := by
  simp only [a.acc.later, bodyTxnFwd, bodyTxn, a.alone, soloTxn, hp, Bool.false_eq_true, reduceIte, Option.isNone_some, Bool.false_and]

/-- The effect of a command of class Transaction on its own at C, and its reply. -/
theorem OwnDue.done {c : Nat} {u : State} {f : TxnOp} {a : Applied} (d : OwnDue s op h w c u) (hf : txnOpOf op = some f)
    (ha : f.apply h w c u = .ok a) :
    exec (.txnCommitApply 0) s = .next (deliver (closeTxn a.s 0) h op (.rep (f.report h w a.k u) (f.words h w { a with s := u }))) := by
  obtain ⟨t, m, l, h1, h2, h3, h4, rfl, rfl, rfl, h8, h9⟩ := d.due
  have hu := d.at_
  have hs := d.share
  have hm : applyMember u c m = (a.s, { m with result := 0, outcome := 0, k := a.k, at_ := a.at_, undo := a.undo, applied := true }) := by
    simp only [applyMember, h8, d.runs, hf, ha, Option.isSome_none, Bool.or_false, Bool.false_eq_true, reduceIte]
  simp only [exec_txnCommitApply, execTxnCommitApply, h1, h2, h3, h4, d.cores, Option.isSome_none, Bool.not_true, Bool.or_false,
    Bool.or_true, Bool.false_eq_true, reduceIte, ← hu, hs, hm, ownOutcome, memberReply, hf]

/-- A command of class Transaction on its own that fails at C leaves nothing applied. -/
theorem OwnDue.failed {c : Nat} {u : State} {f : TxnOp} {r : Reply} (d : OwnDue s op h w c u) (hf : txnOpOf op = some f)
    (ha : f.apply h w c u = .error r) :
    exec (.txnCommitApply 0) s =
      .next (deliver (closeTxn u 0) h op (.err (if op = 0x0707 ∧ r.st = stWrongState then stWrongState else stTxnPartial))) := by
  obtain ⟨t, m, l, h1, h2, h3, h4, rfl, rfl, rfl, h8, h9⟩ := d.due
  have hu := d.at_
  have hm : applyMember u c m = (u, { m with result := 3, outcome := r.st }) := by
    simp only [applyMember, h8, d.runs, hf, ha, Option.isSome_none, Bool.or_false, Bool.false_eq_true, reduceIte]
  simp only [exec_txnCommitApply, execTxnCommitApply, h1, h2, h3, h4, d.cores, Option.isSome_none, Bool.not_true, Bool.or_false,
    Bool.true_or, Bool.not_false, Bool.false_eq_true, reduceIte, ← hu, hm, ownOutcome, h9]

/-- A good block is taken. -/
theorem GoodBlock.blockIn {u k : Nat} {blk : List Byte} (b : GoodBlock s u k blk) : blockIn s u k blk = .ok () := by
  have h1 : ¬(blk.length ≠ 14 ∨ crc16 (blk.take 12) ≠ beAt blk 12 2) := by simp [b.len, b.check]
  have h2 : ¬(beAt blk 0 1 = 0 ∨ 9 < beAt blk 0 1) := by have := b.defined; rw [b.kind]; omega
  have h3 : ¬(beAt blk 0 1 ≠ k) := by simp [b.kind]
  simp only [Machine.blockIn, b.on, Bool.not_true, Bool.false_eq_true, if_false]
  rw [if_neg h1, if_neg h2, if_neg h3]

/-- A record that waits is used. -/
theorem RecordWaits.withRec {ty : Nat} {r : TwinRec} {l : List TwinRec} (a : RecordWaits s ty r l) (f : State → TwinRec → State) :
    withRec s ty f = f (at16 { s with mirror := { s.mirror with recQ := l } } r.t) r := by
  have h : (s.twin.role == .off) = false := by simpa using a.role
  simp only [Machine.withRec, a.first, a.runs, h, Bool.not_true, Bool.or_false, Bool.false_eq_true, if_false]

/-- A command of class Configuration that may join a transaction takes effect at once on its own. -/
theorem Solo.join_run (a : Solo s op h w) (f : TxnOp) (z : Applied) (hp : f.prep h w s = none)
    (ht : f.test h w [newMember s op h w] (nowNs s) s = none) (hz : f.apply h w (nowNs s) s = .ok z) :
    runCmd s h op w (bodyJoin op f) = deliver z.s h op (.rep (f.report h w z.k s) (f.words h w z)) := by
  simp only [a.run, bodyJoin, a.alone, hp, ht, hz, Bool.false_eq_true, reduceIte]

/-- A posted write that reaches its register has its effect. -/
theorem Reached.write {a : Nat} (r : Reached s a) (f : State → State) : busWrite s a f = f s := by
  simp only [busWrite, r.1, r.2, reduceIte]

/-- An access that no gate handshake holds has its effect. -/
theorem heldOr_free {s : State} {i : HeldAcc} (h : accHeld s i = false) (o : Out) : heldOr s i o = o := by simp [heldOr, h]

/-- A read that reaches its register has its effect. -/
theorem Reached.read {a : Nat} (r : Reached s a) (f : State → State) : busRead s a f = f s := by
  simp only [busRead, r.1, r.2, reduceIte]

end Sys2Proof.Machine
end

