-- ==== Sys2Proof/Laws/Frame.lean ====
section
/-! SUPPORT. What the operations that report an event, and the reply to a command, leave unchanged. -/

namespace Sys2Proof.Machine

theorem OnlyReports.refl (s : State) : OnlyReports s s := rfl

theorem OnlyReports.trans {a b c : State} (h : OnlyReports a b) (k : OnlyReports b c) : OnlyReports a c := by
  unfold OnlyReports at *
  rw [h] at k
  exact k

theorem OnlyReports.ite {c : Prop} [Decidable c] {s a b : State} (h : OnlyReports s a) (k : OnlyReports s b) :
    OnlyReports s (if c then a else b) := by
  split
  · exact h
  · exact k

theorem setReg_reports (s : State) (a v : Nat) : OnlyReports s (setReg s a v) := rfl
theorem emit_reports (s : State) (o : Output) : OnlyReports s (emit s o) := rfl
theorem pendFault_reports (s : State) (l : FaultLoc) (i : Nat) : OnlyReports s (pendFault s l i) := rfl
theorem traceRec_reports (s : State) (d ty a : Nat) (l : List Nat) : OnlyReports s (traceRec s d ty a l) := rfl
theorem countPkg_reports (s : State) (a n : Nat) : OnlyReports s (countPkg s a n) := rfl
theorem evtPut_reports (s : State) (op : Nat) (g : Nat × Nat × Nat × Nat) (w : List Word) : OnlyReports s (evtPut s op g w) := rfl

theorem fifo_reports (s : State) (f : Fifo) : OnlyReports s { s with fifo := f } := rfl

theorem markFresh_reports (s : State) (a b : Nat) : OnlyReports s (markFresh s a b) := rfl

theorem raiseBits_reports (s : State) (a b : Nat) : OnlyReports s (raiseBits s a b) := by
  unfold raiseBits
  refine (markFresh_reports s a b).trans (.ite (.refl _) ?_)
  exact .trans (b := { markFresh s a b with regs := _, faultPend := _ }) rfl (traceRec_reports _ _ _ _ _)

theorem evtGap_reports (s : State) : OnlyReports s (evtGap s) := by
  unfold evtGap
  exact .ite ((evtPut_reports s _ _ _).trans (fifo_reports _ _)) (.refl s)

theorem evtGrow_reports (s : State) (e : Nat × Nat × Nat × Nat) (nb : Nat) : OnlyReports s (evtGrow s e nb) := rfl

theorem eventPacket_reports (s : State) (a nb : Nat) : OnlyReports s (eventPacket s a nb) := by
  unfold eventPacket
  refine (evtGap_reports s).trans (.ite (.refl _) ?_)
  split
  · exact evtGrow_reports _ _ _
  · refine .ite ((evtPut_reports (evtGap s) _ _ _).trans (fifo_reports _ _)) ?_
    have h : OnlyReports (evtGap s) (raiseBits (countPkg { evtGap s with
        fifo := { (evtGap s).fifo with evtPend := sat32 ((evtGap s).fifo.evtPend + 1) } } 0x70030 1) 0x70038 2) :=
      (fifo_reports (evtGap s) _).trans ((countPkg_reports _ _ _).trans (raiseBits_reports _ _ _))
    exact .ite h (h.trans (emit_reports _ _))

theorem raise_reports (s : State) (a bs : Nat) : OnlyReports s (raise s a bs) := by
  unfold raise
  exact (raiseBits_reports s a bs).trans (.ite (.refl _) (.ite (emit_reports _ _) (eventPacket_reports _ _ _)))

theorem raisePort_reports (s : State) (p o b : Nat) : OnlyReports s (raisePort s p o b) := raise_reports _ _ _

theorem halfEvent_reports (s : State) (a : Nat) : OnlyReports s (halfEvent s a) := by
  unfold halfEvent
  split
  · exact .trans ((setReg_reports _ _ _).trans (markFresh_reports _ _ _)) (raise_reports _ _ _)
  · exact raise_reports _ _ _
  · exact raise_reports _ _ _
  · exact raise_reports _ _ _
  · exact pendFault_reports _ _ _
  · exact pendFault_reports _ _ _
  · exact pendFault_reports _ _ _
  · exact pendFault_reports _ _ _
  · split
    · exact pendFault_reports _ _ _
    · exact .refl s

theorem count_reports (s : State) (a n : Nat) : OnlyReports s (count s a n) := by
  unfold count
  exact .ite (.trans (b := { s with regs := bump s.regs a n }) rfl (halfEvent_reports _ _)) rfl

theorem countPort_reports (s : State) (p o n : Nat) : OnlyReports s (countPort s p o n) := count_reports _ _ _

theorem count64_reports (s : State) (a n : Nat) : OnlyReports s (count64 s a n) := by
  unfold count64
  have h : OnlyReports s (setReg (setReg s a ((reg s a + reg s (a + 4) * 2 ^ 32 + n) % 2 ^ 64)) (a + 4)
    ((reg s a + reg s (a + 4) * 2 ^ 32 + n) % 2 ^ 64 / 2 ^ 32)) := (setReg_reports _ _ _).trans (setReg_reports _ _ _)
  exact .ite (h.trans (halfEvent_reports _ _)) h

theorem OnlyReports.replies {s t : State} (h : OnlyReports s t) : OnlyReplies s t := by
  unfold OnlyReplies OnlyReports at *
  rw [h]

theorem OnlyReplies.refl (s : State) : OnlyReplies s s := rfl

theorem OnlyReplies.trans {a b c : State} (h : OnlyReplies a b) (k : OnlyReplies b c) : OnlyReplies a c := by
  unfold OnlyReplies at *
  rw [h] at k
  exact k

theorem ctlAdd_replies (s : State) (p c : Nat) (f : CtlFrame) : OnlyReplies s (ctlAdd s p c f) := rfl
theorem rplPut_replies (s : State) (l : List Word) : OnlyReplies s (rplPut s l) := rfl
theorem hyithPut_replies (s : State) (u o k : Nat) (pk : List Byte) (c : Option (List Nat)) : OnlyReplies s (hyithPut s u o k pk c) := rfl
theorem traceCmd_replies (s : State) (a : List Nat) : OnlyReplies s (traceCmd s a) := rfl

theorem OnlyReplies.ite {c : Prop} [Decidable c] {s a b : State} (h : OnlyReplies s a) (k : OnlyReplies s b) :
    OnlyReplies s (if c then a else b) := by
  split
  · exact h
  · exact k

/-- A reply changes nothing but what it is sent through and its trace record. -/
theorem deliver_replies (s : State) (h : CmdHdr) (op : Nat) (r : Reply) : OnlyReplies s (deliver s h op r) := by
  unfold deliver
  refine .ite (.refl s) ?_
  split
  · exact .ite (.refl s) ((rplPut_replies _ _).trans (traceCmd_replies _ _))
  · exact ctlAdd_replies _ _ _ _
  · exact hyithPut_replies _ _ _ _ _ _

end Sys2Proof.Machine
end

