-- ==== Sys2Proof/Laws/Memory.lean ====
section
/-! SUPPORT. Tables and DDR4: a read after a write, and the canonical form, which every operation keeps. -/

namespace Sys2Proof

theorem Tbl.look_put_same {α : Type} [DecidableEq α] (t : Tbl α) (k : Nat) (v d : α) : Tbl.wf t d = true →
    Tbl.look (Tbl.put t k v d) k d = v := by
  suffices H : ∀ (t : Tbl α) lo, Tbl.wfFrom d lo t = true → Tbl.look (Tbl.put t k v d) k d = v from H t 0
  intro t
  induction t with
  | nil => intro lo _; simp only [Tbl.put]; split <;> simp_all [Tbl.look]
  | cons e r ih =>
    obtain ⟨a, x⟩ := e
    intro lo hw
    simp only [Tbl.wfFrom, Bool.and_eq_true, decide_eq_true_eq] at hw
    have hnone : ∀ lo', k < lo' → Tbl.wfFrom d lo' r = true → Tbl.look r k d = d := by
      intro lo' hk hr
      clear ih hw
      induction r generalizing lo' with
      | nil => rfl
      | cons e r ih =>
        simp only [Tbl.wfFrom, Bool.and_eq_true, decide_eq_true_eq] at hr
        simp only [Tbl.look]
        rw [if_neg (by omega)]
        exact ih _ (by omega) hr.2
    simp only [Tbl.put]
    split
    · rename_i hk
      split
      · rename_i hv
        simp only [Tbl.look]
        rw [if_neg (by omega), hv]
        exact hnone (a + 1) (by omega) hw.2
      · simp [Tbl.look]
    · split
      · rename_i hk
        subst hk
        split
        · rename_i hv; rw [hv]; exact hnone (k + 1) (by omega) hw.2
        · simp [Tbl.look]
      · simp only [Tbl.look]
        rw [if_neg (by omega)]
        exact ih _ hw.2

/-- A value that is not the default is read back from any table. -/
theorem Tbl.look_put_ne {α : Type} [DecidableEq α] (t : Tbl α) (k : Nat) (v d : α) (h : v ≠ d) :
    Tbl.look (Tbl.put t k v d) k d = v := by
  induction t with
  | nil => simp [Tbl.put, h, Tbl.look]
  | cons e r ih =>
    obtain ⟨a, x⟩ := e
    simp only [Tbl.put, h, reduceIte]
    split
    · simp [Tbl.look]
    · split
      · simp [Tbl.look]
      · rw [Tbl.look, if_neg (by omega), ih]

theorem Tbl.look_put_other {α : Type} [DecidableEq α] (t : Tbl α) (k j : Nat) (v d : α) (h : j ≠ k) :
    Tbl.look (Tbl.put t k v d) j d = Tbl.look t j d := by
  induction t with
  | nil => simp only [Tbl.put]; split <;> simp [Tbl.look, Ne.symm h]
  | cons e r ih =>
    obtain ⟨a, x⟩ := e
    simp only [Tbl.put]
    split
    · split
      · rfl
      · simp [Tbl.look, Ne.symm h]
    · split
      · rename_i ha
        subst ha
        split <;> simp [Tbl.look, Ne.symm h]
      · simp only [Tbl.look, ih]

theorem Tbl.wfFrom_mono {α : Type} [DecidableEq α] {d : α} {t : Tbl α} {lo hi : Nat} (h : lo ≤ hi)
    (w : Tbl.wfFrom d hi t = true) : Tbl.wfFrom d lo t = true := by
  cases t with
  | nil => rfl
  | cons e r =>
    simp only [Tbl.wfFrom, Bool.and_eq_true, decide_eq_true_eq] at w ⊢
    exact ⟨⟨by omega, w.1.2⟩, w.2⟩

/-- A write keeps the canonical form. -/
theorem Tbl.put_wf {α : Type} [DecidableEq α] (t : Tbl α) (k : Nat) (v d : α) (w : Tbl.wf t d = true) :
    Tbl.wf (Tbl.put t k v d) d = true := by
  suffices H : ∀ (t : Tbl α) lo, lo ≤ k → Tbl.wfFrom d lo t = true → Tbl.wfFrom d lo (Tbl.put t k v d) = true from
    H t 0 (Nat.zero_le _) w
  intro t
  induction t with
  | nil => intro lo hk _; simp only [Tbl.put]; split <;> simp_all [Tbl.wfFrom]
  | cons e r ih =>
    obtain ⟨a, x⟩ := e
    intro lo hk hw
    have hw' := hw
    simp only [Tbl.wfFrom, Bool.and_eq_true, decide_eq_true_eq] at hw
    simp only [Tbl.put]
    split
    · split
      · exact hw'
      · rename_i hv
        simp only [Tbl.wfFrom, Bool.and_eq_true, decide_eq_true_eq]
        exact ⟨⟨hk, by simpa using hv⟩, ⟨⟨by omega, hw.1.2⟩, hw.2⟩⟩
    · split
      · split
        · exact Tbl.wfFrom_mono (by omega) hw.2
        · rename_i hka hv
          simp only [Tbl.wfFrom, Bool.and_eq_true, decide_eq_true_eq]
          exact ⟨⟨hk, by simpa using hv⟩, by rw [hka]; exact hw.2⟩
      · simp only [Tbl.wfFrom, Bool.and_eq_true, decide_eq_true_eq]
        exact ⟨hw.1, ih (a + 1) (by omega) hw.2⟩

/-- Dropping keys keeps the canonical form. -/
theorem Tbl.drop_wf {α : Type} [DecidableEq α] (t : Tbl α) (p : Nat → Bool) (d : α) (w : Tbl.wf t d = true) :
    Tbl.wf (Tbl.drop t p) d = true := by
  suffices H : ∀ (t : Tbl α) lo, Tbl.wfFrom d lo t = true → Tbl.wfFrom d lo (Tbl.drop t p) = true from H t 0 w
  intro t
  induction t with
  | nil => intro lo _; rfl
  | cons e r ih =>
    obtain ⟨a, x⟩ := e
    intro lo hw
    simp only [Tbl.wfFrom, Bool.and_eq_true, decide_eq_true_eq] at hw
    have ihr := ih _ hw.2
    unfold Tbl.drop at ihr ⊢
    rw [List.filter_cons]
    split
    · simp only [Tbl.wfFrom, Bool.and_eq_true, decide_eq_true_eq]
      exact ⟨hw.1, ihr⟩
    · exact Tbl.wfFrom_mono (by omega) ihr

namespace Machine

theorem port_modPort_other (s : State) (p q : Nat) (f : Port → Port) (h : q ≠ p) : port (modPort s p f) q = port s q :=
  Tbl.look_put_other _ _ _ _ _ h

theorem port_modPort_ne (s : State) (p : Nat) (f : Port → Port) (h : f (port s p) ≠ {}) : port (modPort s p f) p = f (port s p) :=
  Tbl.look_put_ne _ _ _ _ h

/-- What f leaves of every port stays, where f's result is not the reset value. -/
theorem port_modPort_proj {α : Type} (g : Port → α) (s : State) (p q : Nat) (f : Port → Port) (hf : ∀ x, g (f x) = g x)
    (h : f (port s p) ≠ {}) : g (port (modPort s p f) q) = g (port s q) := by
  by_cases e : q = p
  · rw [e, port_modPort_ne s p f h, hf]
  · rw [port_modPort_other s p q f e]

/-- Storing bytes keeps DDR4's canonical form. -/
theorem ddrCells_wf (m : List Host.Cell) (d a : Nat) (l : List Byte) (w : Memory.wf m = true) : Memory.wf (ddrCells m d a l) = true := by
  unfold ddrCells
  generalize l.zipIdx = z
  induction z generalizing m with
  | nil => exact w
  | cons e z ih => exact ih _ (Tbl.put_wf _ _ _ _ w)

theorem ddrWrite_wf (s : State) (d a : Nat) (l : List Byte) (w : Memory.wf s.ddr = true) :
    Memory.wf (ddrWrite s d a l).ddr = true := ddrCells_wf _ _ _ _ w

/-- Bytes outside the stored ones read as before. -/
theorem ddrCells_other (m : List Host.Cell) (d a : Nat) (l : List Byte) (k : Nat)
    (h : k < d * 2 ^ 36 + a ∨ d * 2 ^ 36 + a + l.length ≤ k) : Tbl.look (ddrCells m d a l) k 0 = Tbl.look m k 0 := by
  unfold ddrCells
  have hz : ∀ e ∈ l.zipIdx, e.2 < l.length := fun e he => (List.mem_zipIdx' he).1
  revert hz
  generalize l.zipIdx = z
  intro hz
  induction z generalizing m with
  | nil => rfl
  | cons e z ih =>
    have he := hz e List.mem_cons_self
    rw [List.foldl_cons, ih _ fun x hx => hz x (List.mem_cons_of_mem _ hx)]
    exact Tbl.look_put_other _ _ _ _ _ (by omega)

theorem reset_memory_wf : Memory.wf State.reset.ddr = true := by decide

end Machine

end Sys2Proof
end

