-- ==== Sys2Proof/Laws/Axes.lean ====
section
/-! SUPPORT. Axes: what leaves the axis table alone, an axis after a change of its own and of another's. -/

namespace Sys2Proof.Machine

/-- A first word without reserved bits that names an axis of the part is accepted. -/
theorem axisBad_none {s : State} {w : List Word} {hi : Nat} (h0 : fld w 0 31 hi = 0) (h1 : hasAxis s (fld w 0 13 0) = true) :
    axisBad s w hi = none := by simp [axisBad, h0, h1]

/-- An axis after its own change. -/
theorem axis_modAxis_ne (s : State) (a : Nat) (f : Axis → Axis) (h : f (axis s a) ≠ {}) : axis (modAxis s a f) a = f (axis s a) :=
  Tbl.look_put_ne _ _ _ _ h

/-- An axis after the change of another. -/
theorem axis_modAxis_other (s : State) (a b : Nat) (f : Axis → Axis) (h : b ≠ a) : axis (modAxis s a f) b = axis s b :=
  Tbl.look_put_other _ _ _ _ _ h

theorem imgWrite_axes (s : State) (a o : Nat) (l : List Byte) : (imgWrite s a o l).axes = s.axes := by unfold imgWrite imgStore; split <;> rfl

theorem writeCmd_axes (s : State) (a : Nat) : (writeCmd s a).axes = s.axes := by
  unfold writeCmd; split
  · exact imgWrite_axes _ _ _ _
  · rfl

theorem OnlyReports.axes {s t : State} (h : OnlyReports s t) : t.axes = s.axes := by unfold OnlyReports at h; rw [h]

theorem raise_axes (s : State) (x y : Nat) : (raise s x y).axes = s.axes := OnlyReports.axes (raise_reports s x y)

theorem modDigest_axes_eq (s : State) (r : Nat) (f : Digest → Digest) : (modDigest s r f).axes = s.axes := rfl

theorem raiseTraj_axes (s : State) (a k : Nat) : (raiseTraj s a k).axes = s.axes := by
  simp only [raiseTraj, raise_axes, modDigest_axes_eq]

theorem traceAxis_axes (s : State) (a o : Nat) : (traceAxis s a o).axes = s.axes := by
  unfold traceAxis; dsimp only; split
  · rfl
  · exact OnlyReports.axes (traceRec_reports _ _ _ _ _)

theorem axis_congr {s t : State} (h : t.axes = s.axes) (a : Nat) : axis t a = axis s a := by unfold axis; rw [h]

/-- An axis after its change of state. -/
theorem setAxisState_same (s : State) (a st c : Nat) (h : st ≠ 0) :
    axis (setAxisState s a st c) a = { axis s a with dyn := { (axis s a).dyn with state := st, cause := c } } := by
  unfold setAxisState
  rw [axis_congr (traceAxis_axes _ _ _), axis_modAxis_ne]
  intro e
  exact h (congrArg (fun x : Axis => x.dyn.state) e)

/-- An axis after another's change of state. -/
theorem setAxisState_other (s : State) (a b st c : Nat) (h : b ≠ a) : axis (setAxisState s a st c) b = axis s b := by
  unfold setAxisState
  rw [axis_congr (traceAxis_axes _ _ _), axis_modAxis_other _ _ _ _ h]

end Sys2Proof.Machine
end

