-- ==== Sys2Proof/Laws/Commands.lean ====
section
/-! SUPPORT. The commands of R306: their opcodes, and what one is that does not pass the gate. -/

namespace Sys2Proof.Machine

/-- What a command is whose gate answers: the gate's state. -/
theorem exec_stopped {i : Instr} {op : Nat} {h : CmdHdr} {w : List Word} {s t : State} (hc : i.command = some (op, h, w))
    (hg : gateCmd s h op w = (t, false)) : exec i s = .next t := by
  cases i
  case idQuery h' w' =>
    cases hc
    simp only [exec_idQuery, execIdQuery, runCmd, hg, Bool.false_eq_true, Bool.not_false, reduceIte]
  case echo h' w' =>
    cases hc
    simp only [exec_echo, execEcho, runCmd, hg, Bool.false_eq_true, Bool.not_false, reduceIte]
  case clockQuery h' w' =>
    cases hc
    simp only [exec_clockQuery, execClockQuery, runCmd, hg, Bool.false_eq_true, Bool.not_false, reduceIte]
  case reedTrim h' w' =>
    cases hc
    simp only [exec_reedTrim, execReedTrim, runCmd, hg, Bool.false_eq_true, Bool.not_false, reduceIte]
  case clkoutSet h' w' =>
    cases hc
    simp only [exec_clkoutSet, execClkoutSet, runCmd, hg, Bool.false_eq_true, Bool.not_false, reduceIte]
  case parkSet h' w' =>
    cases hc
    simp only [exec_parkSet, execParkSet, runCmd, hg, Bool.false_eq_true, Bool.not_false, reduceIte]
  case resetIssue h' w' =>
    cases hc
    simp only [exec_resetIssue, execResetIssue, runCmd, hg, Bool.false_eq_true, Bool.not_false, reduceIte]
  case standbyEnter h' w' =>
    cases hc
    simp only [exec_standbyEnter, execStandbyEnter, runCmd, hg, Bool.false_eq_true, Bool.not_false, reduceIte]
  case portQuery h' w' =>
    cases hc
    simp only [exec_portQuery, execPortQuery, runCmd, hg, Bool.false_eq_true, Bool.not_false, reduceIte]
  case portSet h' w' =>
    cases hc
    simp only [exec_portSet, execPortSet, runCmd, hg, Bool.false_eq_true, Bool.not_false, reduceIte]
  case portSleep h' w' =>
    cases hc
    simp only [exec_portSleep, execPortSleep, runCmd, hg, Bool.false_eq_true, Bool.not_false, reduceIte]
  case portWake h' w' =>
    cases hc
    simp only [exec_portWake, execPortWake, runCmd, hg, Bool.false_eq_true, Bool.not_false, reduceIte]
  case laneSet h' w' =>
    cases hc
    simp only [exec_laneSet, execLaneSet, runCmd, hg, Bool.false_eq_true, Bool.not_false, reduceIte]
  case laneRecal h' w' =>
    cases hc
    simp only [exec_laneRecal, execLaneRecal, runCmd, hg, Bool.false_eq_true, Bool.not_false, reduceIte]
  case portCountRead h' w' =>
    cases hc
    simp only [exec_portCountRead, execPortCountRead, runCmd, hg, Bool.false_eq_true, Bool.not_false, reduceIte]
  case portReset h' w' =>
    cases hc
    simp only [exec_portReset, execPortReset, runCmd, hg, Bool.false_eq_true, Bool.not_false, reduceIte]
  case timeQuery h' w' =>
    cases hc
    simp only [exec_timeQuery, execTimeQuery, runCmd, hg, Bool.false_eq_true, Bool.not_false, reduceIte]
  case timeSourceSet h' w' =>
    cases hc
    simp only [exec_timeSourceSet, execTimeSourceSet, runCmd, hg, Bool.false_eq_true, Bool.not_false, reduceIte]
  case timeStepPermit h' w' =>
    cases hc
    simp only [exec_timeStepPermit, execTimeStepPermit, runCmd, hg, Bool.false_eq_true, Bool.not_false, reduceIte]
  case timeRateSet h' w' =>
    cases hc
    simp only [exec_timeRateSet, execTimeRateSet, runCmd, hg, Bool.false_eq_true, Bool.not_false, reduceIte]
  case timeLinkSet h' w' =>
    cases hc
    simp only [exec_timeLinkSet, execTimeLinkSet, runCmd, hg, Bool.false_eq_true, Bool.not_false, reduceIte]
  case timePortSet h' w' =>
    cases hc
    simp only [exec_timePortSet, execTimePortSet, runCmd, hg, Bool.false_eq_true, Bool.not_false, reduceIte]
  case pulseSet h' w' =>
    cases hc
    simp only [exec_pulseSet, execPulseSet, runCmd, hg, Bool.false_eq_true, Bool.not_false, reduceIte]
  case pulseStop h' w' =>
    cases hc
    simp only [exec_pulseStop, execPulseStop, runCmd, hg, Bool.false_eq_true, Bool.not_false, reduceIte]
  case pinRouteSet h' w' =>
    cases hc
    simp only [exec_pinRouteSet, execPinRouteSet, runCmd, hg, Bool.false_eq_true, Bool.not_false, reduceIte]
  case captureSet h' w' =>
    cases hc
    simp only [exec_captureSet, execCaptureSet, runCmd, hg, Bool.false_eq_true, Bool.not_false, reduceIte]
  case tsringSet h' w' =>
    cases hc
    simp only [exec_tsringSet, execTsringSet, runCmd, hg, Bool.false_eq_true, Bool.not_false, reduceIte]
  case valveQuery h' w' =>
    cases hc
    simp only [exec_valveQuery, execValveQuery, runCmd, hg, Bool.false_eq_true, Bool.not_false, reduceIte]
  case valveSet h' w' =>
    cases hc
    simp only [exec_valveSet, execValveSet, runCmd, hg, Bool.false_eq_true, Bool.not_false, reduceIte]
  case valveWrite h' w' =>
    cases hc
    simp only [exec_valveWrite, execValveWrite, runCmd, hg, Bool.false_eq_true, Bool.not_false, reduceIte]
  case valveRead h' w' =>
    cases hc
    simp only [exec_valveRead, execValveRead, runCmd, hg, Bool.false_eq_true, Bool.not_false, reduceIte]
  case valveStart h' w' =>
    cases hc
    simp only [exec_valveStart, execValveStart, runLater, hg, Bool.false_eq_true, Bool.not_false, reduceIte]
  case valveSwap h' w' =>
    cases hc
    simp only [exec_valveSwap, execValveSwap, runLater, hg, Bool.false_eq_true, Bool.not_false, reduceIte]
  case valveStop h' w' =>
    cases hc
    simp only [exec_valveStop, execValveStop, runLater, hg, Bool.false_eq_true, Bool.not_false, reduceIte]
  case preemptSet h' w' =>
    cases hc
    simp only [exec_preemptSet, execPreemptSet, runCmd, hg, Bool.false_eq_true, Bool.not_false, reduceIte]
  case preemptQuery h' w' =>
    cases hc
    simp only [exec_preemptQuery, execPreemptQuery, runCmd, hg, Bool.false_eq_true, Bool.not_false, reduceIte]
  case courseQuery h' w' =>
    cases hc
    simp only [exec_courseQuery, execCourseQuery, runCmd, hg, Bool.false_eq_true, Bool.not_false, reduceIte]
  case courseSet h' w' =>
    cases hc
    simp only [exec_courseSet, execCourseSet, runCmd, hg, Bool.false_eq_true, Bool.not_false, reduceIte]
  case bondWrite h' w' =>
    cases hc
    simp only [exec_bondWrite, execBondWrite, runCmd, hg, Bool.false_eq_true, Bool.not_false, reduceIte]
  case frameSet h' w' =>
    cases hc
    simp only [exec_frameSet, execFrameSet, runCmd, hg, Bool.false_eq_true, Bool.not_false, reduceIte]
  case safeImageWrite h' w' =>
    cases hc
    simp only [exec_safeImageWrite, execSafeImageWrite, runCmd, hg, Bool.false_eq_true, Bool.not_false, reduceIte]
  case courseStart h' w' =>
    cases hc
    simp only [exec_courseStart, execCourseStart, runLater, hg, Bool.false_eq_true, Bool.not_false, reduceIte]
  case courseSwap h' w' =>
    cases hc
    simp only [exec_courseSwap, execCourseSwap, runLater, hg, Bool.false_eq_true, Bool.not_false, reduceIte]
  case courseSafe h' w' =>
    cases hc
    simp only [exec_courseSafe, execCourseSafe, runCmd, hg, Bool.false_eq_true, Bool.not_false, reduceIte]
  case courseResume h' w' =>
    cases hc
    simp only [exec_courseResume, execCourseResume, runLater, hg, Bool.false_eq_true, Bool.not_false, reduceIte]
  case courseStop h' w' =>
    cases hc
    simp only [exec_courseStop, execCourseStop, runLater, hg, Bool.false_eq_true, Bool.not_false, reduceIte]
  case courseLineSet h' w' =>
    cases hc
    simp only [exec_courseLineSet, execCourseLineSet, runCmd, hg, Bool.false_eq_true, Bool.not_false, reduceIte]
  case axisQuery h' w' =>
    cases hc
    simp only [exec_axisQuery, execAxisQuery, runCmd, hg, Bool.false_eq_true, Bool.not_false, reduceIte]
  case axisSet h' w' =>
    cases hc
    simp only [exec_axisSet, execAxisSet, runCmd, hg, Bool.false_eq_true, Bool.not_false, reduceIte]
  case reflexSet h' w' =>
    cases hc
    simp only [exec_reflexSet, execReflexSet, runCmd, hg, Bool.false_eq_true, Bool.not_false, reduceIte]
  case reflexArm h' w' =>
    cases hc
    simp only [exec_reflexArm, execReflexArm, runCmd, hg, Bool.false_eq_true, Bool.not_false, reduceIte]
  case axisStart h' w' =>
    cases hc
    simp only [exec_axisStart, execAxisStart, runLater, hg, Bool.false_eq_true, Bool.not_false, reduceIte]
  case axisQstop h' w' =>
    cases hc
    simp only [exec_axisQstop, execAxisQstop, runCmd, hg, Bool.false_eq_true, Bool.not_false, reduceIte]
  case axisOff h' w' =>
    cases hc
    simp only [exec_axisOff, execAxisOff, runLater, hg, Bool.false_eq_true, Bool.not_false, reduceIte]
  case segWrite h' w' =>
    cases hc
    simp only [exec_segWrite, execSegWrite, runCmd, hg, Bool.false_eq_true, Bool.not_false, reduceIte]
  case digestQuery h' w' =>
    cases hc
    simp only [exec_digestQuery, execDigestQuery, runCmd, hg, Bool.false_eq_true, Bool.not_false, reduceIte]
  case flowQuery h' w' =>
    cases hc
    simp only [exec_flowQuery, execFlowQuery, runCmd, hg, Bool.false_eq_true, Bool.not_false, reduceIte]
  case flowAdd h' w' =>
    cases hc
    simp only [exec_flowAdd, execFlowAdd, runCmd, hg, Bool.false_eq_true, Bool.not_false, reduceIte]
  case flowWrite h' w' =>
    cases hc
    simp only [exec_flowWrite, execFlowWrite, runCmd, hg, Bool.false_eq_true, Bool.not_false, reduceIte]
  case flowDelete h' w' =>
    cases hc
    simp only [exec_flowDelete, execFlowDelete, runCmd, hg, Bool.false_eq_true, Bool.not_false, reduceIte]
  case flowPortSet h' w' =>
    cases hc
    simp only [exec_flowPortSet, execFlowPortSet, runCmd, hg, Bool.false_eq_true, Bool.not_false, reduceIte]
  case flowLatentSet h' w' =>
    cases hc
    simp only [exec_flowLatentSet, execFlowLatentSet, runCmd, hg, Bool.false_eq_true, Bool.not_false, reduceIte]
  case flowRecovReset h' w' =>
    cases hc
    simp only [exec_flowRecovReset, execFlowRecovReset, runLater, hg, Bool.false_eq_true, Bool.not_false, reduceIte]
  case flowCountRead h' w' =>
    cases hc
    simp only [exec_flowCountRead, execFlowCountRead, runCmd, hg, Bool.false_eq_true, Bool.not_false, reduceIte]
  case flowTableQuery h' w' =>
    cases hc
    simp only [exec_flowTableQuery, execFlowTableQuery, runCmd, hg, Bool.false_eq_true, Bool.not_false, reduceIte]
  case queueQuery h' w' =>
    cases hc
    simp only [exec_queueQuery, execQueueQuery, runCmd, hg, Bool.false_eq_true, Bool.not_false, reduceIte]
  case queueWrite h' w' =>
    cases hc
    simp only [exec_queueWrite, execQueueWrite, runCmd, hg, Bool.false_eq_true, Bool.not_false, reduceIte]
  case queueFlush h' w' =>
    cases hc
    simp only [exec_queueFlush, execQueueFlush, runCmd, hg, Bool.false_eq_true, Bool.not_false, reduceIte]
  case serviceSet h' w' =>
    cases hc
    simp only [exec_serviceSet, execServiceSet, runCmd, hg, Bool.false_eq_true, Bool.not_false, reduceIte]
  case portShapeSet h' w' =>
    cases hc
    simp only [exec_portShapeSet, execPortShapeSet, runCmd, hg, Bool.false_eq_true, Bool.not_false, reduceIte]
  case bufferSet h' w' =>
    cases hc
    simp only [exec_bufferSet, execBufferSet, runCmd, hg, Bool.false_eq_true, Bool.not_false, reduceIte]
  case ingressSet h' w' =>
    cases hc
    simp only [exec_ingressSet, execIngressSet, runCmd, hg, Bool.false_eq_true, Bool.not_false, reduceIte]
  case bufferQuery h' w' =>
    cases hc
    simp only [exec_bufferQuery, execBufferQuery, runCmd, hg, Bool.false_eq_true, Bool.not_false, reduceIte]
  case twinQuery h' w' =>
    cases hc
    simp only [exec_twinQuery, execTwinQuery, runCmd, hg, Bool.false_eq_true, Bool.not_false, reduceIte]
  case twinSet h' w' =>
    cases hc
    simp only [exec_twinSet, execTwinSet, runCmd, hg, Bool.false_eq_true, Bool.not_false, reduceIte]
  case twinLead h' w' =>
    cases hc
    simp only [exec_twinLead, execTwinLead, runCmd, hg, Bool.false_eq_true, Bool.not_false, reduceIte]
  case twinFollow h' w' =>
    cases hc
    simp only [exec_twinFollow, execTwinFollow, runCmd, hg, Bool.false_eq_true, Bool.not_false, reduceIte]
  case twinHandover h' w' =>
    cases hc
    simp only [exec_twinHandover, execTwinHandover, runLater, hg, Bool.false_eq_true, Bool.not_false, reduceIte]
  case twinSync h' w' =>
    cases hc
    simp only [exec_twinSync, execTwinSync, runCmd, hg, Bool.false_eq_true, Bool.not_false, reduceIte]
  case twinOff h' w' =>
    cases hc
    simp only [exec_twinOff, execTwinOff, runCmd, hg, Bool.false_eq_true, Bool.not_false, reduceIte]
  case faultQuery h' w' =>
    cases hc
    simp only [exec_faultQuery, execFaultQuery, runCmd, hg, Bool.false_eq_true, Bool.not_false, reduceIte]
  case faultSet h' w' =>
    cases hc
    simp only [exec_faultSet, execFaultSet, runCmd, hg, Bool.false_eq_true, Bool.not_false, reduceIte]
  case faultClear h' w' =>
    cases hc
    simp only [exec_faultClear, execFaultClear, runCmd, hg, Bool.false_eq_true, Bool.not_false, reduceIte]
  case faultnSet h' w' =>
    cases hc
    simp only [exec_faultnSet, execFaultnSet, runCmd, hg, Bool.false_eq_true, Bool.not_false, reduceIte]
  case lsoSet h' w' =>
    cases hc
    simp only [exec_lsoSet, execLsoSet, runCmd, hg, Bool.false_eq_true, Bool.not_false, reduceIte]
  case secQuery h' w' =>
    cases hc
    simp only [exec_secQuery, execSecQuery, runCmd, hg, Bool.false_eq_true, Bool.not_false, reduceIte]
  case imageStage h' w' =>
    cases hc
    simp only [exec_imageStage, execImageStage, runCmd, hg, Bool.false_eq_true, Bool.not_false, reduceIte]
  case imageVerify h' w' =>
    cases hc
    simp only [exec_imageVerify, execImageVerify, runCmd, hg, Bool.false_eq_true, Bool.not_false, reduceIte]
  case imageActivate h' w' =>
    cases hc
    simp only [exec_imageActivate, execImageActivate, runCmd, hg, Bool.false_eq_true, Bool.not_false, reduceIte]
  case attest h' w' =>
    cases hc
    simp only [exec_attest, execAttest, runCmd, hg, Bool.false_eq_true, Bool.not_false, reduceIte]
  case rollbackAdvance h' w' =>
    cases hc
    simp only [exec_rollbackAdvance, execRollbackAdvance, runCmd, hg, Bool.false_eq_true, Bool.not_false, reduceIte]
  case traceSet h' w' =>
    cases hc
    simp only [exec_traceSet, execTraceSet, runCmd, hg, Bool.false_eq_true, Bool.not_false, reduceIte]
  case traceQuery h' w' =>
    cases hc
    simp only [exec_traceQuery, execTraceQuery, runCmd, hg, Bool.false_eq_true, Bool.not_false, reduceIte]
  case archiveSet h' w' =>
    cases hc
    simp only [exec_archiveSet, execArchiveSet, runCmd, hg, Bool.false_eq_true, Bool.not_false, reduceIte]
  case archiveQuery h' w' =>
    cases hc
    simp only [exec_archiveQuery, execArchiveQuery, runCmd, hg, Bool.false_eq_true, Bool.not_false, reduceIte]
  case sysQuery h' w' =>
    cases hc
    simp only [exec_sysQuery, execSysQuery, runCmd, hg, Bool.false_eq_true, Bool.not_false, reduceIte]
  case sysSet h' w' =>
    cases hc
    simp only [exec_sysSet, execSysSet, runCmd, hg, Bool.false_eq_true, Bool.not_false, reduceIte]
  case sysRouteSet h' w' =>
    cases hc
    simp only [exec_sysRouteSet, execSysRouteSet, runCmd, hg, Bool.false_eq_true, Bool.not_false, reduceIte]
  case sysRootReturn h' w' =>
    cases hc
    simp only [exec_sysRootReturn, execSysRootReturn, runLater, hg, Bool.false_eq_true, Bool.not_false, reduceIte]
  case hyithQuery h' w' =>
    cases hc
    simp only [exec_hyithQuery, execHyithQuery, runCmd, hg, Bool.false_eq_true, Bool.not_false, reduceIte]
  case txnOpen h' w' =>
    cases hc
    simp only [exec_txnOpen, execTxnOpen, runCmd, hg, Bool.false_eq_true, Bool.not_false, reduceIte]
  case txnCommit h' w' =>
    cases hc
    simp only [exec_txnCommit, execTxnCommit, runLater, hg, Bool.false_eq_true, Bool.not_false, reduceIte]
  case txnAbort h' w' =>
    cases hc
    simp only [exec_txnAbort, execTxnAbort, runCmd, hg, Bool.false_eq_true, Bool.not_false, reduceIte]
  case txnQuery h' w' =>
    cases hc
    simp only [exec_txnQuery, execTxnQuery, runCmd, hg, Bool.false_eq_true, Bool.not_false, reduceIte]
  all_goals cases hc

/-- The opcode of a command runs it. -/
theorem runOpcode_command {i : Instr} {op : Nat} {h : CmdHdr} {w : List Word} (hc : i.command = some (op, h, w)) (s : State) :
    runOpcode op h w s = some (exec i s) := by
  cases i <;> cases hc <;> rfl

/-- The opcode of a command names it. -/
theorem commandOf_command {i : Instr} {op : Nat} {h : CmdHdr} {w : List Word} (hc : i.command = some (op, h, w)) :
    commandOf op h w = some i := by
  cases i <;> cases hc <;> rfl

/-- An opcode is 16 bits wide. -/
theorem command_op {i : Instr} {op : Nat} {h : CmdHdr} {w : List Word} (hc : i.command = some (op, h, w)) : op < 65536 := by
  cases i <;> cases hc <;> omega

end Sys2Proof.Machine
end

