-- ==== Sys2Proof/Laws/Effects.lean ====
section
/-! SUPPORT. What shared operations leave alone: the power state under a reply, the time base under a change of its state, the safety
outputs under FAULTn. -/

namespace Sys2Proof.Machine

theorem setCond_power (s : State) (l : FaultLoc) (i : Nat) (b : Bool) : (setCond s l i b).power = s.power := by
  simp only [setCond]; split
  · rfl
  · split <;> rfl

theorem setLockstep_power (s : State) (b : Bool) : (setLockstep s b).power = { s.power with lockstep := b } := by
  simp only [setLockstep, setCond_power]

theorem deliver_power (s : State) (h op r) : (deliver s h op r).power = s.power := by rw [deliver_replies s h op r]

/-- A change of the time base's state changes nothing else of it. -/
theorem setTState_eq (s : State) (x : TState) (b : Bool) : (setTState s x b).time = { s.time with state := x } ∧
    OnlyReports { s with time := { s.time with state := x } } (setTState s x b) := by
  have h : OnlyReports { s with time := { s.time with state := x } } (setTState s x b) := by
    unfold setTState
    extract_lets
    exact .ite (.refl _) (.ite (traceRec_reports _ _ _ _ _) ((traceRec_reports _ _ _ _ _).trans (raise_reports _ _ _)))
  refine ⟨?_, h⟩
  rw [h]

theorem firstBad_none {f : Nat → Bool} {w : List Word} {i : Nat} (h : ∀ x ∈ w.drop i, f x.toNat = false) : firstBad f w i = none := by
  simp only [firstBad, Option.map_eq_none_iff, List.find?_eq_none]
  intro x hx
  simp [h x.1 (List.fst_mem_of_mem_zipIdx hx)]

theorem assert_asserted (s : State) : (assertFaultn s).safety.asserted = true := by
  unfold assertFaultn; split
  · assumption
  · rfl

theorem assert_rest (s : State) : (assertFaultn s).safety.lsoDrive = s.safety.lsoDrive ∧ (assertFaultn s).safety.safeLatch = s.safety.safeLatch ∧
    (assertFaultn s).safety.clockSafe = s.safety.clockSafe := by
  unfold assertFaultn; split <;> exact ⟨rfl, rfl, rfl⟩

theorem ite_none {α : Type} {c : Prop} [Decidable c] {a : α} {y : Option α} (h : (if c then some a else y) = none) : ¬c ∧ y = none := by
  by_cases hc : c
  · rw [if_pos hc] at h; cases h
  · rw [if_neg hc] at h; exact ⟨hc, h⟩

theorem ring_user {s : State} {d r : Nat}
    (h : ∀ c, c < 32 → (chan s (32 * d + c)).state = 0 ∨ (chan s (32 * d + c)).state = 4 ∨ mRing (chan s (32 * d + c)).act ≠ r) :
    (List.range 32).find? (fun c =>
      decide (1 ≤ (chan s (32 * d + c)).state) && decide ((chan s (32 * d + c)).state ≤ 3) && mRing (chan s (32 * d + c)).act == r) = none := by
  rw [List.find?_eq_none]
  intro c hc
  have := h c (List.mem_range.mp hc)
  simp only [Bool.and_eq_true, decide_eq_true_eq, beq_iff_eq]
  omega

theorem range_one {α : Type} (f : Nat → Option α) (n k : Nat) (hk : k < n) (h : ∀ i, i < n → i ≠ k → f i = none) :
    (List.range n).filterMap f = (f k).toList := by
  induction n with
  | zero => omega
  | succ n ih =>
    rw [List.range_succ, List.filterMap_append]
    by_cases e : k = n
    · subst e
      have : (List.range k).filterMap f = [] := by
        rw [List.filterMap_eq_nil_iff]; intro i hi; have := List.mem_range.mp hi; exact h i (by omega) (by omega)
      rw [this]; cases hf : f k <;> simp [List.filterMap, hf]
    · rw [ih (by omega) fun i hi => h i (by omega)]
      simp [List.filterMap, h n (by omega) (Ne.symm e)]

end Sys2Proof.Machine
end

