-- ==== Sys2Proof/Laws/KeepOps.lean ====
section
/-! SUPPORT. What the operations and the meanings of Ops, Command, TxnOp, Pulse, Time leave as they are: the OTP and the queue of waiting commands. -/

set_option linter.unusedTactic false
set_option linter.unreachableTactic false
set_option linter.unusedVariables false
set_option linter.unusedSimpArgs false
set_option linter.unnecessarySeqFocus false

namespace Sys2Proof.Machine

/-! ### Machine/Ops.lean -/

@[simp ↓] theorem foldl_otp {α : Type} (f : State → α → State) (h : ∀ s a, (f s a).otp = s.otp) (l : List α) (s : State) :
    (l.foldl f s).otp = s.otp := by
  induction l generalizing s with
  | nil => rfl
  | cons a l ih => simp [ih, h]

@[simp ↓] theorem foldl_pending {α : Type} (f : State → α → State) (h : ∀ s a, (f s a).pending = s.pending) (l : List α) (s : State) :
    (l.foldl f s).pending = s.pending := by
  induction l generalizing s with
  | nil => rfl
  | cons a l ih => simp [ih, h]

@[simp ↓] theorem ite_otp (c : Prop) [Decidable c] (a b : State) : (if c then a else b).otp = if c then a.otp else b.otp := by
  split <;> rfl

@[simp ↓] theorem ite_pending (c : Prop) [Decidable c] (a b : State) : (if c then a else b).pending = if c then a.pending else b.pending := by
  split <;> rfl


/-- An outcome of a step from s that leaves OTP and the queue as they are. -/
def OutKeeps (s : State) (o : Out) : Prop := ∃ t, o = .next t ∧ t.otp = s.otp ∧ t.pending = s.pending

theorem OutKeeps.mk {s t : State} (h : t.otp = s.otp ∧ t.pending = s.pending) : OutKeeps s (.next t) := ⟨t, rfl, h⟩

/-- t has the OTP and the queue of s. -/
def Keeps (s t : State) : Prop := t.otp = s.otp ∧ t.pending = s.pending

theorem Keeps.trans {a b c : State} (h : Keeps a b) (k : Keeps b c) : Keeps a c := ⟨k.1.trans h.1, k.2.trans h.2⟩

theorem Keeps.refl (s : State) : Keeps s s := ⟨rfl, rfl⟩

theorem Keeps.ite {c : Prop} [Decidable c] {s a b : State} (h : Keeps s a) (k : Keeps s b) : Keeps s (if c then a else b) := by
  split
  · exact h
  · exact k

theorem Keeps.of {s t : State} (h : t.otp = s.otp ∧ t.pending = s.pending) : Keeps s t := h

@[simp ↓] theorem atNs_keep (s : State) (t : Nat) : (atNs s t).otp = s.otp ∧ (atNs s t).pending = s.pending := by
  constructor <;>
  (unfold atNs
   try extract_lets
   repeat' split
   all_goals (try simp +zetaDelta))

@[simp ↓] theorem at16_keep (s : State) (t : Nat) : (at16 s t).otp = s.otp ∧ (at16 s t).pending = s.pending := by
  constructor <;>
  (unfold at16
   try extract_lets
   repeat' split
   all_goals (try simp +zetaDelta))

@[simp ↓] theorem setPort_keep (s : State) (p : Nat) (v : Port) : (setPort s p v).otp = s.otp ∧ (setPort s p v).pending = s.pending := by
  constructor <;>
  (unfold setPort
   try extract_lets
   repeat' split
   all_goals (try simp +zetaDelta))

@[simp ↓] theorem modPort_keep (s : State) (p : Nat) (f : Port → Port) : (modPort s p f).otp = s.otp ∧ (modPort s p f).pending = s.pending := by
  constructor <;>
  (unfold modPort
   try extract_lets
   repeat' split
   all_goals (try simp +zetaDelta))

@[simp ↓] theorem setAxis_keep (s : State) (a : Nat) (v : Axis) : (setAxis s a v).otp = s.otp ∧ (setAxis s a v).pending = s.pending := by
  constructor <;>
  (unfold setAxis
   try extract_lets
   repeat' split
   all_goals (try simp +zetaDelta))

@[simp ↓] theorem modAxis_keep (s : State) (a : Nat) (f : Axis → Axis) : (modAxis s a f).otp = s.otp ∧ (modAxis s a f).pending = s.pending := by
  constructor <;>
  (unfold modAxis
   try extract_lets
   repeat' split
   all_goals (try simp +zetaDelta))

@[simp ↓] theorem modLane_keep (s : State) (q : Nat) (f : Lane → Lane) : (modLane s q f).otp = s.otp ∧ (modLane s q f).pending = s.pending := by
  constructor <;>
  (unfold modLane
   try extract_lets
   repeat' split
   all_goals (try simp +zetaDelta))

@[simp ↓] theorem modHlink_keep (s : State) (u : Nat) (f : HLink → HLink) : (modHlink s u f).otp = s.otp ∧ (modHlink s u f).pending = s.pending := by
  constructor <;>
  (unfold modHlink
   try extract_lets
   repeat' split
   all_goals (try simp +zetaDelta))

@[simp ↓] theorem modDigest_keep (s : State) (r : Nat) (f : Digest → Digest) : (modDigest s r f).otp = s.otp ∧ (modDigest s r f).pending = s.pending := by
  constructor <;>
  (unfold modDigest
   try extract_lets
   repeat' split
   all_goals (try simp +zetaDelta))

@[simp ↓] theorem emit_keep (s : State) (o : Output) : (emit s o).otp = s.otp ∧ (emit s o).pending = s.pending := by
  constructor <;>
  (unfold emit
   try extract_lets
   repeat' split
   all_goals (try simp +zetaDelta))

@[simp ↓] theorem useFree_keep (s : State) : (useFree s).otp = s.otp ∧ (useFree s).pending = s.pending := by
  constructor <;>
  (unfold useFree
   try extract_lets
   repeat' split
   all_goals (try simp +zetaDelta))

@[simp ↓] theorem modDdrChan_keep (s : State) (d : Nat) (f : DdrChan → DdrChan) : (modDdrChan s d f).otp = s.otp ∧ (modDdrChan s d f).pending = s.pending := by
  constructor <;>
  (unfold modDdrChan
   try extract_lets
   repeat' split
   all_goals (try simp +zetaDelta))

@[simp ↓] theorem setReg_keep (s : State) (a v : Nat) : (setReg s a v).otp = s.otp ∧ (setReg s a v).pending = s.pending := by
  constructor <;>
  (unfold setReg
   try extract_lets
   repeat' split
   all_goals (try simp +zetaDelta))

@[simp ↓] theorem setFresh_keep (s : State) (a v : Nat) : (setFresh s a v).otp = s.otp ∧ (setFresh s a v).pending = s.pending := by
  constructor <;>
  (unfold setFresh
   try extract_lets
   repeat' split
   all_goals (try simp +zetaDelta))

@[simp ↓] theorem markFresh_keep (s : State) (a bs : Nat) : (markFresh s a bs).otp = s.otp ∧ (markFresh s a bs).pending = s.pending := by
  constructor <;>
  (unfold markFresh
   try extract_lets
   repeat' split
   all_goals (try simp +zetaDelta))

@[simp ↓] theorem pendFault_keep (s : State) (l : FaultLoc) (i : Nat) : (pendFault s l i).otp = s.otp ∧ (pendFault s l i).pending = s.pending := by
  constructor <;>
  (unfold pendFault
   try extract_lets
   repeat' split
   all_goals (try simp +zetaDelta))

@[simp ↓] theorem traceRec_keep (s : State) (d ty addr : Nat) (args : List Nat) : (traceRec s d ty addr args).otp = s.otp ∧ (traceRec s d ty addr args).pending = s.pending := by
  constructor <;>
  (unfold traceRec
   try extract_lets
   repeat' split
   all_goals (try simp +zetaDelta))

@[simp ↓] theorem evtPut_keep (s : State) (op : Nat) (tg : Nat × Nat × Nat × Nat) (w : List Word) : (evtPut s op tg w).otp = s.otp ∧ (evtPut s op tg w).pending = s.pending := by
  constructor <;>
  (unfold evtPut
   try extract_lets
   repeat' split
   all_goals (try simp +zetaDelta))

@[simp ↓] theorem evtGap_keep (s : State) : (evtGap s).otp = s.otp ∧ (evtGap s).pending = s.pending := by
  constructor <;>
  (unfold evtGap
   try extract_lets
   repeat' split
   all_goals (try simp +zetaDelta))

@[simp ↓] theorem raiseBits_keep (s : State) (a bs : Nat) : (raiseBits s a bs).otp = s.otp ∧ (raiseBits s a bs).pending = s.pending := by
  constructor <;>
  (unfold raiseBits
   try extract_lets
   repeat' split
   all_goals (try simp +zetaDelta))

@[simp ↓] theorem countPkg_keep (s : State) (a n : Nat) : (countPkg s a n).otp = s.otp ∧ (countPkg s a n).pending = s.pending := by
  constructor <;>
  (unfold countPkg
   try extract_lets
   repeat' split
   all_goals (try simp +zetaDelta))

@[simp ↓] theorem evtGrow_keep (s : State) (e : Nat × Nat × Nat × Nat) (nb : Nat) : (evtGrow s e nb).otp = s.otp ∧ (evtGrow s e nb).pending = s.pending := by
  constructor <;>
  (unfold evtGrow
   try extract_lets
   repeat' split
   all_goals (try simp +zetaDelta)
   all_goals (repeat' split)
   all_goals (try simp +zetaDelta))

@[simp ↓] theorem eventPacket_keep (s : State) (a nb : Nat) : (eventPacket s a nb).otp = s.otp ∧ (eventPacket s a nb).pending = s.pending := by
  constructor <;>
  (unfold eventPacket
   try extract_lets
   repeat' split
   all_goals (try simp +zetaDelta))

@[simp ↓] theorem raise_keep (s : State) (a bs : Nat) : (raise s a bs).otp = s.otp ∧ (raise s a bs).pending = s.pending := by
  constructor <;>
  (unfold raise
   try extract_lets
   repeat' split
   all_goals (try simp +zetaDelta))

@[simp ↓] theorem halfEvent_keep (s : State) (a : Nat) : (halfEvent s a).otp = s.otp ∧ (halfEvent s a).pending = s.pending := by
  constructor <;>
  (unfold halfEvent
   try extract_lets
   repeat' split
   all_goals (try simp +zetaDelta))

@[simp ↓] theorem count_keep (s : State) (a n : Nat) : (count s a n).otp = s.otp ∧ (count s a n).pending = s.pending := by
  constructor <;>
  (unfold count
   try extract_lets
   repeat' split
   all_goals (try simp +zetaDelta))

@[simp ↓] theorem count64_keep (s : State) (a n : Nat) : (count64 s a n).otp = s.otp ∧ (count64 s a n).pending = s.pending := by
  constructor <;>
  (unfold count64
   try extract_lets
   repeat' split
   all_goals (try simp +zetaDelta))

@[simp ↓] theorem raisePort_keep (s : State) (p o bs : Nat) : (raisePort s p o bs).otp = s.otp ∧ (raisePort s p o bs).pending = s.pending := by
  constructor <;>
  (unfold raisePort
   try extract_lets
   repeat' split
   all_goals (try simp +zetaDelta))

@[simp ↓] theorem countPort_keep (s : State) (p o n : Nat) : (countPort s p o n).otp = s.otp ∧ (countPort s p o n).pending = s.pending := by
  constructor <;>
  (unfold countPort
   try extract_lets
   repeat' split
   all_goals (try simp +zetaDelta))

@[simp ↓] theorem raiseTraj_keep (s : State) (a k : Nat) : (raiseTraj s a k).otp = s.otp ∧ (raiseTraj s a k).pending = s.pending := by
  constructor <;>
  (unfold raiseTraj
   try extract_lets
   repeat' split
   all_goals (try simp +zetaDelta))

@[simp ↓] theorem ddrWrite_keep (s : State) (d a : Nat) (l : List Byte) : (ddrWrite s d a l).otp = s.otp ∧ (ddrWrite s d a l).pending = s.pending := by
  constructor <;>
  (unfold ddrWrite
   try extract_lets
   repeat' split
   all_goals (try simp +zetaDelta))

/-! ### Machine/Command.lean -/

@[simp ↓] theorem modTxn_keep (s : State) (id : Nat) (f : Txn → Txn) : (modTxn s id f).otp = s.otp ∧ (modTxn s id f).pending = s.pending := by
  constructor <;>
  (unfold modTxn
   try extract_lets
   repeat' split
   all_goals (try simp +zetaDelta))

@[simp ↓] theorem addMember_keep (s : State) (id : Nat) (m : Member) (failed : Bool) : (addMember s id m failed).otp = s.otp ∧ (addMember s id m failed).pending = s.pending := by
  constructor <;>
  (unfold addMember
   try extract_lets
   repeat' split
   all_goals (try simp +zetaDelta))

@[simp ↓] theorem failMember_keep (s : State) (h : CmdHdr) (op : Nat) (w : List Word) (st : Nat) : (failMember s h op w st).otp = s.otp ∧ (failMember s h op w st).pending = s.pending := by
  constructor <;>
  (unfold failMember
   try extract_lets
   repeat' split
   all_goals (try simp +zetaDelta))

@[simp ↓] theorem accessErr_keep (s : State) (target : Nat) : (accessErr s target).otp = s.otp ∧ (accessErr s target).pending = s.pending := by
  constructor <;>
  (unfold accessErr
   try extract_lets
   repeat' split
   all_goals (try simp +zetaDelta))

theorem busError_keep {s e : State} {b : Blk} (h : busError s b = some e) : e.otp = s.otp ∧ e.pending = s.pending := by
  unfold busError at h
  repeat' split at h
  all_goals simp at h
  all_goals subst h; simp

theorem busWrite_otp {s : State} {a : Nat} {f : State → State} (hf : ∀ s, (f s).otp = s.otp) : (busWrite s a f).otp = s.otp := by
  unfold busWrite
  cases h : busError s (blkOf a) with
  | none => simp only []; split; exact hf s; rfl
  | some e => simp only [(busError_keep h).1]

theorem busWrite_pending {s : State} {a : Nat} {f : State → State} (hf : ∀ s, (f s).pending = s.pending) : (busWrite s a f).pending = s.pending := by
  unfold busWrite
  cases h : busError s (blkOf a) with
  | none => simp only []; split; exact hf s; rfl
  | some e => simp only [(busError_keep h).2]

theorem busRead_otp {s : State} {a : Nat} {f : State → State} (hf : ∀ s, (f s).otp = s.otp) : (busRead s a f).otp = s.otp := by
  unfold busRead
  cases h : busError s (blkOf a) with
  | none => simp only []; split; exact hf s; rfl
  | some e => simp only [ite_otp, (emit_keep e _).1, (busError_keep h).1, ite_self]

theorem busRead_pending {s : State} {a : Nat} {f : State → State} (hf : ∀ s, (f s).pending = s.pending) : (busRead s a f).pending = s.pending := by
  unfold busRead
  cases h : busError s (blkOf a) with
  | none => simp only []; split; exact hf s; rfl
  | some e => simp only [ite_pending, (emit_keep e _).2, (busError_keep h).2, ite_self]

@[simp ↓] theorem ctlAdd_keep (s : State) (p c : Nat) (f : CtlFrame) : (ctlAdd s p c f).otp = s.otp ∧ (ctlAdd s p c f).pending = s.pending := by
  constructor <;>
  (unfold ctlAdd
   try extract_lets
   repeat' split
   all_goals (try simp +zetaDelta)
   all_goals (repeat' split)
   all_goals (try simp +zetaDelta))

@[simp ↓] theorem ctlPutTs_keep (s : State) (p c : Nat) (f : List Byte) (ts : Option Nat) : (ctlPutTs s p c f ts).otp = s.otp ∧ (ctlPutTs s p c f ts).pending = s.pending := by
  constructor <;>
  (unfold ctlPutTs
   try extract_lets
   repeat' split
   all_goals (try simp +zetaDelta))

@[simp ↓] theorem ctlPut_keep (s : State) (p c : Nat) (f : List Byte) : (ctlPut s p c f).otp = s.otp ∧ (ctlPut s p c f).pending = s.pending := by
  constructor <;>
  (unfold ctlPut
   try extract_lets
   repeat' split
   all_goals (try simp +zetaDelta))

@[simp ↓] theorem hyithPut_keep (s : State) (u origin hops : Nat) (pk : List Byte) (cmd : Option (List Nat)) : (hyithPut s u origin hops pk cmd).otp = s.otp ∧ (hyithPut s u origin hops pk cmd).pending = s.pending := by
  constructor <;>
  (unfold hyithPut
   try extract_lets
   repeat' split
   all_goals (try simp +zetaDelta)
   all_goals (repeat' split)
   all_goals (try simp +zetaDelta))

@[simp ↓] theorem hyithSend_keep (s : State) (u origin hops : Nat) (pk : List Byte) : (hyithSend s u origin hops pk).otp = s.otp ∧ (hyithSend s u origin hops pk).pending = s.pending := by
  constructor <;>
  (unfold hyithSend
   try extract_lets
   repeat' split
   all_goals (try simp +zetaDelta))

@[simp ↓] theorem rplPut_keep (s : State) (pk : List Word) : (rplPut s pk).otp = s.otp ∧ (rplPut s pk).pending = s.pending := by
  constructor <;>
  (unfold rplPut
   try extract_lets
   repeat' split
   all_goals (try simp +zetaDelta))

@[simp ↓] theorem traceCmd_keep (s : State) (a : List Nat) : (traceCmd s a).otp = s.otp ∧ (traceCmd s a).pending = s.pending := by
  constructor <;>
  (unfold traceCmd
   try extract_lets
   repeat' split
   all_goals (try simp +zetaDelta)
   all_goals (repeat' split)
   all_goals (try simp +zetaDelta))

@[simp ↓] theorem traceFirst_keep (s : State) (cmd : Option (List Nat)) : (traceFirst s cmd).otp = s.otp ∧ (traceFirst s cmd).pending = s.pending := by
  constructor <;>
  (unfold traceFirst
   try extract_lets
   repeat' split
   all_goals (try simp +zetaDelta)
   all_goals (repeat' split)
   all_goals (try simp +zetaDelta))

@[simp ↓] theorem deliver_keep (s : State) (h : CmdHdr) (op : Nat) (r : Reply) : (deliver s h op r).otp = s.otp ∧ (deliver s h op r).pending = s.pending := by
  constructor <;>
  (unfold deliver
   try extract_lets
   repeat' split
   all_goals (try simp +zetaDelta)
   all_goals (repeat' split)
   all_goals (try simp +zetaDelta))

@[simp ↓] theorem routePacket_keep (s : State) (h : CmdHdr) (op : Nat) (hops : Nat) (pk : List Byte) : (routePacket s h op hops pk).otp = s.otp ∧ (routePacket s h op hops pk).pending = s.pending := by
  constructor <;>
  (unfold routePacket
   try extract_lets
   repeat' split
   all_goals (try simp +zetaDelta)
   all_goals (repeat' split)
   all_goals (try simp +zetaDelta))

@[simp ↓] theorem authEvent_keep (s : State) (op : Nat) (r : Reply) : (authEvent s op r).otp = s.otp ∧ (authEvent s op r).pending = s.pending := by
  constructor <;>
  (unfold authEvent
   try extract_lets
   repeat' split
   all_goals (try simp +zetaDelta))

@[simp ↓] theorem gateCmd_keep (s : State) (h : CmdHdr) (op : Nat) (w : List Word) : (gateCmd s h op w).1.otp = s.otp ∧ (gateCmd s h op w).1.pending = s.pending := by
  constructor <;>
  (unfold gateCmd
   try extract_lets
   repeat' split
   all_goals (try simp +zetaDelta))

theorem runCmd_keep (s : State) (h : CmdHdr) (op : Nat) (w : List Word) (b : Body)
    (hb : ∀ h w s, (b h w s).1.otp = s.otp ∧ (b h w s).1.pending = s.pending) :
    (runCmd s h op w b).otp = s.otp ∧ (runCmd s h op w b).pending = s.pending := by
  constructor <;> (unfold runCmd; simp [hb])

theorem runLater_keep (s : State) (h : CmdHdr) (op : Nat) (w : List Word) (b : CmdHdr → List Word → State → State × Option Reply)
    (hb : ∀ h w s, (b h w s).1.otp = s.otp ∧ (b h w s).1.pending = s.pending) :
    (runLater s h op w b).otp = s.otp ∧ (runLater s h op w b).pending = s.pending := by
  constructor <;>
  (unfold runLater
   try extract_lets
   repeat' split
   try extract_lets
   repeat' split
   all_goals simp +zetaDelta [hb])

/-! ### Machine/TxnOp.lean -/

/-- A transaction operation whose effect and rollback leave OTP and the queue as they are. -/
structure TxnOk (f : TxnOp) : Prop where
  app : ∀ {h w c s a}, f.apply h w c s = .ok a → a.s.otp = s.otp ∧ a.s.pending = s.pending
  und : ∀ h w n m s, (f.undo h w n m s).1.otp = s.otp ∧ (f.undo h w n m s).1.pending = s.pending

@[simp ↓] theorem prepareMember_keep (op : Nat) (f : TxnOp) (h : CmdHdr) (w : List Word) (s : State) (t : Txn) : (prepareMember op f h w s t).1.otp = s.otp ∧ (prepareMember op f h w s t).1.pending = s.pending := by
  constructor <;>
  (unfold prepareMember
   try extract_lets
   repeat' split
   all_goals (try simp +zetaDelta))

theorem soloTxn_keep (op : Nat) (f : TxnOp) (h : CmdHdr) (w : List Word) (s : State) :
    (soloTxn op f h w s).1.otp = s.otp ∧ (soloTxn op f h w s).1.pending = s.pending := by
  constructor <;>
  (unfold soloTxn
   try extract_lets
   repeat' split
   try extract_lets
   repeat' split
   all_goals simp +zetaDelta)

theorem bodyTxn_keep (op : Nat) (f : TxnOp) (_ : TxnOk f) (h : CmdHdr) (w : List Word) (s : State) :
    (bodyTxn op f h w s).1.otp = s.otp ∧ (bodyTxn op f h w s).1.pending = s.pending := by
  unfold bodyTxn
  repeat' split
  all_goals first | exact soloTxn_keep op f h w s | simp

theorem bodyJoin_keep (op : Nat) (f : TxnOp) (hf : TxnOk f) (h : CmdHdr) (w : List Word) (s : State) :
    (bodyJoin op f h w s).1.otp = s.otp ∧ (bodyJoin op f h w s).1.pending = s.pending := by
  constructor <;>
  (unfold bodyJoin
   try extract_lets
   repeat' split
   try extract_lets
   repeat' split
   all_goals first
     | (rename_i a ha; have := hf.app ha; simp +zetaDelta [this])
     | simp +zetaDelta)

/-! ### Machine/Pulse.lean -/

@[simp ↓] theorem setPulse_keep (s : State) (u : Nat) (p : Pulse) : (setPulse s u p).otp = s.otp ∧ (setPulse s u p).pending = s.pending := by
  constructor <;>
  (unfold setPulse
   try extract_lets
   repeat' split
   all_goals (try simp +zetaDelta))

@[simp ↓] theorem showPins_keep (s t : State) : (showPins s t).otp = t.otp ∧ (showPins s t).pending = t.pending := by
  unfold showPins
  exact ⟨foldl_otp _ (fun u k => by split <;> simp) _ _, foldl_pending _ (fun u k => by split <;> simp) _ _⟩

@[simp ↓] theorem pulseEvent_keep (s : State) (u : Nat) (b : Bool) : (pulseEvent s u b).otp = s.otp ∧ (pulseEvent s u b).pending = s.pending := by
  constructor <;>
  (unfold pulseEvent
   try extract_lets
   repeat' split
   all_goals (try simp +zetaDelta))

@[simp ↓] theorem bodyPulseSet_keep (x0 : CmdHdr) (w : List Word) (s : State) : (bodyPulseSet x0 w s).1.otp = s.otp ∧ (bodyPulseSet x0 w s).1.pending = s.pending := by
  constructor <;>
  (unfold bodyPulseSet
   try extract_lets
   repeat' split
   all_goals (try simp +zetaDelta)
   all_goals (repeat' split)
   all_goals (try simp +zetaDelta))

@[simp ↓] theorem bodyPulseStop_keep (x0 : CmdHdr) (w : List Word) (s : State) : (bodyPulseStop x0 w s).1.otp = s.otp ∧ (bodyPulseStop x0 w s).1.pending = s.pending := by
  constructor <;>
  (unfold bodyPulseStop
   try extract_lets
   repeat' split
   all_goals (try simp +zetaDelta))

@[simp ↓] theorem pulseLead_keep (s : State) (u : Nat) : (pulseLead s u).otp = s.otp ∧ (pulseLead s u).pending = s.pending := by
  constructor <;>
  (unfold pulseLead
   try extract_lets
   repeat' split
   all_goals (try simp +zetaDelta))

@[simp ↓] theorem pulseTrail_keep (s : State) (u e : Nat) : (pulseTrail s u e).otp = s.otp ∧ (pulseTrail s u e).pending = s.pending := by
  constructor <;>
  (unfold pulseTrail
   try extract_lets
   repeat' split
   all_goals (try simp +zetaDelta))

@[simp ↓] theorem execPulseEdge_keep (u : Nat) (s : State) : OutKeeps s (execPulseEdge u s) := by
  unfold execPulseEdge
  try extract_lets
  apply OutKeeps.mk
  constructor <;>
  (repeat' split
   all_goals (try simp +zetaDelta))

@[simp ↓] theorem pulseReanchor_keep (d : Int) (s : State) (u : Nat) : (pulseReanchor d s u).otp = s.otp ∧ (pulseReanchor d s u).pending = s.pending := by
  constructor <;>
  (unfold pulseReanchor
   try extract_lets
   repeat' split
   all_goals (try simp +zetaDelta))

@[simp ↓] theorem bodyPinRouteSet_keep (x0 : CmdHdr) (w : List Word) (s : State) : (bodyPinRouteSet x0 w s).1.otp = s.otp ∧ (bodyPinRouteSet x0 w s).1.pending = s.pending := by
  constructor <;>
  (unfold bodyPinRouteSet
   try extract_lets
   repeat' split
   all_goals (try simp +zetaDelta))

@[simp ↓] theorem modCapture_keep (s : State) (c : Nat) (f : Capture → Capture) : (modCapture s c f).otp = s.otp ∧ (modCapture s c f).pending = s.pending := by
  constructor <;>
  (unfold modCapture
   try extract_lets
   repeat' split
   all_goals (try simp +zetaDelta))

@[simp ↓] theorem bodyCaptureSet_keep (x0 : CmdHdr) (w : List Word) (s : State) : (bodyCaptureSet x0 w s).1.otp = s.otp ∧ (bodyCaptureSet x0 w s).1.pending = s.pending := by
  constructor <;>
  (unfold bodyCaptureSet
   try extract_lets
   repeat' split
   all_goals (try simp +zetaDelta))

@[simp ↓] theorem ppsSample_keep (s : State) (t16 : Nat) : (ppsSample s t16).otp = s.otp ∧ (ppsSample s t16).pending = s.pending := by
  constructor <;>
  (unfold ppsSample
   try extract_lets
   repeat' split
   all_goals (try simp +zetaDelta))

@[simp ↓] theorem capturePut_keep (s : State) (c : Nat) (falling : Bool) (t16 : Nat) : (capturePut s c falling t16).otp = s.otp ∧ (capturePut s c falling t16).pending = s.pending := by
  constructor <;>
  (unfold capturePut
   try extract_lets
   repeat' split
   all_goals (try simp +zetaDelta))

@[simp ↓] theorem execCaptureEdge_keep (c : Nat) (falling : Bool) (t16 : Nat) (s : State) : OutKeeps s (execCaptureEdge c falling t16 s) := by
  unfold execCaptureEdge
  try extract_lets
  apply OutKeeps.mk
  constructor <;>
  (repeat' split
   all_goals (try simp +zetaDelta))

@[simp ↓] theorem execCapNsRead_keep (c : Nat) (s : State) : OutKeeps s (execCapNsRead c s) := by
  unfold execCapNsRead
  try extract_lets
  apply OutKeeps.mk
  constructor <;>
  (repeat' split
   all_goals (try first | refine busWrite_otp fun s => ?_ | refine busWrite_pending fun s => ?_ | refine busRead_otp fun s => ?_ | refine busRead_pending fun s => ?_ | refine bar2Write_otp fun s => ?_ | refine bar2Write_pending fun s => ?_ | refine (foldl_otp _ (fun s a => ?_) _ _).trans ?_ | refine (foldl_pending _ (fun s a => ?_) _ _).trans ?_)
   all_goals (repeat' split)
   all_goals (try simp +zetaDelta)
   all_goals (try first | refine busWrite_otp fun s => ?_ | refine busWrite_pending fun s => ?_ | refine busRead_otp fun s => ?_ | refine busRead_pending fun s => ?_ | refine bar2Write_otp fun s => ?_ | refine bar2Write_pending fun s => ?_ | refine (foldl_otp _ (fun s a => ?_) _ _).trans ?_ | refine (foldl_pending _ (fun s a => ?_) _ _).trans ?_)
   all_goals (repeat' split)
   all_goals (try simp +zetaDelta))

@[simp ↓] theorem execPulseSet_keep (h : CmdHdr) (w : List Word) (s : State) : OutKeeps s (execPulseSet h w s) :=
  OutKeeps.mk (runCmd_keep _ _ _ _ _ (bodyPulseSet_keep))

@[simp ↓] theorem execPulseStop_keep (h : CmdHdr) (w : List Word) (s : State) : OutKeeps s (execPulseStop h w s) :=
  OutKeeps.mk (runCmd_keep _ _ _ _ _ (bodyPulseStop_keep))

@[simp ↓] theorem execPinRouteSet_keep (h : CmdHdr) (w : List Word) (s : State) : OutKeeps s (execPinRouteSet h w s) :=
  OutKeeps.mk (runCmd_keep _ _ _ _ _ (bodyPinRouteSet_keep))

@[simp ↓] theorem execCaptureSet_keep (h : CmdHdr) (w : List Word) (s : State) : OutKeeps s (execCaptureSet h w s) :=
  OutKeeps.mk (runCmd_keep _ _ _ _ _ (bodyCaptureSet_keep))

/-! ### Machine/Time.lean -/

@[simp ↓] theorem timeTick_keep (s : State) : (timeTick s).otp = s.otp ∧ (timeTick s).pending = s.pending := by
  constructor <;>
  (unfold timeTick
   try extract_lets
   repeat' split
   all_goals (try simp +zetaDelta))

@[simp ↓] theorem setTState_keep (s : State) (n : TState) (stepped : Bool) : (setTState s n stepped).otp = s.otp ∧ (setTState s n stepped).pending = s.pending := by
  constructor <;>
  (unfold setTState
   try extract_lets
   repeat' split
   all_goals (try simp +zetaDelta))

@[simp ↓] theorem traceAxis_keep (s : State) (a o : Nat) : (traceAxis s a o).otp = s.otp ∧ (traceAxis s a o).pending = s.pending := by
  constructor <;>
  (unfold traceAxis
   try extract_lets
   repeat' split
   all_goals (try simp +zetaDelta))

@[simp ↓] theorem bodyTimeQuery_keep (x0 : CmdHdr) (x1 : List Word) (s : State) : (bodyTimeQuery x0 x1 s).1.otp = s.otp ∧ (bodyTimeQuery x0 x1 s).1.pending = s.pending := by
  constructor <;>
  (unfold bodyTimeQuery
   try extract_lets
   repeat' split
   all_goals (try simp +zetaDelta))

@[simp ↓] theorem bodyTimeRateSet_keep (x0 : CmdHdr) (w : List Word) (s : State) : (bodyTimeRateSet x0 w s).1.otp = s.otp ∧ (bodyTimeRateSet x0 w s).1.pending = s.pending := by
  constructor <;>
  (unfold bodyTimeRateSet
   try extract_lets
   repeat' split
   all_goals (try simp +zetaDelta))

@[simp ↓] theorem bodyTimeLinkSet_keep (h : CmdHdr) (w : List Word) (s : State) : (bodyTimeLinkSet h w s).1.otp = s.otp ∧ (bodyTimeLinkSet h w s).1.pending = s.pending := by
  constructor <;>
  (unfold bodyTimeLinkSet
   try extract_lets
   repeat' split
   all_goals (try simp +zetaDelta))

@[simp ↓] theorem bodyTimePortSet_keep (h : CmdHdr) (w : List Word) (s : State) : (bodyTimePortSet h w s).1.otp = s.otp ∧ (bodyTimePortSet h w s).1.pending = s.pending := by
  constructor <;>
  (unfold bodyTimePortSet
   try extract_lets
   repeat' split
   all_goals (try simp +zetaDelta))

@[simp ↓] theorem tsGap_keep (s : State) (p : Nat) : (tsGap s p).otp = s.otp ∧ (tsGap s p).pending = s.pending := by
  constructor <;>
  (unfold tsGap
   try extract_lets
   repeat' split
   all_goals (try simp +zetaDelta))

@[simp ↓] theorem tsRecord_keep (s : State) (p : Nat) (x : TsRec) : (tsRecord s p x).otp = s.otp ∧ (tsRecord s p x).pending = s.pending := by
  constructor <;>
  (unfold tsRecord
   try extract_lets
   repeat' split
   all_goals (try simp +zetaDelta))

@[simp ↓] theorem plainTsTailWrite_keep (p : Nat) (v : BitVec 7) (s : State) : OutKeeps s (plainTsTailWrite p v s) := by
  refine OutKeeps.mk ⟨busWrite_otp fun s => ?_, busWrite_pending fun s => ?_⟩
  all_goals
    dsimp only
    repeat' split
    all_goals first | rfl | simp

@[simp ↓] theorem bodyTsringSet_keep (h : CmdHdr) (w : List Word) (s : State) : (bodyTsringSet h w s).1.otp = s.otp ∧ (bodyTsringSet h w s).1.pending = s.pending := by
  constructor <;>
  (unfold bodyTsringSet
   try extract_lets
   repeat' split
   all_goals (try simp +zetaDelta))

@[simp ↓] theorem execNowNsRead_keep (s : State) : OutKeeps s (execNowNsRead s) := by
  unfold execNowNsRead
  try extract_lets
  apply OutKeeps.mk
  constructor <;>
  (repeat' split
   all_goals (try first | refine busWrite_otp fun s => ?_ | refine busWrite_pending fun s => ?_ | refine busRead_otp fun s => ?_ | refine busRead_pending fun s => ?_ | refine bar2Write_otp fun s => ?_ | refine bar2Write_pending fun s => ?_ | refine (foldl_otp _ (fun s a => ?_) _ _).trans ?_ | refine (foldl_pending _ (fun s a => ?_) _ _).trans ?_)
   all_goals (repeat' split)
   all_goals (try simp +zetaDelta)
   all_goals (try first | refine busWrite_otp fun s => ?_ | refine busWrite_pending fun s => ?_ | refine busRead_otp fun s => ?_ | refine busRead_pending fun s => ?_ | refine bar2Write_otp fun s => ?_ | refine bar2Write_pending fun s => ?_ | refine (foldl_otp _ (fun s a => ?_) _ _).trans ?_ | refine (foldl_pending _ (fun s a => ?_) _ _).trans ?_)
   all_goals (repeat' split)
   all_goals (try simp +zetaDelta))

@[simp ↓] theorem execTimeQuery_keep (h : CmdHdr) (w : List Word) (s : State) : OutKeeps s (execTimeQuery h w s) :=
  OutKeeps.mk (runCmd_keep _ _ _ _ _ (bodyTimeQuery_keep))

@[simp ↓] theorem execTimeRateSet_keep (h : CmdHdr) (w : List Word) (s : State) : OutKeeps s (execTimeRateSet h w s) :=
  OutKeeps.mk (runCmd_keep _ _ _ _ _ (bodyTimeRateSet_keep))

@[simp ↓] theorem execTimeLinkSet_keep (h : CmdHdr) (w : List Word) (s : State) : OutKeeps s (execTimeLinkSet h w s) :=
  OutKeeps.mk (runCmd_keep _ _ _ _ _ (bodyTimeLinkSet_keep))

@[simp ↓] theorem execTimePortSet_keep (h : CmdHdr) (w : List Word) (s : State) : OutKeeps s (execTimePortSet h w s) :=
  OutKeeps.mk (runCmd_keep _ _ _ _ _ (bodyTimePortSet_keep))

@[simp ↓] theorem execTsringSet_keep (h : CmdHdr) (w : List Word) (s : State) : OutKeeps s (execTsringSet h w s) :=
  OutKeeps.mk (runCmd_keep _ _ _ _ _ (bodyTsringSet_keep))

end Sys2Proof.Machine
end

