-- ==== Sys2Proof/Laws/KeepPort.lean ====
section
/-! SUPPORT. What the operations and the meanings of CourseCfg, Gates, Buffer, Link, Valve, Record, Image leave as they are: the OTP and the queue of waiting commands. -/

set_option linter.unusedTactic false
set_option linter.unreachableTactic false
set_option linter.unusedVariables false
set_option linter.unusedSimpArgs false
set_option linter.unnecessarySeqFocus false

namespace Sys2Proof.Machine

/-! ### Machine/CourseCfg.lean -/

@[simp ↓] theorem bodyCourseSet_keep (h : CmdHdr) (w : List Word) (s : State) : (bodyCourseSet h w s).1.otp = s.otp ∧ (bodyCourseSet h w s).1.pending = s.pending := by
  constructor <;>
  (unfold bodyCourseSet
   try extract_lets
   repeat' split
   all_goals (try simp +zetaDelta))

@[simp ↓] theorem writeBank_keep (s : State) (p k : Nat) (b : Bank) : (writeBank s p k b).1.otp = s.otp ∧ (writeBank s p k b).1.pending = s.pending := by
  constructor <;>
  (unfold writeBank
   try extract_lets
   repeat' split
   all_goals (try simp +zetaDelta))

@[simp ↓] theorem bodyBondWrite_keep (h : CmdHdr) (w : List Word) (s : State) : (bodyBondWrite h w s).1.otp = s.otp ∧ (bodyBondWrite h w s).1.pending = s.pending := by
  constructor <;>
  (unfold bodyBondWrite
   try extract_lets
   repeat' split
   all_goals (try simp +zetaDelta))

@[simp ↓] theorem bodyFrameSet_keep (h : CmdHdr) (w : List Word) (s : State) : (bodyFrameSet h w s).1.otp = s.otp ∧ (bodyFrameSet h w s).1.pending = s.pending := by
  constructor <;>
  (unfold bodyFrameSet
   try extract_lets
   repeat' split
   all_goals (try simp +zetaDelta))

@[simp ↓] theorem bodySafeImageWrite_keep (h : CmdHdr) (w : List Word) (s : State) : (bodySafeImageWrite h w s).1.otp = s.otp ∧ (bodySafeImageWrite h w s).1.pending = s.pending := by
  constructor <;>
  (unfold bodySafeImageWrite
   try extract_lets
   repeat' split
   all_goals (try simp +zetaDelta))

@[simp ↓] theorem bodyCourseLineSet_keep (x0 : CmdHdr) (w : List Word) (s : State) : (bodyCourseLineSet x0 w s).1.otp = s.otp ∧ (bodyCourseLineSet x0 w s).1.pending = s.pending := by
  constructor <;>
  (unfold bodyCourseLineSet
   try extract_lets
   repeat' split
   all_goals (try simp +zetaDelta))

@[simp ↓] theorem bodyCourseQuery_keep (h : CmdHdr) (w : List Word) (s : State) : (bodyCourseQuery h w s).1.otp = s.otp ∧ (bodyCourseQuery h w s).1.pending = s.pending := by
  constructor <;>
  (unfold bodyCourseQuery
   try extract_lets
   repeat' split
   all_goals (try simp +zetaDelta))

@[simp ↓] theorem execCourseQuery_keep (h : CmdHdr) (w : List Word) (s : State) : OutKeeps s (execCourseQuery h w s) :=
  OutKeeps.mk (runCmd_keep _ _ _ _ _ (bodyCourseQuery_keep))

@[simp ↓] theorem execCourseSet_keep (h : CmdHdr) (w : List Word) (s : State) : OutKeeps s (execCourseSet h w s) :=
  OutKeeps.mk (runCmd_keep _ _ _ _ _ (bodyCourseSet_keep))

@[simp ↓] theorem execBondWrite_keep (h : CmdHdr) (w : List Word) (s : State) : OutKeeps s (execBondWrite h w s) :=
  OutKeeps.mk (runCmd_keep _ _ _ _ _ (bodyBondWrite_keep))

@[simp ↓] theorem execFrameSet_keep (h : CmdHdr) (w : List Word) (s : State) : OutKeeps s (execFrameSet h w s) :=
  OutKeeps.mk (runCmd_keep _ _ _ _ _ (bodyFrameSet_keep))

@[simp ↓] theorem execSafeImageWrite_keep (h : CmdHdr) (w : List Word) (s : State) : OutKeeps s (execSafeImageWrite h w s) :=
  OutKeeps.mk (runCmd_keep _ _ _ _ _ (bodySafeImageWrite_keep))

@[simp ↓] theorem execCourseLineSet_keep (h : CmdHdr) (w : List Word) (s : State) : OutKeeps s (execCourseLineSet h w s) :=
  OutKeeps.mk (runCmd_keep _ _ _ _ _ (bodyCourseLineSet_keep))

/-! ### Machine/Buffer.lean -/

@[simp ↓] theorem setQcfg_keep (s : State) (q : Nat) (c : QCfg) : (setQcfg s q c).otp = s.otp ∧ (setQcfg s q c).pending = s.pending := by
  constructor <;>
  (unfold setQcfg
   try extract_lets
   repeat' split
   all_goals (try simp +zetaDelta))

@[simp ↓] theorem setQdyn_keep (s : State) (q : Nat) (d : QDyn) : (setQdyn s q d).otp = s.otp ∧ (setQdyn s q d).pending = s.pending := by
  constructor <;>
  (unfold setQdyn
   try extract_lets
   repeat' split
   all_goals (try simp +zetaDelta))

@[simp ↓] theorem setSvc_keep (s : State) (p k : Nat) (c : SvcCfg) : (setSvc s p k c).otp = s.otp ∧ (setSvc s p k c).pending = s.pending := by
  constructor <;>
  (unfold setSvc
   try extract_lets
   repeat' split
   all_goals (try simp +zetaDelta))

@[simp ↓] theorem setSvcDyn_keep (s : State) (p k : Nat) (d : SvcDyn) : (setSvcDyn s p k d).otp = s.otp ∧ (setSvcDyn s p k d).pending = s.pending := by
  constructor <;>
  (unfold setSvcDyn
   try extract_lets
   repeat' split
   all_goals (try simp +zetaDelta))

@[simp ↓] theorem setCopies_keep (s : State) (q : Nat) (l : List Copy) : (setCopies s q l).otp = s.otp ∧ (setCopies s q l).pending = s.pending := by
  constructor <;>
  (unfold setCopies
   try extract_lets
   repeat' split
   all_goals (try simp +zetaDelta))

@[simp ↓] theorem setFrame_keep (s : State) (k : Nat) (f : Frame) : (setFrame s k f).otp = s.otp ∧ (setFrame s k f).pending = s.pending := by
  constructor <;>
  (unfold setFrame
   try extract_lets
   repeat' split
   all_goals (try simp +zetaDelta))

@[simp ↓] theorem meterSvc_keep (s : State) (p k len : Nat) (dei : Bool) : (meterSvc s p k len dei).1.otp = s.otp ∧ (meterSvc s p k len dei).1.pending = s.pending := by
  constructor <;>
  (unfold meterSvc
   try extract_lets
   repeat' split
   all_goals (try simp +zetaDelta))

@[simp ↓] theorem sendPause_keep (s : State) (p c t : Nat) : (sendPause s p c t).otp = s.otp ∧ (sendPause s p c t).pending = s.pending := by
  constructor <;>
  (unfold sendPause
   try extract_lets
   repeat' split
   all_goals (try simp +zetaDelta))

@[simp ↓] theorem armRefresh_keep (s : State) (p c : Nat) : (armRefresh s p c).otp = s.otp ∧ (armRefresh s p c).pending = s.pending := by
  constructor <;>
  (unfold armRefresh
   try extract_lets
   repeat' split
   all_goals (try simp +zetaDelta))

@[simp ↓] theorem acctUpdate_keep (s : State) (p c : Nat) : (acctUpdate s p c).otp = s.otp ∧ (acctUpdate s p c).pending = s.pending := by
  constructor <;>
  (unfold acctUpdate
   try extract_lets
   repeat' split
   all_goals (try simp +zetaDelta))

@[simp ↓] theorem acctFrame_keep (s : State) (f : Frame) : (acctFrame s f).otp = s.otp ∧ (acctFrame s f).pending = s.pending := by
  constructor <;>
  (unfold acctFrame
   try extract_lets
   repeat' split
   all_goals (try simp +zetaDelta))

@[simp ↓] theorem acctAll_keep (s : State) : (acctAll s).otp = s.otp ∧ (acctAll s).pending = s.pending := by
  constructor <;>
  (unfold acctAll
   try extract_lets
   repeat' split
   all_goals (try simp +zetaDelta))

@[simp ↓] theorem updateSpilling_keep (s : State) (d : Nat) : (updateSpilling s d).otp = s.otp ∧ (updateSpilling s d).pending = s.pending := by
  constructor <;>
  (unfold updateSpilling
   try extract_lets
   repeat' split
   all_goals (try simp +zetaDelta))

@[simp ↓] theorem clearService_keep (s : State) (p k : Nat) : (clearService s p k).otp = s.otp ∧ (clearService s p k).pending = s.pending := by
  constructor <;>
  (unfold clearService
   try extract_lets
   repeat' split
   all_goals (try simp +zetaDelta))

@[simp ↓] theorem clearQueue_keep (s : State) (q : Nat) : (clearQueue s q).otp = s.otp ∧ (clearQueue s q).pending = s.pending := by
  constructor <;>
  (unfold clearQueue
   try extract_lets
   repeat' split
   all_goals (try simp +zetaDelta))

@[simp ↓] theorem releaseFrame_keep (s : State) (c : Copy) : (releaseFrame s c).otp = s.otp ∧ (releaseFrame s c).pending = s.pending := by
  constructor <;>
  (unfold releaseFrame
   try extract_lets
   repeat' split
   all_goals (try simp +zetaDelta))

@[simp ↓] theorem dropCopy_keep (s : State) (q : Nat) (c : Copy) : (dropCopy s q c).otp = s.otp ∧ (dropCopy s q c).pending = s.pending := by
  constructor <;>
  (unfold dropCopy
   try extract_lets
   repeat' split
   all_goals (try simp +zetaDelta))

@[simp ↓] theorem putCopy_keep (s : State) (q : Nat) (c : Copy) : (putCopy s q c).otp = s.otp ∧ (putCopy s q c).pending = s.pending := by
  constructor <;>
  (unfold putCopy
   try extract_lets
   repeat' split
   all_goals (try simp +zetaDelta))

@[simp ↓] theorem unwait_keep (s : State) (q k : Nat) : (unwait s q k).otp = s.otp ∧ (unwait s q k).pending = s.pending := by
  constructor <;>
  (unfold unwait
   try extract_lets
   repeat' split
   all_goals (try simp +zetaDelta))

@[simp ↓] theorem flushQueue_keep (s : State) (q : Nat) : (flushQueue s q).otp = s.otp ∧ (flushQueue s q).pending = s.pending := by
  constructor <;>
  (unfold flushQueue
   try extract_lets
   repeat' split
   all_goals (try first | refine busWrite_otp fun s => ?_ | refine busWrite_pending fun s => ?_ | refine busRead_otp fun s => ?_ | refine busRead_pending fun s => ?_ | refine bar2Write_otp fun s => ?_ | refine bar2Write_pending fun s => ?_ | refine (foldl_otp _ (fun s a => ?_) _ _).trans ?_ | refine (foldl_pending _ (fun s a => ?_) _ _).trans ?_)
   all_goals (repeat' split)
   all_goals (try simp +zetaDelta)
   all_goals (try first | refine busWrite_otp fun s => ?_ | refine busWrite_pending fun s => ?_ | refine busRead_otp fun s => ?_ | refine busRead_pending fun s => ?_ | refine bar2Write_otp fun s => ?_ | refine bar2Write_pending fun s => ?_ | refine (foldl_otp _ (fun s a => ?_) _ _).trans ?_ | refine (foldl_pending _ (fun s a => ?_) _ _).trans ?_)
   all_goals (repeat' split)
   all_goals (try simp +zetaDelta))

@[simp ↓] theorem dropAt_keep (s : State) (p k o n : Nat) : (dropAt s p k o n).otp = s.otp ∧ (dropAt s p k o n).pending = s.pending := by
  constructor <;>
  (unfold dropAt
   try extract_lets
   repeat' split
   all_goals (try simp +zetaDelta))

@[simp ↓] theorem discardQueue_keep (s : State) (q : Nat) : (discardQueue s q).otp = s.otp ∧ (discardQueue s q).pending = s.pending := by
  constructor <;>
  (unfold discardQueue
   try extract_lets
   repeat' split
   all_goals (try simp +zetaDelta))

@[simp ↓] theorem tmEvent_keep (s : State) (d q b : Nat) : (tmEvent s d q b).otp = s.otp ∧ (tmEvent s d q b).pending = s.pending := by
  constructor <;>
  (unfold tmEvent
   try extract_lets
   repeat' split
   all_goals (try simp +zetaDelta))

@[simp ↓] theorem placeCopy_keep (s : State) (q k : Nat) (f : Frame) (c : Copy) : (placeCopy s q k f c).otp = s.otp ∧ (placeCopy s q k f c).pending = s.pending := by
  constructor <;>
  (unfold placeCopy
   try extract_lets
   repeat' split
   all_goals (try simp +zetaDelta)
   all_goals (repeat' split)
   all_goals (try simp +zetaDelta))

@[simp ↓] theorem admitCopy_keep (s : State) (q k : Nat) (f : Frame) (c : Copy) (len : Nat) (dei : Bool) : (admitCopy s q k f c len dei).otp = s.otp ∧ (admitCopy s q k f c len dei).pending = s.pending := by
  constructor <;>
  (unfold admitCopy
   try extract_lets
   repeat' split
   all_goals (try simp +zetaDelta))

/-! ### Machine/Link.lean -/

@[simp ↓] theorem holdComes_keep (s : State) (p : Nat) : (holdComes s p).otp = s.otp ∧ (holdComes s p).pending = s.pending := by
  constructor <;>
  (unfold holdComes
   try extract_lets
   repeat' split
   all_goals (try simp +zetaDelta))

@[simp ↓] theorem holdMove_keep (h0 : Bool) (s : State) (p : Nat) : (holdMove h0 s p).otp = s.otp ∧ (holdMove h0 s p).pending = s.pending := by
  constructor <;>
  (unfold holdMove
   try extract_lets
   repeat' split
   all_goals (try simp +zetaDelta))

@[simp ↓] theorem gateMove_keep (h0 : Bool) (g0 : Nat) (s : State) (p : Nat) : (gateMove h0 g0 s p).otp = s.otp ∧ (gateMove h0 g0 s p).pending = s.pending := by
  constructor <;>
  (unfold gateMove
   try extract_lets
   repeat' split
   all_goals (try simp +zetaDelta))

@[simp ↓] theorem gateEdge_keep (s0 s : State) (p t : Nat) : (gateEdge s0 s p t).otp = s.otp ∧ (gateEdge s0 s p t).pending = s.pending := by
  constructor <;>
  (unfold gateEdge
   try extract_lets
   repeat' split
   all_goals (try simp +zetaDelta))

@[simp ↓] theorem peChanged_keep (old s : State) (p : Nat) : (peChanged old s p).otp = s.otp ∧ (peChanged old s p).pending = s.pending := by
  constructor <;>
  (unfold peChanged
   try extract_lets
   repeat' split
   all_goals (try simp +zetaDelta))

@[simp ↓] theorem sendVerify_keep (s : State) (p : Nat) : (sendVerify s p).otp = s.otp ∧ (sendVerify s p).pending = s.pending := by
  constructor <;>
  (unfold sendVerify
   try extract_lets
   repeat' split
   all_goals (try simp +zetaDelta))

@[simp ↓] theorem restartVerify_keep (s : State) (p : Nat) : (restartVerify s p).otp = s.otp ∧ (restartVerify s p).pending = s.pending := by
  constructor <;>
  (unfold restartVerify
   try extract_lets
   repeat' split
   all_goals (try simp +zetaDelta))

@[simp ↓] theorem hyithUp_keep (s : State) (u : Nat) : (hyithUp s u).otp = s.otp ∧ (hyithUp s u).pending = s.pending := by
  constructor <;>
  (unfold hyithUp
   try extract_lets
   repeat' split
   all_goals (try simp +zetaDelta))

@[simp ↓] theorem setLink_keep (s : State) (p : Nat) (up : Bool) (speed : Nat) : (setLink s p up speed).otp = s.otp ∧ (setLink s p up speed).pending = s.pending := by
  constructor <;>
  (unfold setLink
   try extract_lets
   repeat' split
   all_goals (try simp +zetaDelta))

@[simp ↓] theorem controlLink_keep (s : State) (p : Nat) : (controlLink s p).otp = s.otp ∧ (controlLink s p).pending = s.pending := by
  constructor <;>
  (unfold controlLink
   try extract_lets
   repeat' split
   all_goals (try simp +zetaDelta))

@[simp ↓] theorem speedHold_keep (s : State) (p : Nat) : (speedHold s p).otp = s.otp ∧ (speedHold s p).pending = s.pending := by
  constructor <;>
  (unfold speedHold
   try extract_lets
   repeat' split
   all_goals (try simp +zetaDelta))

/-! ### Machine/Valve.lean -/

@[simp ↓] theorem bodyValveQuery_keep (h : CmdHdr) (x0 : List Word) (s : State) : (bodyValveQuery h x0 s).1.otp = s.otp ∧ (bodyValveQuery h x0 s).1.pending = s.pending := by
  constructor <;>
  (unfold bodyValveQuery
   try extract_lets
   repeat' split
   all_goals (try simp +zetaDelta))

@[simp ↓] theorem bodyValveSet_keep (h : CmdHdr) (w : List Word) (s : State) : (bodyValveSet h w s).1.otp = s.otp ∧ (bodyValveSet h w s).1.pending = s.pending := by
  constructor <;>
  (unfold bodyValveSet
   try extract_lets
   repeat' split
   all_goals (try simp +zetaDelta))

@[simp ↓] theorem bodyValveWrite_keep (h : CmdHdr) (w : List Word) (s : State) : (bodyValveWrite h w s).1.otp = s.otp ∧ (bodyValveWrite h w s).1.pending = s.pending := by
  constructor <;>
  (unfold bodyValveWrite
   try extract_lets
   repeat' split
   all_goals (try simp +zetaDelta))

@[simp ↓] theorem bodyValveRead_keep (h : CmdHdr) (w : List Word) (s : State) : (bodyValveRead h w s).1.otp = s.otp ∧ (bodyValveRead h w s).1.pending = s.pending := by
  constructor <;>
  (unfold bodyValveRead
   try extract_lets
   repeat' split
   all_goals (try simp +zetaDelta))

@[simp ↓] theorem valveCommit_keep (s : State) (p k tb vct c : Nat) (start : Bool) : (valveCommit s p k tb vct c start).s.otp = s.otp ∧ (valveCommit s p k tb vct c start).s.pending = s.pending := by
  constructor <;>
  (unfold valveCommit
   try extract_lets
   repeat' split
   all_goals (try simp +zetaDelta))

@[simp ↓] theorem valveUndo_keep (m : Member) (rb : Nat) (s : State) : (valveUndo m rb s).1.otp = s.otp ∧ (valveUndo m rb s).1.pending = s.pending := by
  constructor <;>
  (unfold valveUndo
   try extract_lets
   repeat' split
   all_goals (try first | refine busWrite_otp fun s => ?_ | refine busWrite_pending fun s => ?_ | refine busRead_otp fun s => ?_ | refine busRead_pending fun s => ?_ | refine bar2Write_otp fun s => ?_ | refine bar2Write_pending fun s => ?_ | refine (foldl_otp _ (fun s a => ?_) _ _).trans ?_ | refine (foldl_pending _ (fun s a => ?_) _ _).trans ?_)
   all_goals (repeat' split)
   all_goals (try simp +zetaDelta)
   all_goals (try first | refine busWrite_otp fun s => ?_ | refine busWrite_pending fun s => ?_ | refine busRead_otp fun s => ?_ | refine busRead_pending fun s => ?_ | refine bar2Write_otp fun s => ?_ | refine bar2Write_pending fun s => ?_ | refine (foldl_otp _ (fun s a => ?_) _ _).trans ?_ | refine (foldl_pending _ (fun s a => ?_) _ _).trans ?_)
   all_goals (repeat' split)
   all_goals (try simp +zetaDelta))

theorem valveStartOp_ok : TxnOk valveStartOp where
  app := by
    intro h w c s a e
    simp only [valveStartOp] at e
    (try extract_lets at e)
    repeat' split at e
    all_goals first | (cases e; constructor) | cases e
    all_goals try extract_lets
    all_goals (repeat' split)
    all_goals (try (simp +zetaDelta; done))
    all_goals (try first | refine busWrite_otp fun s => ?_ | refine busWrite_pending fun s => ?_ | refine busRead_otp fun s => ?_ | refine busRead_pending fun s => ?_ | refine bar2Write_otp fun s => ?_ | refine bar2Write_pending fun s => ?_ | refine (foldl_otp _ (fun s a => ?_) _ _).trans ?_ | refine (foldl_pending _ (fun s a => ?_) _ _).trans ?_)
    all_goals (repeat' split)
    all_goals (try (simp +zetaDelta; done))
    all_goals (try first | refine busWrite_otp fun s => ?_ | refine busWrite_pending fun s => ?_ | refine busRead_otp fun s => ?_ | refine busRead_pending fun s => ?_ | refine bar2Write_otp fun s => ?_ | refine bar2Write_pending fun s => ?_ | refine (foldl_otp _ (fun s a => ?_) _ _).trans ?_ | refine (foldl_pending _ (fun s a => ?_) _ _).trans ?_)
    all_goals (repeat' split)
    all_goals (simp +zetaDelta)
  und := by
    intro h w n m s
    constructor <;> ((try simp only [valveStartOp]) <;> (try extract_lets) <;> (repeat' split))
    all_goals (try (simp +zetaDelta; done))
    all_goals (try first | refine busWrite_otp fun s => ?_ | refine busWrite_pending fun s => ?_ | refine busRead_otp fun s => ?_ | refine busRead_pending fun s => ?_ | refine bar2Write_otp fun s => ?_ | refine bar2Write_pending fun s => ?_ | refine (foldl_otp _ (fun s a => ?_) _ _).trans ?_ | refine (foldl_pending _ (fun s a => ?_) _ _).trans ?_)
    all_goals (repeat' split)
    all_goals (try (simp +zetaDelta; done))
    all_goals (try first | refine busWrite_otp fun s => ?_ | refine busWrite_pending fun s => ?_ | refine busRead_otp fun s => ?_ | refine busRead_pending fun s => ?_ | refine bar2Write_otp fun s => ?_ | refine bar2Write_pending fun s => ?_ | refine (foldl_otp _ (fun s a => ?_) _ _).trans ?_ | refine (foldl_pending _ (fun s a => ?_) _ _).trans ?_)
    all_goals (repeat' split)
    all_goals (simp +zetaDelta)

theorem valveSwapOp_ok : TxnOk valveSwapOp where
  app := by
    intro h w c s a e
    simp only [valveSwapOp] at e
    (try extract_lets at e)
    repeat' split at e
    all_goals first | (cases e; constructor) | cases e
    all_goals try extract_lets
    all_goals (repeat' split)
    all_goals (try (simp +zetaDelta; done))
    all_goals (try first | refine busWrite_otp fun s => ?_ | refine busWrite_pending fun s => ?_ | refine busRead_otp fun s => ?_ | refine busRead_pending fun s => ?_ | refine bar2Write_otp fun s => ?_ | refine bar2Write_pending fun s => ?_ | refine (foldl_otp _ (fun s a => ?_) _ _).trans ?_ | refine (foldl_pending _ (fun s a => ?_) _ _).trans ?_)
    all_goals (repeat' split)
    all_goals (try (simp +zetaDelta; done))
    all_goals (try first | refine busWrite_otp fun s => ?_ | refine busWrite_pending fun s => ?_ | refine busRead_otp fun s => ?_ | refine busRead_pending fun s => ?_ | refine bar2Write_otp fun s => ?_ | refine bar2Write_pending fun s => ?_ | refine (foldl_otp _ (fun s a => ?_) _ _).trans ?_ | refine (foldl_pending _ (fun s a => ?_) _ _).trans ?_)
    all_goals (repeat' split)
    all_goals (simp +zetaDelta)
  und := by
    intro h w n m s
    constructor <;> ((try simp only [valveSwapOp]) <;> (try extract_lets) <;> (repeat' split))
    all_goals (try (simp +zetaDelta; done))
    all_goals (try first | refine busWrite_otp fun s => ?_ | refine busWrite_pending fun s => ?_ | refine busRead_otp fun s => ?_ | refine busRead_pending fun s => ?_ | refine bar2Write_otp fun s => ?_ | refine bar2Write_pending fun s => ?_ | refine (foldl_otp _ (fun s a => ?_) _ _).trans ?_ | refine (foldl_pending _ (fun s a => ?_) _ _).trans ?_)
    all_goals (repeat' split)
    all_goals (try (simp +zetaDelta; done))
    all_goals (try first | refine busWrite_otp fun s => ?_ | refine busWrite_pending fun s => ?_ | refine busRead_otp fun s => ?_ | refine busRead_pending fun s => ?_ | refine bar2Write_otp fun s => ?_ | refine bar2Write_pending fun s => ?_ | refine (foldl_otp _ (fun s a => ?_) _ _).trans ?_ | refine (foldl_pending _ (fun s a => ?_) _ _).trans ?_)
    all_goals (repeat' split)
    all_goals (simp +zetaDelta)

theorem valveStopOp_ok : TxnOk valveStopOp where
  app := by
    intro h w c s a e
    simp only [valveStopOp] at e
    (try extract_lets at e)
    repeat' split at e
    all_goals first | (cases e; constructor) | cases e
    all_goals try extract_lets
    all_goals (repeat' split)
    all_goals (try (simp +zetaDelta; done))
    all_goals (try first | refine busWrite_otp fun s => ?_ | refine busWrite_pending fun s => ?_ | refine busRead_otp fun s => ?_ | refine busRead_pending fun s => ?_ | refine bar2Write_otp fun s => ?_ | refine bar2Write_pending fun s => ?_ | refine (foldl_otp _ (fun s a => ?_) _ _).trans ?_ | refine (foldl_pending _ (fun s a => ?_) _ _).trans ?_)
    all_goals (repeat' split)
    all_goals (try (simp +zetaDelta; done))
    all_goals (try first | refine busWrite_otp fun s => ?_ | refine busWrite_pending fun s => ?_ | refine busRead_otp fun s => ?_ | refine busRead_pending fun s => ?_ | refine bar2Write_otp fun s => ?_ | refine bar2Write_pending fun s => ?_ | refine (foldl_otp _ (fun s a => ?_) _ _).trans ?_ | refine (foldl_pending _ (fun s a => ?_) _ _).trans ?_)
    all_goals (repeat' split)
    all_goals (simp +zetaDelta)
  und := by
    intro h w n m s
    constructor <;> ((try simp only [valveStopOp]) <;> (try extract_lets) <;> (repeat' split))
    all_goals (try (simp +zetaDelta; done))
    all_goals (try first | refine busWrite_otp fun s => ?_ | refine busWrite_pending fun s => ?_ | refine busRead_otp fun s => ?_ | refine busRead_pending fun s => ?_ | refine bar2Write_otp fun s => ?_ | refine bar2Write_pending fun s => ?_ | refine (foldl_otp _ (fun s a => ?_) _ _).trans ?_ | refine (foldl_pending _ (fun s a => ?_) _ _).trans ?_)
    all_goals (repeat' split)
    all_goals (try (simp +zetaDelta; done))
    all_goals (try first | refine busWrite_otp fun s => ?_ | refine busWrite_pending fun s => ?_ | refine busRead_otp fun s => ?_ | refine busRead_pending fun s => ?_ | refine bar2Write_otp fun s => ?_ | refine bar2Write_pending fun s => ?_ | refine (foldl_otp _ (fun s a => ?_) _ _).trans ?_ | refine (foldl_pending _ (fun s a => ?_) _ _).trans ?_)
    all_goals (repeat' split)
    all_goals (simp +zetaDelta)

@[simp ↓] theorem execValveEntryBoundary_keep (p k i : Nat) (s : State) : OutKeeps s (execValveEntryBoundary p k i s) := by
  unfold execValveEntryBoundary
  try extract_lets
  apply OutKeeps.mk
  constructor <;>
  (repeat' split
   all_goals (try simp +zetaDelta))

@[simp ↓] theorem execValveStopInstant_keep (p : Nat) (s : State) : OutKeeps s (execValveStopInstant p s) := by
  unfold execValveStopInstant
  try extract_lets
  apply OutKeeps.mk
  constructor <;>
  (repeat' split
   all_goals (try simp +zetaDelta))

@[simp ↓] theorem execCourseHoldStart_keep (p f n : Nat) (s : State) : OutKeeps s (execCourseHoldStart p f n s) := by
  unfold execCourseHoldStart
  try extract_lets
  apply OutKeeps.mk
  constructor <;>
  (repeat' split
   all_goals (try simp +zetaDelta))

@[simp ↓] theorem bodyPreemptSet_keep (h : CmdHdr) (w : List Word) (s : State) : (bodyPreemptSet h w s).1.otp = s.otp ∧ (bodyPreemptSet h w s).1.pending = s.pending := by
  constructor <;>
  (unfold bodyPreemptSet
   try extract_lets
   repeat' split
   all_goals (try simp +zetaDelta))

@[simp ↓] theorem bodyPreemptQuery_keep (h : CmdHdr) (x0 : List Word) (s : State) : (bodyPreemptQuery h x0 s).1.otp = s.otp ∧ (bodyPreemptQuery h x0 s).1.pending = s.pending := by
  constructor <;>
  (unfold bodyPreemptQuery
   try extract_lets
   repeat' split
   all_goals (try simp +zetaDelta))

@[simp ↓] theorem execVerifyTimeout_keep (p : Nat) (s : State) : OutKeeps s (execVerifyTimeout p s) := by
  unfold execVerifyTimeout
  try extract_lets
  apply OutKeeps.mk
  constructor <;>
  (repeat' split
   all_goals (try simp +zetaDelta))

@[simp ↓] theorem execValveQuery_keep (h : CmdHdr) (w : List Word) (s : State) : OutKeeps s (execValveQuery h w s) :=
  OutKeeps.mk (runCmd_keep _ _ _ _ _ (bodyValveQuery_keep))

@[simp ↓] theorem execValveSet_keep (h : CmdHdr) (w : List Word) (s : State) : OutKeeps s (execValveSet h w s) :=
  OutKeeps.mk (runCmd_keep _ _ _ _ _ (bodyValveSet_keep))

@[simp ↓] theorem execValveWrite_keep (h : CmdHdr) (w : List Word) (s : State) : OutKeeps s (execValveWrite h w s) :=
  OutKeeps.mk (runCmd_keep _ _ _ _ _ (bodyValveWrite_keep))

@[simp ↓] theorem execValveRead_keep (h : CmdHdr) (w : List Word) (s : State) : OutKeeps s (execValveRead h w s) :=
  OutKeeps.mk (runCmd_keep _ _ _ _ _ (bodyValveRead_keep))

@[simp ↓] theorem execValveStart_keep (h : CmdHdr) (w : List Word) (s : State) : OutKeeps s (execValveStart h w s) :=
  OutKeeps.mk (runLater_keep _ _ _ _ _ (bodyTxn_keep _ _ valveStartOp_ok))

@[simp ↓] theorem execValveSwap_keep (h : CmdHdr) (w : List Word) (s : State) : OutKeeps s (execValveSwap h w s) :=
  OutKeeps.mk (runLater_keep _ _ _ _ _ (bodyTxn_keep _ _ valveSwapOp_ok))

@[simp ↓] theorem execValveStop_keep (h : CmdHdr) (w : List Word) (s : State) : OutKeeps s (execValveStop h w s) :=
  OutKeeps.mk (runLater_keep _ _ _ _ _ (bodyTxn_keep _ _ valveStopOp_ok))

@[simp ↓] theorem execPreemptSet_keep (h : CmdHdr) (w : List Word) (s : State) : OutKeeps s (execPreemptSet h w s) :=
  OutKeeps.mk (runCmd_keep _ _ _ _ _ (bodyPreemptSet_keep))

@[simp ↓] theorem execPreemptQuery_keep (h : CmdHdr) (w : List Word) (s : State) : OutKeeps s (execPreemptQuery h w s) :=
  OutKeeps.mk (runCmd_keep _ _ _ _ _ (bodyPreemptQuery_keep))

/-! ### Machine/Record.lean -/

@[simp ↓] theorem sendRec_keep (s : State) (r : Nat) (b : List Byte) : (sendRec s r b).otp = s.otp ∧ (sendRec s r b).pending = s.pending := by
  constructor <;>
  (unfold sendRec
   try extract_lets
   repeat' split
   all_goals (try simp +zetaDelta))

theorem bodyFwd_keep (op : Nat) (chk : CmdHdr → List Word → State → Option Reply) (f : CmdHdr → List Word → State → State)
    (hf : ∀ h w s, (f h w s).otp = s.otp ∧ (f h w s).pending = s.pending) (h : CmdHdr) (w : List Word) (s : State) :
    (bodyFwd op chk f h w s).1.otp = s.otp ∧ (bodyFwd op chk f h w s).1.pending = s.pending := by
  constructor <;>
  (unfold bodyFwd
   try extract_lets
   repeat' split
   try extract_lets
   repeat' split
   all_goals simp +zetaDelta [hf])

theorem bodyTxnFwd_keep (op : Nat) (f : TxnOp) (e : CmdHdr → List Word → State → List Word) (hf : TxnOk f)
    (h : CmdHdr) (w : List Word) (s : State) :
    (bodyTxnFwd op f e h w s).1.otp = s.otp ∧ (bodyTxnFwd op f e h w s).1.pending = s.pending := by
  have hb := bodyTxn_keep op f hf h w
  constructor <;>
  (unfold bodyTxnFwd
   try extract_lets
   repeat' split
   all_goals simp +zetaDelta [hb])

/-! ### Machine/Image.lean -/

@[simp ↓] theorem imgStore_keep (t : Nat) (s : State) (a o : Nat) (l : List Byte) : (imgStore t s a o l).otp = s.otp ∧ (imgStore t s a o l).pending = s.pending := by
  constructor <;>
  (unfold imgStore
   try extract_lets
   repeat' split
   all_goals (try simp +zetaDelta)
   all_goals (repeat' split)
   all_goals (try simp +zetaDelta))

@[simp ↓] theorem imgWrite_keep (s : State) (a o : Nat) (l : List Byte) : (imgWrite s a o l).otp = s.otp ∧ (imgWrite s a o l).pending = s.pending := by
  constructor <;>
  (unfold imgWrite
   try extract_lets
   repeat' split
   all_goals (try simp +zetaDelta))

@[simp ↓] theorem imgWriteLate_keep (s : State) (a o : Nat) (l : List Byte) : (imgWriteLate s a o l).otp = s.otp ∧ (imgWriteLate s a o l).pending = s.pending := by
  constructor <;>
  (unfold imgWriteLate
   try extract_lets
   repeat' split
   all_goals (try simp +zetaDelta)
   all_goals (repeat' split)
   all_goals (try simp +zetaDelta))

@[simp ↓] theorem stagingPut_keep (s : State) (a o : Nat) (l : List Byte) : (stagingPut s a o l).otp = s.otp ∧ (stagingPut s a o l).pending = s.pending := by
  constructor <;>
  (unfold stagingPut
   try extract_lets
   repeat' split
   all_goals (try simp +zetaDelta))

@[simp ↓] theorem pruneLogs_keep (s : State) : (pruneLogs s).otp = s.otp ∧ (pruneLogs s).pending = s.pending := by
  constructor <;>
  (unfold pruneLogs
   try extract_lets
   repeat' split
   all_goals (try simp +zetaDelta))

@[simp ↓] theorem axisHalf_keep (s : State) (a o v : Nat) : (axisHalf s a o v).otp = s.otp ∧ (axisHalf s a o v).pending = s.pending := by
  constructor <;>
  (unfold axisHalf
   try extract_lets
   repeat' split
   all_goals (try simp +zetaDelta))

@[simp ↓] theorem plainStagingWrite_keep (ofs : Nat) (data : List Word) (whole : Bool) (s : State) : OutKeeps s (plainStagingWrite ofs data whole s) := by
  unfold plainStagingWrite
  try extract_lets
  apply OutKeeps.mk
  constructor <;>
  (repeat' split
   all_goals (try simp +zetaDelta))

end Sys2Proof.Machine
end

