-- ==== Sys2Proof/Laws/KeepAxis.lean ====
section
/-! SUPPORT. What the operations and the meanings of Axis, Kept, Ports leave as they are: the OTP and the queue of waiting commands. -/

set_option linter.unusedTactic false
set_option linter.unreachableTactic false
set_option linter.unusedVariables false
set_option linter.unusedSimpArgs false
set_option linter.unnecessarySeqFocus false

namespace Sys2Proof.Machine

/-! ### Machine/Axis.lean -/

@[simp ↓] theorem setAxisState_keep (s : State) (a st cause : Nat) : (setAxisState s a st cause).otp = s.otp ∧ (setAxisState s a st cause).pending = s.pending := by
  constructor <;>
  (unfold setAxisState
   try extract_lets
   repeat' split
   all_goals (try simp +zetaDelta))

@[simp ↓] theorem writeCmd_keep (s : State) (a : Nat) : (writeCmd s a).otp = s.otp ∧ (writeCmd s a).pending = s.pending := by
  constructor <;>
  (unfold writeCmd
   try extract_lets
   repeat' split
   all_goals (try simp +zetaDelta))

@[simp ↓] theorem writeCmdLate_keep (s : State) (a : Nat) : (writeCmdLate s a).otp = s.otp ∧ (writeCmdLate s a).pending = s.pending := by
  constructor <;>
  (unfold writeCmdLate
   try extract_lets
   repeat' split
   all_goals (try simp +zetaDelta)
   all_goals (repeat' split)
   all_goals (try simp +zetaDelta))

@[simp ↓] theorem leadTest_keep (s : State) (a d : Nat) : (leadTest s a d).otp = s.otp ∧ (leadTest s a d).pending = s.pending := by
  constructor <;>
  (unfold leadTest
   try extract_lets
   repeat' split
   all_goals (try simp +zetaDelta))

@[simp ↓] theorem execAxisDecisionInstant_keep (a n : Nat) (s : State) : OutKeeps s (execAxisDecisionInstant a n s) := by
  unfold execAxisDecisionInstant
  try extract_lets
  apply OutKeeps.mk
  constructor <;>
  (repeat' split
   all_goals (try simp +zetaDelta))

@[simp ↓] theorem applySet_keep (s : State) (r : Rule) : (applySet s r).otp = s.otp ∧ (applySet s r).pending = s.pending := by
  constructor <;>
  (unfold applySet
   try extract_lets
   repeat' split
   all_goals (try simp +zetaDelta))

@[simp ↓] theorem addSats_keep (s : State) (a n : Nat) : (addSats s a n).otp = s.otp ∧ (addSats s a n).pending = s.pending := by
  constructor <;>
  (unfold addSats
   try extract_lets
   repeat' split
   all_goals (try simp +zetaDelta))

@[simp ↓] theorem applyDecided_keep (s : State) (a : Nat) (d : Decided) : (applyDecided s a d).otp = s.otp ∧ (applyDecided s a d).pending = s.pending := by
  constructor <;>
  (unfold applyDecided
   try extract_lets
   repeat' split
   all_goals (try simp +zetaDelta)
   all_goals (repeat' split)
   all_goals (try first | refine busWrite_otp fun s => ?_ | refine busWrite_pending fun s => ?_ | refine busRead_otp fun s => ?_ | refine busRead_pending fun s => ?_ | refine bar2Write_otp fun s => ?_ | refine bar2Write_pending fun s => ?_ | refine (foldl_otp _ (fun s a => ?_) _ _).trans ?_ | refine (foldl_pending _ (fun s a => ?_) _ _).trans ?_)
   all_goals (repeat' split)
   all_goals (try simp +zetaDelta)
   all_goals (try first | refine busWrite_otp fun s => ?_ | refine busWrite_pending fun s => ?_ | refine busRead_otp fun s => ?_ | refine busRead_pending fun s => ?_ | refine bar2Write_otp fun s => ?_ | refine bar2Write_pending fun s => ?_ | refine (foldl_otp _ (fun s a => ?_) _ _).trans ?_ | refine (foldl_pending _ (fun s a => ?_) _ _).trans ?_)
   all_goals (repeat' split)
   all_goals (try simp +zetaDelta))

@[simp ↓] theorem axisBoundaryAt_keep (s : State) (a b : Nat) : (axisBoundaryAt s a b).otp = s.otp ∧ (axisBoundaryAt s a b).pending = s.pending := by
  obtain ⟨t, ht⟩ : ∃ t, axisBoundaryAt s a b = t := ⟨_, rfl⟩
  rw [ht]
  unfold axisBoundaryAt at ht
  extract_lets x s1 d s2 st qs s3 s4 s5 at ht
  clear_value d
  have h1 : s1.otp = s.otp ∧ s1.pending = s.pending := by simp [s1]
  have h2 : s2.otp = s1.otp ∧ s2.pending = s1.pending := by
    simp only [s2]
    cases d <;> simp
  have h3 : s3.otp = s2.otp ∧ s3.pending = s2.pending := by
    simp only [s3]
    split
    · exact writeCmd_keep _ _
    · exact ⟨rfl, rfl⟩
  have h4 : s4.otp = s3.otp ∧ s4.pending = s3.pending := modAxis_keep _ _ _
  have h5 : s5.otp = s4.otp ∧ s5.pending = s4.pending :=
    ⟨foldl_otp _ (fun s r => (applySet_keep s r).1) _ _, foldl_pending _ (fun s r => (applySet_keep s r).2) _ _⟩
  have e : s5.otp = s.otp ∧ s5.pending = s.pending := by
    rw [h5.1, h5.2, h4.1, h4.2, h3.1, h3.2, h2.1, h2.2]
    exact h1
  rw [← ht]
  cases d <;> dsimp only <;> (repeat' split) <;> simp [e]

@[simp ↓] theorem execAxisBoundary_keep (a n : Nat) (s : State) : OutKeeps s (execAxisBoundary a n s) := by
  unfold execAxisBoundary
  try extract_lets
  apply OutKeeps.mk
  constructor <;>
  (repeat' split
   all_goals (try simp +zetaDelta))

@[simp ↓] theorem settleAxes_keep (s : State) (t : Nat) : (settleAxes s t).otp = s.otp ∧ (settleAxes s t).pending = s.pending := by
  constructor <;>
  (unfold settleAxes
   try extract_lets
   repeat' split
   all_goals (try first | refine busWrite_otp fun s => ?_ | refine busWrite_pending fun s => ?_ | refine busRead_otp fun s => ?_ | refine busRead_pending fun s => ?_ | refine bar2Write_otp fun s => ?_ | refine bar2Write_pending fun s => ?_ | refine (foldl_otp _ (fun s a => ?_) _ _).trans ?_ | refine (foldl_pending _ (fun s a => ?_) _ _).trans ?_)
   all_goals (repeat' split)
   all_goals (try simp +zetaDelta)
   all_goals (try first | refine busWrite_otp fun s => ?_ | refine busWrite_pending fun s => ?_ | refine busRead_otp fun s => ?_ | refine busRead_pending fun s => ?_ | refine bar2Write_otp fun s => ?_ | refine bar2Write_pending fun s => ?_ | refine (foldl_otp _ (fun s a => ?_) _ _).trans ?_ | refine (foldl_pending _ (fun s a => ?_) _ _).trans ?_)
   all_goals (repeat' split)
   all_goals (try simp +zetaDelta))

@[simp ↓] theorem qstopReq_keep (s : State) (a cause t : Nat) : (qstopReq s a cause t).otp = s.otp ∧ (qstopReq s a cause t).pending = s.pending := by
  constructor <;>
  (unfold qstopReq
   try extract_lets
   repeat' split
   all_goals (try simp +zetaDelta))

@[simp ↓] theorem execSegmentFetch_keep (a : Nat) (ok : Bool) (s : State) : OutKeeps s (execSegmentFetch a ok s) := by
  unfold execSegmentFetch
  try extract_lets
  apply OutKeeps.mk
  constructor <;>
  (repeat' split
   all_goals (try simp +zetaDelta))

@[simp ↓] theorem doorbell_keep (s : State) (a put : Nat) : (doorbell s a put).otp = s.otp ∧ (doorbell s a put).pending = s.pending := by
  constructor <;>
  (unfold doorbell
   try extract_lets
   repeat' split
   all_goals (try simp +zetaDelta))

@[simp ↓] theorem plainSegPutDb_keep (r : Nat) (v : Word) (s : State) : OutKeeps s (plainSegPutDb r v s) :=
  OutKeeps.mk ⟨busWrite_otp fun s => (doorbell_keep _ _ _).1, busWrite_pending fun s => (doorbell_keep _ _ _).2⟩

@[simp ↓] theorem evalRule_keep (s : State) (a t o n p i : Nat) : (evalRule s a t o n p i).otp = s.otp ∧ (evalRule s a t o n p i).pending = s.pending := by
  constructor <;>
  (unfold evalRule
   try extract_lets
   repeat' split
   all_goals (try simp +zetaDelta))

@[simp ↓] theorem evalRules_keep (s : State) (a t o n p : Nat) : (evalRules s a t o n p).otp = s.otp ∧ (evalRules s a t o n p).pending = s.pending := by
  constructor <;>
  (unfold evalRules
   try extract_lets
   repeat' split
   all_goals (try simp +zetaDelta))

@[simp ↓] theorem captureDigests_keep (s : State) (n : Nat) : (captureDigests s n).otp = s.otp ∧ (captureDigests s n).pending = s.pending := by
  constructor <;>
  (unfold captureDigests
   try extract_lets
   repeat' split
   all_goals (try first | refine busWrite_otp fun s => ?_ | refine busWrite_pending fun s => ?_ | refine busRead_otp fun s => ?_ | refine busRead_pending fun s => ?_ | refine bar2Write_otp fun s => ?_ | refine bar2Write_pending fun s => ?_ | refine (foldl_otp _ (fun s a => ?_) _ _).trans ?_ | refine (foldl_pending _ (fun s a => ?_) _ _).trans ?_)
   all_goals (repeat' split)
   all_goals (try simp +zetaDelta)
   all_goals (try first | refine busWrite_otp fun s => ?_ | refine busWrite_pending fun s => ?_ | refine busRead_otp fun s => ?_ | refine busRead_pending fun s => ?_ | refine bar2Write_otp fun s => ?_ | refine bar2Write_pending fun s => ?_ | refine (foldl_otp _ (fun s a => ?_) _ _).trans ?_ | refine (foldl_pending _ (fun s a => ?_) _ _).trans ?_)
   all_goals (repeat' split)
   all_goals (try simp +zetaDelta))

theorem execDigestLoRead_keep (r : Nat) (s : State) : OutKeeps s (execDigestLoRead r s) :=
  OutKeeps.mk ⟨busRead_otp fun s => ((emit_keep _ _).1.trans (modDigest_keep _ _ _).1), busRead_pending fun s => ((emit_keep _ _).2.trans (modDigest_keep _ _ _).2)⟩

@[simp ↓] theorem bodyDigestQuery_keep (h : CmdHdr) (x0 : List Word) (s : State) : (bodyDigestQuery h x0 s).1.otp = s.otp ∧ (bodyDigestQuery h x0 s).1.pending = s.pending := by
  constructor <;>
  (unfold bodyDigestQuery
   try extract_lets
   repeat' split
   all_goals (try simp +zetaDelta))

@[simp ↓] theorem bodyAxisQuery_keep (x0 : CmdHdr) (w : List Word) (s : State) : (bodyAxisQuery x0 w s).1.otp = s.otp ∧ (bodyAxisQuery x0 w s).1.pending = s.pending := by
  constructor <;>
  (unfold bodyAxisQuery
   try extract_lets
   repeat' split
   all_goals (try simp +zetaDelta))

@[simp ↓] theorem bodyAxisSet_keep (x0 : CmdHdr) (w : List Word) (s : State) : (bodyAxisSet x0 w s).1.otp = s.otp ∧ (bodyAxisSet x0 w s).1.pending = s.pending := by
  constructor <;>
  (unfold bodyAxisSet
   try extract_lets
   repeat' split
   all_goals (try simp +zetaDelta))

@[simp ↓] theorem doReflexSet_keep (x0 : CmdHdr) (w : List Word) (s : State) : (doReflexSet x0 w s).otp = s.otp ∧ (doReflexSet x0 w s).pending = s.pending := by
  constructor <;>
  (unfold doReflexSet
   try extract_lets
   repeat' split
   all_goals (try simp +zetaDelta))

@[simp ↓] theorem doReflexArm_keep (x0 : CmdHdr) (w : List Word) (s : State) : (doReflexArm x0 w s).otp = s.otp ∧ (doReflexArm x0 w s).pending = s.pending := by
  constructor <;>
  (unfold doReflexArm
   try extract_lets
   repeat' split
   all_goals (try simp +zetaDelta))

@[simp ↓] theorem doAxisQstop_keep (x0 : CmdHdr) (w : List Word) (s : State) : (doAxisQstop x0 w s).otp = s.otp ∧ (doAxisQstop x0 w s).pending = s.pending := by
  constructor <;>
  (unfold doAxisQstop
   try extract_lets
   repeat' split
   all_goals (try simp +zetaDelta))

@[simp ↓] theorem bodySegWrite_keep (x0 : CmdHdr) (w : List Word) (s : State) : (bodySegWrite x0 w s).1.otp = s.otp ∧ (bodySegWrite x0 w s).1.pending = s.pending := by
  constructor <;>
  (unfold bodySegWrite
   try extract_lets
   repeat' split
   all_goals (try first | refine busWrite_otp fun s => ?_ | refine busWrite_pending fun s => ?_ | refine busRead_otp fun s => ?_ | refine busRead_pending fun s => ?_ | refine bar2Write_otp fun s => ?_ | refine bar2Write_pending fun s => ?_ | refine (foldl_otp _ (fun s a => ?_) _ _).trans ?_ | refine (foldl_pending _ (fun s a => ?_) _ _).trans ?_)
   all_goals (repeat' split)
   all_goals (try simp +zetaDelta)
   all_goals (try first | refine busWrite_otp fun s => ?_ | refine busWrite_pending fun s => ?_ | refine busRead_otp fun s => ?_ | refine busRead_pending fun s => ?_ | refine bar2Write_otp fun s => ?_ | refine bar2Write_pending fun s => ?_ | refine (foldl_otp _ (fun s a => ?_) _ _).trans ?_ | refine (foldl_pending _ (fun s a => ?_) _ _).trans ?_)
   all_goals (repeat' split)
   all_goals (try simp +zetaDelta))

theorem axisStartOp_ok : TxnOk axisStartOp where
  app := by
    intro h w c s a e
    simp only [axisStartOp] at e
    (try extract_lets at e)
    repeat' split at e
    all_goals first | (cases e; constructor) | cases e
    all_goals try extract_lets
    all_goals (repeat' split)
    all_goals (try (simp +zetaDelta; done))
    all_goals (try first | refine busWrite_otp fun s => ?_ | refine busWrite_pending fun s => ?_ | refine busRead_otp fun s => ?_ | refine busRead_pending fun s => ?_ | refine bar2Write_otp fun s => ?_ | refine bar2Write_pending fun s => ?_ | refine (foldl_otp _ (fun s a => ?_) _ _).trans ?_ | refine (foldl_pending _ (fun s a => ?_) _ _).trans ?_)
    all_goals (repeat' split)
    all_goals (try (simp +zetaDelta; done))
    all_goals (try first | refine busWrite_otp fun s => ?_ | refine busWrite_pending fun s => ?_ | refine busRead_otp fun s => ?_ | refine busRead_pending fun s => ?_ | refine bar2Write_otp fun s => ?_ | refine bar2Write_pending fun s => ?_ | refine (foldl_otp _ (fun s a => ?_) _ _).trans ?_ | refine (foldl_pending _ (fun s a => ?_) _ _).trans ?_)
    all_goals (repeat' split)
    all_goals (simp +zetaDelta)
  und := by
    intro h w n m s
    constructor <;> ((try simp only [axisStartOp]) <;> (try extract_lets) <;> (repeat' split))
    all_goals (try (simp +zetaDelta; done))
    all_goals (try first | refine busWrite_otp fun s => ?_ | refine busWrite_pending fun s => ?_ | refine busRead_otp fun s => ?_ | refine busRead_pending fun s => ?_ | refine bar2Write_otp fun s => ?_ | refine bar2Write_pending fun s => ?_ | refine (foldl_otp _ (fun s a => ?_) _ _).trans ?_ | refine (foldl_pending _ (fun s a => ?_) _ _).trans ?_)
    all_goals (repeat' split)
    all_goals (try (simp +zetaDelta; done))
    all_goals (try first | refine busWrite_otp fun s => ?_ | refine busWrite_pending fun s => ?_ | refine busRead_otp fun s => ?_ | refine busRead_pending fun s => ?_ | refine bar2Write_otp fun s => ?_ | refine bar2Write_pending fun s => ?_ | refine (foldl_otp _ (fun s a => ?_) _ _).trans ?_ | refine (foldl_pending _ (fun s a => ?_) _ _).trans ?_)
    all_goals (repeat' split)
    all_goals (simp +zetaDelta)

theorem axisOffOp_ok : TxnOk axisOffOp where
  app := by
    intro h w c s a e
    simp only [axisOffOp] at e
    (try extract_lets at e)
    repeat' split at e
    all_goals first | (cases e; constructor) | cases e
    all_goals try extract_lets
    all_goals (repeat' split)
    all_goals (try (simp +zetaDelta; done))
    all_goals (try first | refine busWrite_otp fun s => ?_ | refine busWrite_pending fun s => ?_ | refine busRead_otp fun s => ?_ | refine busRead_pending fun s => ?_ | refine bar2Write_otp fun s => ?_ | refine bar2Write_pending fun s => ?_ | refine (foldl_otp _ (fun s a => ?_) _ _).trans ?_ | refine (foldl_pending _ (fun s a => ?_) _ _).trans ?_)
    all_goals (repeat' split)
    all_goals (try (simp +zetaDelta; done))
    all_goals (try first | refine busWrite_otp fun s => ?_ | refine busWrite_pending fun s => ?_ | refine busRead_otp fun s => ?_ | refine busRead_pending fun s => ?_ | refine bar2Write_otp fun s => ?_ | refine bar2Write_pending fun s => ?_ | refine (foldl_otp _ (fun s a => ?_) _ _).trans ?_ | refine (foldl_pending _ (fun s a => ?_) _ _).trans ?_)
    all_goals (repeat' split)
    all_goals (simp +zetaDelta)
  und := by
    intro h w n m s
    constructor <;> ((try simp only [axisOffOp]) <;> (try extract_lets) <;> (repeat' split))
    all_goals (try (simp +zetaDelta; done))
    all_goals (try first | refine busWrite_otp fun s => ?_ | refine busWrite_pending fun s => ?_ | refine busRead_otp fun s => ?_ | refine busRead_pending fun s => ?_ | refine bar2Write_otp fun s => ?_ | refine bar2Write_pending fun s => ?_ | refine (foldl_otp _ (fun s a => ?_) _ _).trans ?_ | refine (foldl_pending _ (fun s a => ?_) _ _).trans ?_)
    all_goals (repeat' split)
    all_goals (try (simp +zetaDelta; done))
    all_goals (try first | refine busWrite_otp fun s => ?_ | refine busWrite_pending fun s => ?_ | refine busRead_otp fun s => ?_ | refine busRead_pending fun s => ?_ | refine bar2Write_otp fun s => ?_ | refine bar2Write_pending fun s => ?_ | refine (foldl_otp _ (fun s a => ?_) _ _).trans ?_ | refine (foldl_pending _ (fun s a => ?_) _ _).trans ?_)
    all_goals (repeat' split)
    all_goals (simp +zetaDelta)

@[simp ↓] theorem execAxisQuery_keep (h : CmdHdr) (w : List Word) (s : State) : OutKeeps s (execAxisQuery h w s) :=
  OutKeeps.mk (runCmd_keep _ _ _ _ _ (bodyAxisQuery_keep))

@[simp ↓] theorem execAxisSet_keep (h : CmdHdr) (w : List Word) (s : State) : OutKeeps s (execAxisSet h w s) :=
  OutKeeps.mk (runCmd_keep _ _ _ _ _ (bodyAxisSet_keep))

@[simp ↓] theorem execReflexSet_keep (h : CmdHdr) (w : List Word) (s : State) : OutKeeps s (execReflexSet h w s) :=
  OutKeeps.mk (runCmd_keep _ _ _ _ _ (bodyFwd_keep _ _ _ doReflexSet_keep))

@[simp ↓] theorem execReflexArm_keep (h : CmdHdr) (w : List Word) (s : State) : OutKeeps s (execReflexArm h w s) :=
  OutKeeps.mk (runCmd_keep _ _ _ _ _ (bodyFwd_keep _ _ _ doReflexArm_keep))

@[simp ↓] theorem execAxisStart_keep (h : CmdHdr) (w : List Word) (s : State) : OutKeeps s (execAxisStart h w s) :=
  OutKeeps.mk (runLater_keep _ _ _ _ _ (bodyTxnFwd_keep _ _ _ axisStartOp_ok))

@[simp ↓] theorem execAxisQstop_keep (h : CmdHdr) (w : List Word) (s : State) : OutKeeps s (execAxisQstop h w s) :=
  OutKeeps.mk (runCmd_keep _ _ _ _ _ (bodyFwd_keep _ _ _ doAxisQstop_keep))

@[simp ↓] theorem execAxisOff_keep (h : CmdHdr) (w : List Word) (s : State) : OutKeeps s (execAxisOff h w s) :=
  OutKeeps.mk (runLater_keep _ _ _ _ _ (bodyTxnFwd_keep _ _ _ axisOffOp_ok))

@[simp ↓] theorem execSegWrite_keep (h : CmdHdr) (w : List Word) (s : State) : OutKeeps s (execSegWrite h w s) :=
  OutKeeps.mk (runCmd_keep _ _ _ _ _ (bodySegWrite_keep))

@[simp ↓] theorem execDigestQuery_keep (h : CmdHdr) (w : List Word) (s : State) : OutKeeps s (execDigestQuery h w s) :=
  OutKeeps.mk (runCmd_keep _ _ _ _ _ (bodyDigestQuery_keep))

/-! ### Machine/Kept.lean -/

@[simp ↓] theorem clearRegs_keep (low : Bool) (k : ResetKind) (s : State) : (clearRegs low k s).otp = s.otp ∧ (clearRegs low k s).pending = s.pending := by
  constructor <;>
  (unfold clearRegs
   try extract_lets
   repeat' split
   all_goals (try simp +zetaDelta))

@[simp ↓] theorem freshShapers_keep (s : State) (p : Nat) : (freshShapers s p).otp = s.otp ∧ (freshShapers s p).pending = s.pending := by
  constructor <;>
  (unfold freshShapers
   try extract_lets
   repeat' split
   all_goals (try first | refine busWrite_otp fun s => ?_ | refine busWrite_pending fun s => ?_ | refine busRead_otp fun s => ?_ | refine busRead_pending fun s => ?_ | refine bar2Write_otp fun s => ?_ | refine bar2Write_pending fun s => ?_ | refine (foldl_otp _ (fun s a => ?_) _ _).trans ?_ | refine (foldl_pending _ (fun s a => ?_) _ _).trans ?_)
   all_goals (repeat' split)
   all_goals (try simp +zetaDelta)
   all_goals (try first | refine busWrite_otp fun s => ?_ | refine busWrite_pending fun s => ?_ | refine busRead_otp fun s => ?_ | refine busRead_pending fun s => ?_ | refine bar2Write_otp fun s => ?_ | refine bar2Write_pending fun s => ?_ | refine (foldl_otp _ (fun s a => ?_) _ _).trans ?_ | refine (foldl_pending _ (fun s a => ?_) _ _).trans ?_)
   all_goals (repeat' split)
   all_goals (try simp +zetaDelta))

@[simp ↓] theorem releaseTx_keep (s : State) (p : Nat) : (releaseTx s p).otp = s.otp ∧ (releaseTx s p).pending = s.pending := by
  constructor <;>
  (unfold releaseTx
   try extract_lets
   repeat' split
   all_goals (try simp +zetaDelta)
   all_goals (repeat' split)
   all_goals (try simp +zetaDelta))

@[simp ↓] theorem clearQueues_keep (s : State) (p : Nat) : (clearQueues s p).otp = s.otp ∧ (clearQueues s p).pending = s.pending := by
  constructor <;>
  (unfold clearQueues
   try extract_lets
   repeat' split
   all_goals (try simp +zetaDelta)
   all_goals (repeat' split)
   all_goals (try first | refine busWrite_otp fun s => ?_ | refine busWrite_pending fun s => ?_ | refine busRead_otp fun s => ?_ | refine busRead_pending fun s => ?_ | refine bar2Write_otp fun s => ?_ | refine bar2Write_pending fun s => ?_ | refine (foldl_otp _ (fun s a => ?_) _ _).trans ?_ | refine (foldl_pending _ (fun s a => ?_) _ _).trans ?_)
   all_goals (repeat' split)
   all_goals (try simp +zetaDelta)
   all_goals (try first | refine busWrite_otp fun s => ?_ | refine busWrite_pending fun s => ?_ | refine busRead_otp fun s => ?_ | refine busRead_pending fun s => ?_ | refine bar2Write_otp fun s => ?_ | refine bar2Write_pending fun s => ?_ | refine (foldl_otp _ (fun s a => ?_) _ _).trans ?_ | refine (foldl_pending _ (fun s a => ?_) _ _).trans ?_)
   all_goals (repeat' split)
   all_goals (try simp +zetaDelta))

@[simp ↓] theorem ctError_keep (s : State) (e o : Nat) : (ctError s e o).otp = s.otp ∧ (ctError s e o).pending = s.pending := by
  constructor <;>
  (unfold ctError
   try extract_lets
   repeat' split
   all_goals (try simp +zetaDelta))

@[simp ↓] theorem charge_keep (s : State) (p k q len : Nat) : (charge s p k q len).otp = s.otp ∧ (charge s p k q len).pending = s.pending := by
  constructor <;>
  (unfold charge
   try extract_lets
   repeat' split
   all_goals (try simp +zetaDelta))

@[simp ↓] theorem abortCut_keep (s : State) (p : Nat) : (abortCut s p).otp = s.otp ∧ (abortCut s p).pending = s.pending := by
  constructor <;>
  (unfold abortCut
   try extract_lets
   repeat' split
   all_goals (try first | refine busWrite_otp fun s => ?_ | refine busWrite_pending fun s => ?_ | refine busRead_otp fun s => ?_ | refine busRead_pending fun s => ?_ | refine bar2Write_otp fun s => ?_ | refine bar2Write_pending fun s => ?_ | refine (foldl_otp _ (fun s a => ?_) _ _).trans ?_ | refine (foldl_pending _ (fun s a => ?_) _ _).trans ?_)
   all_goals (repeat' split)
   all_goals (try simp +zetaDelta)
   all_goals (try first | refine busWrite_otp fun s => ?_ | refine busWrite_pending fun s => ?_ | refine busRead_otp fun s => ?_ | refine busRead_pending fun s => ?_ | refine bar2Write_otp fun s => ?_ | refine bar2Write_pending fun s => ?_ | refine (foldl_otp _ (fun s a => ?_) _ _).trans ?_ | refine (foldl_pending _ (fun s a => ?_) _ _).trans ?_)
   all_goals (repeat' split)
   all_goals (try simp +zetaDelta))

@[simp ↓] theorem clearPort_keep (low : Bool) (k : ResetKind) (s : State) (p : Nat) : (clearPort low k s p).otp = s.otp ∧ (clearPort low k s p).pending = s.pending := by
  constructor <;>
  (unfold clearPort
   try extract_lets
   repeat' split
   all_goals (try simp +zetaDelta))

/-! ### Machine/Ports.lean -/

@[simp ↓] theorem bodyPortQuery_keep (h : CmdHdr) (x0 : List Word) (s : State) : (bodyPortQuery h x0 s).1.otp = s.otp ∧ (bodyPortQuery h x0 s).1.pending = s.pending := by
  constructor <;>
  (unfold bodyPortQuery
   try extract_lets
   repeat' split
   all_goals (try simp +zetaDelta))

@[simp ↓] theorem bodyPortCountRead_keep (h : CmdHdr) (w : List Word) (s : State) : (bodyPortCountRead h w s).1.otp = s.otp ∧ (bodyPortCountRead h w s).1.pending = s.pending := by
  constructor <;>
  (unfold bodyPortCountRead
   try extract_lets
   repeat' split
   all_goals (try simp +zetaDelta))

@[simp ↓] theorem putSettings_keep (s : State) (p : Nat) (n : PortSet) : (putSettings s p n).otp = s.otp ∧ (putSettings s p n).pending = s.pending := by
  constructor <;>
  (unfold putSettings
   try extract_lets
   repeat' split
   all_goals (try simp +zetaDelta))

@[simp ↓] theorem bodyPortSet_keep (h : CmdHdr) (w : List Word) (s : State) : (bodyPortSet h w s).1.otp = s.otp ∧ (bodyPortSet h w s).1.pending = s.pending := by
  constructor <;>
  (unfold bodyPortSet
   try extract_lets
   repeat' split
   all_goals (try simp +zetaDelta))

@[simp ↓] theorem execPcsRestartDone_keep (p : Nat) (s : State) : OutKeeps s (execPcsRestartDone p s) := by
  unfold execPcsRestartDone
  try extract_lets
  apply OutKeeps.mk
  constructor <;>
  (repeat' split
   all_goals (try simp +zetaDelta))

@[simp ↓] theorem faultSeen_keep (s : State) (p : Nat) (remote : Bool) : (faultSeen s p remote).otp = s.otp ∧ (faultSeen s p remote).pending = s.pending := by
  constructor <;>
  (unfold faultSeen
   try extract_lets
   repeat' split
   all_goals (try simp +zetaDelta))

@[simp ↓] theorem sleepEnd_keep (s : State) (p : Nat) : (sleepEnd s p).otp = s.otp ∧ (sleepEnd s p).pending = s.pending := by
  constructor <;>
  (unfold sleepEnd
   try extract_lets
   repeat' split
   all_goals (try simp +zetaDelta))

@[simp ↓] theorem sleepDown_keep (s : State) (p : Nat) : (sleepDown s p).otp = s.otp ∧ (sleepDown s p).pending = s.pending := by
  constructor <;>
  (unfold sleepDown
   try extract_lets
   repeat' split
   all_goals (try simp +zetaDelta)
   all_goals (repeat' split)
   all_goals (try simp +zetaDelta))

@[simp ↓] theorem execLinkStateChange_keep (p : Nat) (up remote : Bool) (s : State) : OutKeeps s (execLinkStateChange p up remote s) := by
  unfold execLinkStateChange
  try extract_lets
  apply OutKeeps.mk
  constructor <;>
  (repeat' split
   all_goals (try simp +zetaDelta))

@[simp ↓] theorem execInBandControlWord_keep (p speed : Nat) (fullDuplex link : Bool) (s : State) : OutKeeps s (execInBandControlWord p speed fullDuplex link s) := by
  unfold execInBandControlWord
  try extract_lets
  apply OutKeeps.mk
  constructor <;>
  (repeat' split
   all_goals (try simp +zetaDelta))

@[simp ↓] theorem execLaneAlignLoss_keep (q : Nat) (s : State) : OutKeeps s (execLaneAlignLoss q s) := by
  unfold execLaneAlignLoss
  try extract_lets
  apply OutKeeps.mk
  constructor <;>
  (repeat' split
   all_goals (try first | refine busWrite_otp fun s => ?_ | refine busWrite_pending fun s => ?_ | refine busRead_otp fun s => ?_ | refine busRead_pending fun s => ?_ | refine bar2Write_otp fun s => ?_ | refine bar2Write_pending fun s => ?_ | refine (foldl_otp _ (fun s a => ?_) _ _).trans ?_ | refine (foldl_pending _ (fun s a => ?_) _ _).trans ?_)
   all_goals (repeat' split)
   all_goals (try simp +zetaDelta)
   all_goals (try first | refine busWrite_otp fun s => ?_ | refine busWrite_pending fun s => ?_ | refine busRead_otp fun s => ?_ | refine busRead_pending fun s => ?_ | refine bar2Write_otp fun s => ?_ | refine bar2Write_pending fun s => ?_ | refine (foldl_otp _ (fun s a => ?_) _ _).trans ?_ | refine (foldl_pending _ (fun s a => ?_) _ _).trans ?_)
   all_goals (repeat' split)
   all_goals (try simp +zetaDelta))

@[simp ↓] theorem parkRefused_keep (s : State) (target reason p : Nat) : (parkRefused s target reason p).otp = s.otp ∧ (parkRefused s target reason p).pending = s.pending := by
  constructor <;>
  (unfold parkRefused
   try extract_lets
   repeat' split
   all_goals (try simp +zetaDelta))

@[simp ↓] theorem bodyPortSleep_keep (h : CmdHdr) (x0 : List Word) (s : State) : (bodyPortSleep h x0 s).1.otp = s.otp ∧ (bodyPortSleep h x0 s).1.pending = s.pending := by
  constructor <;>
  (unfold bodyPortSleep
   try extract_lets
   repeat' split
   all_goals (try simp +zetaDelta))

@[simp ↓] theorem startFullRecal_keep (s : State) (q : Nat) : (startFullRecal s q).otp = s.otp ∧ (startFullRecal s q).pending = s.pending := by
  constructor <;>
  (unfold startFullRecal
   try extract_lets
   repeat' split
   all_goals (try first | refine busWrite_otp fun s => ?_ | refine busWrite_pending fun s => ?_ | refine busRead_otp fun s => ?_ | refine busRead_pending fun s => ?_ | refine bar2Write_otp fun s => ?_ | refine bar2Write_pending fun s => ?_ | refine (foldl_otp _ (fun s a => ?_) _ _).trans ?_ | refine (foldl_pending _ (fun s a => ?_) _ _).trans ?_)
   all_goals (repeat' split)
   all_goals (try simp +zetaDelta)
   all_goals (try first | refine busWrite_otp fun s => ?_ | refine busWrite_pending fun s => ?_ | refine busRead_otp fun s => ?_ | refine busRead_pending fun s => ?_ | refine bar2Write_otp fun s => ?_ | refine bar2Write_pending fun s => ?_ | refine (foldl_otp _ (fun s a => ?_) _ _).trans ?_ | refine (foldl_pending _ (fun s a => ?_) _ _).trans ?_)
   all_goals (repeat' split)
   all_goals (try simp +zetaDelta))

@[simp ↓] theorem bodyPortWake_keep (h : CmdHdr) (x0 : List Word) (s : State) : (bodyPortWake h x0 s).1.otp = s.otp ∧ (bodyPortWake h x0 s).1.pending = s.pending := by
  constructor <;>
  (unfold bodyPortWake
   try extract_lets
   repeat' split
   all_goals (try simp +zetaDelta))

@[simp ↓] theorem bodyLaneSet_keep (h : CmdHdr) (w : List Word) (s : State) : (bodyLaneSet h w s).1.otp = s.otp ∧ (bodyLaneSet h w s).1.pending = s.pending := by
  constructor <;>
  (unfold bodyLaneSet
   try extract_lets
   repeat' split
   all_goals (try simp +zetaDelta))

@[simp ↓] theorem bodyLaneRecal_keep (h : CmdHdr) (w : List Word) (s : State) : (bodyLaneRecal h w s).1.otp = s.otp ∧ (bodyLaneRecal h w s).1.pending = s.pending := by
  constructor <;>
  (unfold bodyLaneRecal
   try extract_lets
   repeat' split
   all_goals (try simp +zetaDelta))

@[simp ↓] theorem execRecalDone_keep (lane : Nat) (ok : Bool) (s : State) : OutKeeps s (execRecalDone lane ok s) := by
  unfold execRecalDone
  try extract_lets
  apply OutKeeps.mk
  constructor <;>
  (repeat' split
   all_goals (try first | refine busWrite_otp fun s => ?_ | refine busWrite_pending fun s => ?_ | refine busRead_otp fun s => ?_ | refine busRead_pending fun s => ?_ | refine bar2Write_otp fun s => ?_ | refine bar2Write_pending fun s => ?_ | refine (foldl_otp _ (fun s a => ?_) _ _).trans ?_ | refine (foldl_pending _ (fun s a => ?_) _ _).trans ?_)
   all_goals (repeat' split)
   all_goals (try simp +zetaDelta)
   all_goals (try first | refine busWrite_otp fun s => ?_ | refine busWrite_pending fun s => ?_ | refine busRead_otp fun s => ?_ | refine busRead_pending fun s => ?_ | refine bar2Write_otp fun s => ?_ | refine bar2Write_pending fun s => ?_ | refine (foldl_otp _ (fun s a => ?_) _ _).trans ?_ | refine (foldl_pending _ (fun s a => ?_) _ _).trans ?_)
   all_goals (repeat' split)
   all_goals (try simp +zetaDelta))

@[simp ↓] theorem execRecalRetry_keep (lane : Nat) (s : State) : OutKeeps s (execRecalRetry lane s) := by
  unfold execRecalRetry
  try extract_lets
  apply OutKeeps.mk
  constructor <;>
  (repeat' split
   all_goals (try simp +zetaDelta))

@[simp ↓] theorem setPause_keep (s : State) (p t c n : Nat) : (setPause s p t c n).otp = s.otp ∧ (setPause s p t c n).pending = s.pending := by
  constructor <;>
  (unfold setPause
   try extract_lets
   repeat' split
   all_goals (try simp +zetaDelta))

@[simp ↓] theorem execPauseReceive_keep (p : Nat) (s : State) : OutKeeps s (execPauseReceive p s) := by
  unfold execPauseReceive
  refine OutKeeps.mk ?_
  generalize (if hasPort s p then (port s p).txd.rxPause else []) = l
  cases l with
  | nil => exact ⟨rfl, rfl⟩
  | cons e r =>
    refine Keeps.trans (b := at16 (modPort s p fun x => { x with txd := { x.txd with rxPause := r } }) e.1) ?_ ?_
    · exact Keeps.trans (modPort_keep _ _ _) (at16_keep _ _)
    · exact ⟨foldl_otp _ (fun s c => (setPause_keep _ _ _ _ _).1) _ _, foldl_pending _ (fun s c => (setPause_keep _ _ _ _ _).2) _ _⟩

@[simp ↓] theorem execPfcReceive_keep (p : Nat) (s : State) : OutKeeps s (execPfcReceive p s) := by
  unfold execPfcReceive
  refine OutKeeps.mk ?_
  generalize (if hasPort s p then (port s p).txd.rxPfc else []) = l
  cases l with
  | nil => exact ⟨rfl, rfl⟩
  | cons e r =>
    refine Keeps.trans (b := at16 (modPort s p fun x => { x with txd := { x.txd with rxPfc := r } }) e.1) ?_ ?_
    · exact Keeps.trans (modPort_keep _ _ _) (at16_keep _ _)
    · exact ⟨foldl_otp _ (fun s c => by split <;> simp) _ _, foldl_pending _ (fun s c => by split <;> simp) _ _⟩

@[simp ↓] theorem execPauseTimerExpire_keep (p c : Nat) (s : State) : OutKeeps s (execPauseTimerExpire p c s) := by
  unfold execPauseTimerExpire
  try extract_lets
  apply OutKeeps.mk
  constructor <;>
  (repeat' split
   all_goals (try simp +zetaDelta))

@[simp ↓] theorem execPauseWd_keep (p c : Nat) (s : State) : OutKeeps s (execPauseWd p c s) := by
  unfold execPauseWd
  try extract_lets
  apply OutKeeps.mk
  constructor <;>
  (repeat' split
   all_goals (try simp +zetaDelta))

@[simp ↓] theorem execPauseRefresh_keep (p c : Nat) (s : State) : OutKeeps s (execPauseRefresh p c s) := by
  unfold execPauseRefresh
  try extract_lets
  apply OutKeeps.mk
  constructor <;>
  (repeat' split
   all_goals (try simp +zetaDelta))

@[simp ↓] theorem setCond_keep (s : State) (l : FaultLoc) (i : Nat) (b : Bool) : (setCond s l i b).otp = s.otp ∧ (setCond s l i b).pending = s.pending := by
  constructor <;>
  (unfold setCond
   try extract_lets
   repeat' split
   all_goals (try simp +zetaDelta))

@[simp ↓] theorem standCond_keep (s : State) (l : FaultLoc) (i : Nat) (b : Bool) : (standCond s l i b).otp = s.otp ∧ (standCond s l i b).pending = s.pending := by
  constructor <;>
  (unfold standCond
   try extract_lets
   repeat' split
   all_goals (try simp +zetaDelta)
   all_goals (repeat' split)
   all_goals (try simp +zetaDelta))

@[simp ↓] theorem trainDdr_keep (s : State) (d : Nat) : (trainDdr s d).otp = s.otp ∧ (trainDdr s d).pending = s.pending := by
  constructor <;>
  (unfold trainDdr
   try extract_lets
   repeat' split
   all_goals (try simp +zetaDelta)
   all_goals (repeat' split)
   all_goals (try simp +zetaDelta))

@[simp ↓] theorem execDdrAlert_keep (d : Nat) (persists : Bool) (s : State) : OutKeeps s (execDdrAlert d persists s) := by
  unfold execDdrAlert
  try extract_lets
  apply OutKeeps.mk
  constructor <;>
  (repeat' split
   all_goals (try simp +zetaDelta))

@[simp ↓] theorem execDdrEventn_keep (d : Nat) (low : Bool) (s : State) : OutKeeps s (execDdrEventn d low s) := by
  unfold execDdrEventn
  try extract_lets
  apply OutKeeps.mk
  constructor <;>
  (repeat' split
   all_goals (try simp +zetaDelta))

@[simp ↓] theorem execPortQuery_keep (h : CmdHdr) (w : List Word) (s : State) : OutKeeps s (execPortQuery h w s) :=
  OutKeeps.mk (runCmd_keep _ _ _ _ _ (bodyPortQuery_keep))

@[simp ↓] theorem execPortSet_keep (h : CmdHdr) (w : List Word) (s : State) : OutKeeps s (execPortSet h w s) :=
  OutKeeps.mk (runCmd_keep _ _ _ _ _ (bodyPortSet_keep))

@[simp ↓] theorem execPortSleep_keep (h : CmdHdr) (w : List Word) (s : State) : OutKeeps s (execPortSleep h w s) :=
  OutKeeps.mk (runCmd_keep _ _ _ _ _ (bodyPortSleep_keep))

@[simp ↓] theorem execPortWake_keep (h : CmdHdr) (w : List Word) (s : State) : OutKeeps s (execPortWake h w s) :=
  OutKeeps.mk (runCmd_keep _ _ _ _ _ (bodyPortWake_keep))

@[simp ↓] theorem execLaneSet_keep (h : CmdHdr) (w : List Word) (s : State) : OutKeeps s (execLaneSet h w s) :=
  OutKeeps.mk (runCmd_keep _ _ _ _ _ (bodyLaneSet_keep))

@[simp ↓] theorem execLaneRecal_keep (h : CmdHdr) (w : List Word) (s : State) : OutKeeps s (execLaneRecal h w s) :=
  OutKeeps.mk (runCmd_keep _ _ _ _ _ (bodyLaneRecal_keep))

@[simp ↓] theorem execPortCountRead_keep (h : CmdHdr) (w : List Word) (s : State) : OutKeeps s (execPortCountRead h w s) :=
  OutKeeps.mk (runCmd_keep _ _ _ _ _ (bodyPortCountRead_keep))

end Sys2Proof.Machine
end

