-- ==== Sys2Proof/Laws/KeepQueue.lean ====
section
/-! SUPPORT. What the operations and the meanings of CourseFrame, Queue, Course leave as they are: the OTP and the queue of waiting commands. -/

set_option linter.unusedTactic false
set_option linter.unreachableTactic false
set_option linter.unusedVariables false
set_option linter.unusedSimpArgs false
set_option linter.unnecessarySeqFocus false

namespace Sys2Proof.Machine

/-! ### Machine/Queue.lean -/

@[simp ↓] theorem bodyQueueQuery_keep (h : CmdHdr) (w : List Word) (s : State) : (bodyQueueQuery h w s).1.otp = s.otp ∧ (bodyQueueQuery h w s).1.pending = s.pending := by
  constructor <;>
  (unfold bodyQueueQuery
   try extract_lets
   repeat' split
   all_goals (try simp +zetaDelta))

@[simp ↓] theorem writeQueue_keep (fill : Bool) (s : State) (x : Nat × QCfg) : (writeQueue fill s x).otp = s.otp ∧ (writeQueue fill s x).pending = s.pending := by
  constructor <;>
  (unfold writeQueue
   try extract_lets
   repeat' split
   all_goals (try simp +zetaDelta))

theorem queueWriteOp_ok : TxnOk queueWriteOp where
  app := by
    intro h w c s a e
    simp only [queueWriteOp] at e
    (try extract_lets at e)
    repeat' split at e
    all_goals first | (cases e; constructor) | cases e
    all_goals try extract_lets
    all_goals (repeat' split)
    all_goals (try (simp +zetaDelta; done))
    all_goals (try first | refine busWrite_otp fun s => ?_ | refine busWrite_pending fun s => ?_ | refine busRead_otp fun s => ?_ | refine busRead_pending fun s => ?_ | refine bar2Write_otp fun s => ?_ | refine bar2Write_pending fun s => ?_ | refine (foldl_otp _ (fun s a => ?_) _ _).trans ?_ | refine (foldl_pending _ (fun s a => ?_) _ _).trans ?_)
    all_goals (repeat' split)
    all_goals (try (simp +zetaDelta; done))
    all_goals (try first | refine busWrite_otp fun s => ?_ | refine busWrite_pending fun s => ?_ | refine busRead_otp fun s => ?_ | refine busRead_pending fun s => ?_ | refine bar2Write_otp fun s => ?_ | refine bar2Write_pending fun s => ?_ | refine (foldl_otp _ (fun s a => ?_) _ _).trans ?_ | refine (foldl_pending _ (fun s a => ?_) _ _).trans ?_)
    all_goals (repeat' split)
    all_goals (simp +zetaDelta)
  und := by
    intro h w n m s
    constructor <;> ((try simp only [queueWriteOp]) <;> (try extract_lets) <;> (repeat' split))
    all_goals (try (simp +zetaDelta; done))
    all_goals (try first | refine busWrite_otp fun s => ?_ | refine busWrite_pending fun s => ?_ | refine busRead_otp fun s => ?_ | refine busRead_pending fun s => ?_ | refine bar2Write_otp fun s => ?_ | refine bar2Write_pending fun s => ?_ | refine (foldl_otp _ (fun s a => ?_) _ _).trans ?_ | refine (foldl_pending _ (fun s a => ?_) _ _).trans ?_)
    all_goals (repeat' split)
    all_goals (try (simp +zetaDelta; done))
    all_goals (try first | refine busWrite_otp fun s => ?_ | refine busWrite_pending fun s => ?_ | refine busRead_otp fun s => ?_ | refine busRead_pending fun s => ?_ | refine bar2Write_otp fun s => ?_ | refine bar2Write_pending fun s => ?_ | refine (foldl_otp _ (fun s a => ?_) _ _).trans ?_ | refine (foldl_pending _ (fun s a => ?_) _ _).trans ?_)
    all_goals (repeat' split)
    all_goals (simp +zetaDelta)

@[simp ↓] theorem bodyQueueFlush_keep (h : CmdHdr) (w : List Word) (s : State) : (bodyQueueFlush h w s).1.otp = s.otp ∧ (bodyQueueFlush h w s).1.pending = s.pending := by
  constructor <;>
  (unfold bodyQueueFlush
   try extract_lets
   repeat' split
   all_goals (try simp +zetaDelta))

@[simp ↓] theorem writeSvc_keep (fill : Bool) (s : State) (p k : Nat) (c : SvcCfg) : (writeSvc fill s p k c).otp = s.otp ∧ (writeSvc fill s p k c).pending = s.pending := by
  constructor <;>
  (unfold writeSvc
   try extract_lets
   repeat' split
   all_goals (try simp +zetaDelta))

theorem serviceSetOp_ok : TxnOk serviceSetOp where
  app := by
    intro h w c s a e
    simp only [serviceSetOp] at e
    (try extract_lets at e)
    repeat' split at e
    all_goals first | (cases e; constructor) | cases e
    all_goals try extract_lets
    all_goals (repeat' split)
    all_goals (try (simp +zetaDelta; done))
    all_goals (try first | refine busWrite_otp fun s => ?_ | refine busWrite_pending fun s => ?_ | refine busRead_otp fun s => ?_ | refine busRead_pending fun s => ?_ | refine bar2Write_otp fun s => ?_ | refine bar2Write_pending fun s => ?_ | refine (foldl_otp _ (fun s a => ?_) _ _).trans ?_ | refine (foldl_pending _ (fun s a => ?_) _ _).trans ?_)
    all_goals (repeat' split)
    all_goals (try (simp +zetaDelta; done))
    all_goals (try first | refine busWrite_otp fun s => ?_ | refine busWrite_pending fun s => ?_ | refine busRead_otp fun s => ?_ | refine busRead_pending fun s => ?_ | refine bar2Write_otp fun s => ?_ | refine bar2Write_pending fun s => ?_ | refine (foldl_otp _ (fun s a => ?_) _ _).trans ?_ | refine (foldl_pending _ (fun s a => ?_) _ _).trans ?_)
    all_goals (repeat' split)
    all_goals (simp +zetaDelta)
  und := by
    intro h w n m s
    constructor <;> ((try simp only [serviceSetOp]) <;> (try extract_lets) <;> (repeat' split))
    all_goals (try (simp +zetaDelta; done))
    all_goals (try first | refine busWrite_otp fun s => ?_ | refine busWrite_pending fun s => ?_ | refine busRead_otp fun s => ?_ | refine busRead_pending fun s => ?_ | refine bar2Write_otp fun s => ?_ | refine bar2Write_pending fun s => ?_ | refine (foldl_otp _ (fun s a => ?_) _ _).trans ?_ | refine (foldl_pending _ (fun s a => ?_) _ _).trans ?_)
    all_goals (repeat' split)
    all_goals (try (simp +zetaDelta; done))
    all_goals (try first | refine busWrite_otp fun s => ?_ | refine busWrite_pending fun s => ?_ | refine busRead_otp fun s => ?_ | refine busRead_pending fun s => ?_ | refine bar2Write_otp fun s => ?_ | refine bar2Write_pending fun s => ?_ | refine (foldl_otp _ (fun s a => ?_) _ _).trans ?_ | refine (foldl_pending _ (fun s a => ?_) _ _).trans ?_)
    all_goals (repeat' split)
    all_goals (simp +zetaDelta)

@[simp ↓] theorem writeShape_keep (fill : Bool) (s : State) (p : Nat) (c : PShape) : (writeShape fill s p c).otp = s.otp ∧ (writeShape fill s p c).pending = s.pending := by
  constructor <;>
  (unfold writeShape
   try extract_lets
   repeat' split
   all_goals (try simp +zetaDelta))

theorem portShapeOp_ok : TxnOk portShapeOp where
  app := by
    intro h w c s a e
    simp only [portShapeOp] at e
    (try extract_lets at e)
    repeat' split at e
    all_goals first | (cases e; constructor) | cases e
    all_goals try extract_lets
    all_goals (repeat' split)
    all_goals (try (simp +zetaDelta; done))
    all_goals (try first | refine busWrite_otp fun s => ?_ | refine busWrite_pending fun s => ?_ | refine busRead_otp fun s => ?_ | refine busRead_pending fun s => ?_ | refine bar2Write_otp fun s => ?_ | refine bar2Write_pending fun s => ?_ | refine (foldl_otp _ (fun s a => ?_) _ _).trans ?_ | refine (foldl_pending _ (fun s a => ?_) _ _).trans ?_)
    all_goals (repeat' split)
    all_goals (try (simp +zetaDelta; done))
    all_goals (try first | refine busWrite_otp fun s => ?_ | refine busWrite_pending fun s => ?_ | refine busRead_otp fun s => ?_ | refine busRead_pending fun s => ?_ | refine bar2Write_otp fun s => ?_ | refine bar2Write_pending fun s => ?_ | refine (foldl_otp _ (fun s a => ?_) _ _).trans ?_ | refine (foldl_pending _ (fun s a => ?_) _ _).trans ?_)
    all_goals (repeat' split)
    all_goals (simp +zetaDelta)
  und := by
    intro h w n m s
    constructor <;> ((try simp only [portShapeOp]) <;> (try extract_lets) <;> (repeat' split))
    all_goals (try (simp +zetaDelta; done))
    all_goals (try first | refine busWrite_otp fun s => ?_ | refine busWrite_pending fun s => ?_ | refine busRead_otp fun s => ?_ | refine busRead_pending fun s => ?_ | refine bar2Write_otp fun s => ?_ | refine bar2Write_pending fun s => ?_ | refine (foldl_otp _ (fun s a => ?_) _ _).trans ?_ | refine (foldl_pending _ (fun s a => ?_) _ _).trans ?_)
    all_goals (repeat' split)
    all_goals (try (simp +zetaDelta; done))
    all_goals (try first | refine busWrite_otp fun s => ?_ | refine busWrite_pending fun s => ?_ | refine busRead_otp fun s => ?_ | refine busRead_pending fun s => ?_ | refine bar2Write_otp fun s => ?_ | refine bar2Write_pending fun s => ?_ | refine (foldl_otp _ (fun s a => ?_) _ _).trans ?_ | refine (foldl_pending _ (fun s a => ?_) _ _).trans ?_)
    all_goals (repeat' split)
    all_goals (simp +zetaDelta)

@[simp ↓] theorem bodyBufferSet_keep (h : CmdHdr) (w : List Word) (s : State) : (bodyBufferSet h w s).1.otp = s.otp ∧ (bodyBufferSet h w s).1.pending = s.pending := by
  constructor <;>
  (unfold bodyBufferSet
   try extract_lets
   repeat' split
   all_goals (try simp +zetaDelta))

@[simp ↓] theorem bodyIngressSet_keep (h : CmdHdr) (w : List Word) (s : State) : (bodyIngressSet h w s).1.otp = s.otp ∧ (bodyIngressSet h w s).1.pending = s.pending := by
  constructor <;>
  (unfold bodyIngressSet
   try extract_lets
   repeat' split
   all_goals (try simp +zetaDelta))

@[simp ↓] theorem bodyBufferQuery_keep (h : CmdHdr) (x0 : List Word) (s : State) : (bodyBufferQuery h x0 s).1.otp = s.otp ∧ (bodyBufferQuery h x0 s).1.pending = s.pending := by
  constructor <;>
  (unfold bodyBufferQuery
   try extract_lets
   repeat' split
   all_goals (try simp +zetaDelta))

@[simp ↓] theorem refreshShapers_keep (s : State) (p : Nat) : (refreshShapers s p).otp = s.otp ∧ (refreshShapers s p).pending = s.pending := by
  constructor <;>
  (unfold refreshShapers
   try extract_lets
   repeat' split
   all_goals (try simp +zetaDelta))

@[simp ↓] theorem startTx_keep (s : State) (p : Nat) (f : Tx) : (startTx s p f).otp = s.otp ∧ (startTx s p f).pending = s.pending := by
  constructor <;>
  (unfold startTx
   try extract_lets
   repeat' split
   all_goals (try simp +zetaDelta))

@[simp ↓] theorem commitRounds_keep (s : State) (p k : Nat) (pre : Bool) (qs ws : List DItem) : (commitRounds s p k pre qs ws).otp = s.otp ∧ (commitRounds s p k pre qs ws).pending = s.pending := by
  constructor <;>
  (unfold commitRounds
   try extract_lets
   repeat' split
   all_goals (try simp +zetaDelta)
   all_goals (repeat' split)
   all_goals (try simp +zetaDelta))

@[simp ↓] theorem dropHeads_keep (win : Bool) (q n : Nat) (s : State) :
    (dropHeads win q n s).otp = s.otp ∧ (dropHeads win q n s).pending = s.pending := by
  induction n generalizing s with
  | zero => exact ⟨rfl, rfl⟩
  | succ n ih =>
    unfold dropHeads
    extract_lets p k x
    clear_value p k x
    cases (copies s q).head? with
    | none => exact ⟨rfl, rfl⟩
    | some h =>
      dsimp only
      constructor <;> (repeat' split) <;> simp [ih]

@[simp ↓] theorem testHead_keep (s : State) (q : Nat) : (testHead s q).otp = s.otp ∧ (testHead s q).pending = s.pending := by
  constructor <;>
  (unfold testHead
   try extract_lets
   repeat' split
   all_goals (try simp +zetaDelta))

@[simp ↓] theorem testHeads_keep (s : State) (p : Nat) : (testHeads s p).otp = s.otp ∧ (testHeads s p).pending = s.pending := by
  constructor <;>
  (unfold testHeads
   try extract_lets
   repeat' split
   all_goals (try simp +zetaDelta))

@[simp ↓] theorem dropLongCtl_keep (s : State) (p k : Nat) : (dropLongCtl s p k).otp = s.otp ∧ (dropLongCtl s p k).pending = s.pending := by
  constructor <;>
  (unfold dropLongCtl
   try extract_lets
   repeat' split
   all_goals (try simp +zetaDelta)
   all_goals (repeat' split)
   all_goals (try simp +zetaDelta))

@[simp ↓] theorem testLengths_keep (s : State) (p k : Nat) : (testLengths s p k).otp = s.otp ∧ (testLengths s p k).pending = s.pending := by
  constructor <;>
  (unfold testLengths
   try extract_lets
   repeat' split
   all_goals (try simp +zetaDelta))

@[simp ↓] theorem execValveSwapInstant_keep (p : Nat) (s : State) : OutKeeps s (execValveSwapInstant p s) := by
  unfold execValveSwapInstant
  try extract_lets
  apply OutKeeps.mk
  constructor <;>
  (repeat' split
   all_goals (try simp +zetaDelta))

@[simp ↓] theorem startCand_keep (s : State) (p k : Nat) (c : Cand) (ws : List DItem) : (startCand s p k c ws).otp = s.otp ∧ (startCand s p k c ws).pending = s.pending := by
  constructor <;>
  (unfold startCand
   try extract_lets
   repeat' split
   all_goals (try simp +zetaDelta))

@[simp ↓] theorem countFrame_keep (s : State) (p b b2 : Nat) (f : List Byte) :
    (countFrame s p b b2 f).otp = s.otp ∧ (countFrame s p b b2 f).pending = s.pending :=
  have one {s t : State} (o : Nat) (h : Keeps s t) : Keeps s (countPort t p o 1) := h.trans (countPort_keep t p o 1)
  one _ (one _ (one _ (count64_keep s _ _)))

@[simp ↓] theorem frameSent_keep (s : State) (p : Nat) (f : Tx) : (frameSent s p f).otp = s.otp ∧ (frameSent s p f).pending = s.pending := by
  constructor <;>
  (unfold frameSent
   try extract_lets
   repeat' split
   all_goals (try simp +zetaDelta)
   all_goals (repeat' split)
   all_goals (try simp +zetaDelta))

@[simp ↓] theorem closeTx_keep (s : State) (p : Nat) : (closeTx s p).otp = s.otp ∧ (closeTx s p).pending = s.pending := by
  constructor <;>
  (unfold closeTx
   try extract_lets
   repeat' split
   all_goals (try simp +zetaDelta))

@[simp ↓] theorem endTx_keep (s : State) (p : Nat) : (endTx s p).otp = s.otp ∧ (endTx s p).pending = s.pending := by
  constructor <;>
  (unfold endTx
   try extract_lets
   repeat' split
   all_goals (try simp +zetaDelta))

@[simp ↓] theorem settleTx_keep (s : State) (p : Nat) : (settleTx s p).otp = s.otp ∧ (settleTx s p).pending = s.pending := by
  constructor <;>
  (unfold settleTx
   try extract_lets
   repeat' split
   all_goals (try simp +zetaDelta))

@[simp ↓] theorem execFrameTransmitEnd_keep (p : Nat) (s : State) : OutKeeps s (execFrameTransmitEnd p s) := by
  unfold execFrameTransmitEnd
  try extract_lets
  apply OutKeeps.mk
  constructor <;>
  (repeat' split
   all_goals (try simp +zetaDelta))

theorem startMac_keep (s : State) (p : Nat) {a : State} (e : startMac s p = some a) : a.otp = s.otp ∧ a.pending = s.pending := by
  unfold startMac at e
  (try extract_lets at e)
  repeat' split at e
  all_goals (try dsimp only at e)
  all_goals (repeat' split at e)
  all_goals first
    | (simp only [Option.some.injEq, Except.ok.injEq, Except.error.injEq] at e; subst e; constructor <;> simp +zetaDelta; done)
    | (exfalso; revert e; simp; done)

theorem resumePend_keep (s : State) (p : Nat) {a : State} (e : resumePend s p = some a) : a.otp = s.otp ∧ a.pending = s.pending := by
  unfold resumePend at e
  (try extract_lets at e)
  repeat' split at e
  all_goals (try dsimp only at e)
  all_goals (repeat' split at e)
  all_goals first
    | (simp only [Option.some.injEq, Except.ok.injEq, Except.error.injEq] at e; subst e; constructor <;> simp +zetaDelta; done)
    | (exfalso; revert e; simp; done)

theorem execEgressSelect_keep (p : Nat) (s : State) : OutKeeps s (execEgressSelect p s) := by
  unfold execEgressSelect
  extract_lets s0
  refine OutKeeps.mk ?_
  have h0 : Keeps s s0 := settleTx_keep _ _
  clear_value s0
  show Keeps s _
  split
  · exact h0
  · rename_i s1 s2 x t ready _
    have h2 : Keeps s s2 := h0.trans ((Keeps.trans (refreshShapers_keep _ _)
      ⟨foldl_otp _ (fun s a => (testLengths_keep _ _ _).1) _ _, foldl_pending _ (fun s a => (testLengths_keep _ _ _).2) _ _⟩))
    clear_value s2 x t ready
    refine Keeps.trans h2 ?_
    split
    · split
      · exact modPort_keep _ _ _
      · exact .refl _
    · split
      · exact .refl _
      · split
        · cases hr : resumePend s2 p with
          | none => exact .refl _
          | some y => exact resumePend_keep _ _ hr
        split
        · rename_i h; exact startMac_keep _ _ h
        · split
          · exact startCand_keep _ _ _ _ _
          · split
            · rename_i h; exact resumePend_keep _ _ h
            · split
              · exact .refl _
              · split
                · exact startCand_keep _ _ _ _ _
                · exact .refl _

@[simp ↓] theorem execSpillReadback_keep (q : Nat) (s : State) : OutKeeps s (execSpillReadback q s) := by
  unfold execSpillReadback
  try extract_lets
  apply OutKeeps.mk
  constructor <;>
  (repeat' split
   all_goals (try simp +zetaDelta)
   all_goals (repeat' split)
   all_goals (try simp +zetaDelta))

@[simp ↓] theorem sweepQueue_keep (s : State) (q : Nat) : (sweepQueue s q).otp = s.otp ∧ (sweepQueue s q).pending = s.pending := by
  constructor <;>
  (unfold sweepQueue
   try extract_lets
   repeat' split
   all_goals (try simp +zetaDelta))

@[simp ↓] theorem sweepService_keep (s : State) (p k : Nat) : (sweepService s p k).otp = s.otp ∧ (sweepService s p k).pending = s.pending := by
  constructor <;>
  (unfold sweepService
   try extract_lets
   repeat' split
   all_goals (try simp +zetaDelta))

@[simp ↓] theorem sweepPort_keep (s : State) (p : Nat) : (sweepPort s p).otp = s.otp ∧ (sweepPort s p).pending = s.pending := by
  constructor <;>
  (unfold sweepPort
   try extract_lets
   repeat' split
   all_goals (try simp +zetaDelta))

@[simp ↓] theorem execQueueQuery_keep (h : CmdHdr) (w : List Word) (s : State) : OutKeeps s (execQueueQuery h w s) :=
  OutKeeps.mk (runCmd_keep _ _ _ _ _ (bodyQueueQuery_keep))

@[simp ↓] theorem execQueueWrite_keep (h : CmdHdr) (w : List Word) (s : State) : OutKeeps s (execQueueWrite h w s) :=
  OutKeeps.mk (runCmd_keep _ _ _ _ _ (bodyJoin_keep _ _ queueWriteOp_ok))

@[simp ↓] theorem execQueueFlush_keep (h : CmdHdr) (w : List Word) (s : State) : OutKeeps s (execQueueFlush h w s) :=
  OutKeeps.mk (runCmd_keep _ _ _ _ _ (bodyQueueFlush_keep))

@[simp ↓] theorem execServiceSet_keep (h : CmdHdr) (w : List Word) (s : State) : OutKeeps s (execServiceSet h w s) :=
  OutKeeps.mk (runCmd_keep _ _ _ _ _ (bodyJoin_keep _ _ serviceSetOp_ok))

@[simp ↓] theorem execPortShapeSet_keep (h : CmdHdr) (w : List Word) (s : State) : OutKeeps s (execPortShapeSet h w s) :=
  OutKeeps.mk (runCmd_keep _ _ _ _ _ (bodyJoin_keep _ _ portShapeOp_ok))

@[simp ↓] theorem execBufferSet_keep (h : CmdHdr) (w : List Word) (s : State) : OutKeeps s (execBufferSet h w s) :=
  OutKeeps.mk (runCmd_keep _ _ _ _ _ (bodyBufferSet_keep))

@[simp ↓] theorem execIngressSet_keep (h : CmdHdr) (w : List Word) (s : State) : OutKeeps s (execIngressSet h w s) :=
  OutKeeps.mk (runCmd_keep _ _ _ _ _ (bodyIngressSet_keep))

@[simp ↓] theorem execBufferQuery_keep (h : CmdHdr) (w : List Word) (s : State) : OutKeeps s (execBufferQuery h w s) :=
  OutKeeps.mk (runCmd_keep _ _ _ _ _ (bodyBufferQuery_keep))

/-! ### Machine/Course.lean -/

@[simp ↓] theorem modCourse_keep (s : State) (o : Nat) (f : CourseDyn → CourseDyn) : (modCourse s o f).otp = s.otp ∧ (modCourse s o f).pending = s.pending := by
  constructor <;>
  (unfold modCourse
   try extract_lets
   repeat' split
   all_goals (try simp +zetaDelta))

@[simp ↓] theorem traceCourse_keep (s : State) (o old : Nat) : (traceCourse s o old).otp = s.otp ∧ (traceCourse s o old).pending = s.pending := by
  constructor <;>
  (unfold traceCourse
   try extract_lets
   repeat' split
   all_goals (try simp +zetaDelta))

@[simp ↓] theorem setCourse_keep (s : State) (o st cause : Nat) : (setCourse s o st cause).otp = s.otp ∧ (setCourse s o st cause).pending = s.pending := by
  constructor <;>
  (unfold setCourse
   try extract_lets
   repeat' split
   all_goals (try simp +zetaDelta))

@[simp ↓] theorem clearInStatus_keep (s : State) (o : Nat) : (clearInStatus s o).otp = s.otp ∧ (clearInStatus s o).pending = s.pending := by
  constructor <;>
  (unfold clearInStatus
   try extract_lets
   repeat' split
   all_goals (try simp +zetaDelta))

@[simp ↓] theorem enterSafe_keep (s : State) (o cause : Nat) : (enterSafe s o cause).otp = s.otp ∧ (enterSafe s o cause).pending = s.pending := by
  constructor <;>
  (unfold enterSafe
   try extract_lets
   repeat' split
   all_goals (try simp +zetaDelta))

@[simp ↓] theorem doSafe_keep (s : State) (o cause : Nat) : (doSafe s o cause).otp = s.otp ∧ (doSafe s o cause).pending = s.pending := by
  constructor <;>
  (unfold doSafe
   try extract_lets
   repeat' split
   all_goals (try simp +zetaDelta))

@[simp ↓] theorem safeReq_keep (s : State) (p cause : Nat) : (safeReq s p cause).otp = s.otp ∧ (safeReq s p cause).pending = s.pending := by
  constructor <;>
  (unfold safeReq
   try extract_lets
   repeat' split
   all_goals (try simp +zetaDelta))

@[simp ↓] theorem sendsAgain_keep (s : State) (o : Nat) : (sendsAgain s o).otp = s.otp ∧ (sendsAgain s o).pending = s.pending := by
  constructor <;>
  (unfold sendsAgain
   try extract_lets
   repeat' split
   all_goals (try simp +zetaDelta))

@[simp ↓] theorem swapNow_keep (s : State) (o : Nat) : (swapNow s o).otp = s.otp ∧ (swapNow s o).pending = s.pending := by
  constructor <;>
  (unfold swapNow
   try extract_lets
   repeat' split
   all_goals (try simp +zetaDelta))

@[simp ↓] theorem courseDue_keep (s : State) (o t : Nat) : (courseDue s o t).otp = s.otp ∧ (courseDue s o t).pending = s.pending := by
  constructor <;>
  (unfold courseDue
   try extract_lets
   repeat' split
   all_goals (try simp +zetaDelta))

@[simp ↓] theorem ageEntry_keep (s : State) (o e x : Nat) : (ageEntry s o e x).otp = s.otp ∧ (ageEntry s o e x).pending = s.pending := by
  constructor <;>
  (unfold ageEntry
   try extract_lets
   repeat' split
   all_goals (try simp +zetaDelta))

@[simp ↓] theorem lateIn_keep (s : State) (t : Nat) : (lateIn s t).otp = s.otp ∧ (lateIn s t).pending = s.pending := by
  constructor <;>
  (unfold lateIn
   try extract_lets
   repeat' split
   all_goals (try simp +zetaDelta))

@[simp ↓] theorem closeFrame_keep (s : State) (o f t : Nat) : (closeFrame s o f t).otp = s.otp ∧ (closeFrame s o f t).pending = s.pending := by
  constructor <;>
  (unfold closeFrame
   try extract_lets
   repeat' split
   all_goals (try simp +zetaDelta))

@[simp ↓] theorem arrCloseOf_keep (s : State) (p f n : Nat) : (arrCloseOf s p f n).otp = s.otp ∧ (arrCloseOf s p f n).pending = s.pending := by
  constructor <;>
  (unfold arrCloseOf
   try extract_lets
   repeat' split
   all_goals (try simp +zetaDelta))

@[simp ↓] theorem execArrClose_keep (p f n : Nat) (s : State) : OutKeeps s (execArrClose p f n s) := by
  unfold execArrClose
  try extract_lets
  apply OutKeeps.mk
  constructor <;>
  (repeat' split
   all_goals (try simp +zetaDelta))

@[simp ↓] theorem execFollowerArrClose_keep (p f n : Nat) (s : State) : OutKeeps s (execFollowerArrClose p f n s) := by
  unfold execFollowerArrClose
  try extract_lets
  apply OutKeeps.mk
  constructor <;>
  (repeat' split
   all_goals (try simp +zetaDelta))

@[simp ↓] theorem silence_keep (s : State) (o : Nat) : (silence s o).otp = s.otp ∧ (silence s o).pending = s.pending := by
  constructor <;>
  (unfold silence
   try extract_lets
   repeat' split
   all_goals (try simp +zetaDelta))

@[simp ↓] theorem execCourseBoundary_keep (p n : Nat) (s : State) : OutKeeps s (execCourseBoundary p n s) := by
  unfold execCourseBoundary
  try extract_lets
  apply OutKeeps.mk
  constructor <;>
  (repeat' split
   all_goals (try simp +zetaDelta))

@[simp ↓] theorem raiseForeign_keep (s : State) (o : Nat) : (raiseForeign s o).otp = s.otp ∧ (raiseForeign s o).pending = s.pending := by
  constructor <;>
  (unfold raiseForeign
   try extract_lets
   repeat' split
   all_goals (try simp +zetaDelta))

@[simp ↓] theorem foreignTest_keep (s : State) (o : Nat) : (foreignTest s o).otp = s.otp ∧ (foreignTest s o).pending = s.pending := by
  constructor <;>
  (unfold foreignTest
   try extract_lets
   repeat' split
   all_goals (try simp +zetaDelta))

@[simp ↓] theorem regionsAgain_keep (s : State) : (regionsAgain s).otp = s.otp ∧ (regionsAgain s).pending = s.pending := by
  constructor <;>
  (unfold regionsAgain
   try extract_lets
   repeat' split
   all_goals (try simp +zetaDelta)
   all_goals (repeat' split)
   all_goals (try simp +zetaDelta))

@[simp ↓] theorem execCourseBuildStart_keep (p f n : Nat) (s : State) : OutKeeps s (execCourseBuildStart p f n s) := by
  unfold execCourseBuildStart
  try extract_lets
  apply OutKeeps.mk
  constructor <;>
  (repeat' split
   all_goals (try simp +zetaDelta))

@[simp ↓] theorem countSafeCycle_keep (s : State) (o n : Nat) : (countSafeCycle s o n).otp = s.otp ∧ (countSafeCycle s o n).pending = s.pending := by
  constructor <;>
  (unfold countSafeCycle
   try extract_lets
   repeat' split
   all_goals (try simp +zetaDelta))

@[simp ↓] theorem execCourseLaunch_keep (p f n : Nat) (s : State) : OutKeeps s (execCourseLaunch p f n s) := by
  unfold execCourseLaunch
  try extract_lets
  apply OutKeeps.mk
  constructor <;>
  (repeat' split
   all_goals (try simp +zetaDelta)
   all_goals (repeat' split)
   all_goals (try simp +zetaDelta))

@[simp ↓] theorem courseFrameIn_keep (s : State) (p t16 : Nat) (bytes : List Byte) : (courseFrameIn s p t16 bytes).otp = s.otp ∧ (courseFrameIn s p t16 bytes).pending = s.pending := by
  constructor <;>
  (unfold courseFrameIn
   try extract_lets
   repeat' split
   all_goals (try simp +zetaDelta))

@[simp ↓] theorem takeBrick_keep (s : State) (o p e x a : Nat) (planeB : Bool) (d : List Byte) : (takeBrick s o p e x a planeB d).otp = s.otp ∧ (takeBrick s o p e x a planeB d).pending = s.pending := by
  constructor <;>
  (unfold takeBrick
   try extract_lets
   repeat' split
   all_goals (try simp +zetaDelta))

@[simp ↓] theorem mergeBrick_keep (s : State) (o p e x a : Nat) (planeB : Bool) (d : List Byte) : (mergeBrick s o p e x a planeB d).1.otp = s.otp ∧ (mergeBrick s o p e x a planeB d).1.pending = s.pending := by
  constructor <;>
  (unfold mergeBrick
   try extract_lets
   repeat' split
   all_goals (try simp +zetaDelta))

@[simp ↓] theorem brickIn_keep (s : State) (p j : Nat) : (brickIn s p j).otp = s.otp ∧ (brickIn s p j).pending = s.pending := by
  constructor <;>
  (unfold brickIn
   try extract_lets
   repeat' split
   all_goals (try simp +zetaDelta))

@[simp ↓] theorem execBrickReceive_keep (p j : Nat) (s : State) : OutKeeps s (execBrickReceive p j s) := by
  unfold execBrickReceive
  try extract_lets
  apply OutKeeps.mk
  constructor <;>
  (repeat' split
   all_goals (try simp +zetaDelta))

@[simp ↓] theorem execReflexActionApply_keep (s : State) : OutKeeps s (execReflexActionApply s) := by
  unfold execReflexActionApply
  try extract_lets
  apply OutKeeps.mk
  constructor <;>
  (repeat' split
   all_goals (try simp +zetaDelta))

@[simp ↓] theorem commitBoundary_keep (s : State) (o tb c : Nat) : (commitBoundary s o tb c).1.otp = s.otp ∧ (commitBoundary s o tb c).1.pending = s.pending := by
  constructor <;>
  (unfold commitBoundary
   try extract_lets
   repeat' split
   all_goals (try simp +zetaDelta))

theorem courseStartOp_ok : TxnOk courseStartOp where
  app := by
    intro h w c s a e
    simp only [courseStartOp] at e
    (try extract_lets at e)
    repeat' split at e
    all_goals first | (cases e; constructor) | cases e
    all_goals try extract_lets
    all_goals (repeat' split)
    all_goals (try (simp +zetaDelta; done))
    all_goals (try first | refine busWrite_otp fun s => ?_ | refine busWrite_pending fun s => ?_ | refine busRead_otp fun s => ?_ | refine busRead_pending fun s => ?_ | refine bar2Write_otp fun s => ?_ | refine bar2Write_pending fun s => ?_ | refine (foldl_otp _ (fun s a => ?_) _ _).trans ?_ | refine (foldl_pending _ (fun s a => ?_) _ _).trans ?_)
    all_goals (repeat' split)
    all_goals (try (simp +zetaDelta; done))
    all_goals (try first | refine busWrite_otp fun s => ?_ | refine busWrite_pending fun s => ?_ | refine busRead_otp fun s => ?_ | refine busRead_pending fun s => ?_ | refine bar2Write_otp fun s => ?_ | refine bar2Write_pending fun s => ?_ | refine (foldl_otp _ (fun s a => ?_) _ _).trans ?_ | refine (foldl_pending _ (fun s a => ?_) _ _).trans ?_)
    all_goals (repeat' split)
    all_goals (simp +zetaDelta)
  und := by
    intro h w n m s
    constructor <;> ((try simp only [courseStartOp]) <;> (try extract_lets) <;> (repeat' split))
    all_goals (try (simp +zetaDelta; done))
    all_goals (try first | refine busWrite_otp fun s => ?_ | refine busWrite_pending fun s => ?_ | refine busRead_otp fun s => ?_ | refine busRead_pending fun s => ?_ | refine bar2Write_otp fun s => ?_ | refine bar2Write_pending fun s => ?_ | refine (foldl_otp _ (fun s a => ?_) _ _).trans ?_ | refine (foldl_pending _ (fun s a => ?_) _ _).trans ?_)
    all_goals (repeat' split)
    all_goals (try (simp +zetaDelta; done))
    all_goals (try first | refine busWrite_otp fun s => ?_ | refine busWrite_pending fun s => ?_ | refine busRead_otp fun s => ?_ | refine busRead_pending fun s => ?_ | refine bar2Write_otp fun s => ?_ | refine bar2Write_pending fun s => ?_ | refine (foldl_otp _ (fun s a => ?_) _ _).trans ?_ | refine (foldl_pending _ (fun s a => ?_) _ _).trans ?_)
    all_goals (repeat' split)
    all_goals (simp +zetaDelta)

theorem courseSwapOp_ok : TxnOk courseSwapOp where
  app := by
    intro h w c s a e
    simp only [courseSwapOp] at e
    (try extract_lets at e)
    repeat' split at e
    all_goals first | (cases e; constructor) | cases e
    all_goals try extract_lets
    all_goals (repeat' split)
    all_goals (try (simp +zetaDelta; done))
    all_goals (try first | refine busWrite_otp fun s => ?_ | refine busWrite_pending fun s => ?_ | refine busRead_otp fun s => ?_ | refine busRead_pending fun s => ?_ | refine bar2Write_otp fun s => ?_ | refine bar2Write_pending fun s => ?_ | refine (foldl_otp _ (fun s a => ?_) _ _).trans ?_ | refine (foldl_pending _ (fun s a => ?_) _ _).trans ?_)
    all_goals (repeat' split)
    all_goals (try (simp +zetaDelta; done))
    all_goals (try first | refine busWrite_otp fun s => ?_ | refine busWrite_pending fun s => ?_ | refine busRead_otp fun s => ?_ | refine busRead_pending fun s => ?_ | refine bar2Write_otp fun s => ?_ | refine bar2Write_pending fun s => ?_ | refine (foldl_otp _ (fun s a => ?_) _ _).trans ?_ | refine (foldl_pending _ (fun s a => ?_) _ _).trans ?_)
    all_goals (repeat' split)
    all_goals (simp +zetaDelta)
  und := by
    intro h w n m s
    constructor <;> ((try simp only [courseSwapOp]) <;> (try extract_lets) <;> (repeat' split))
    all_goals (try (simp +zetaDelta; done))
    all_goals (try first | refine busWrite_otp fun s => ?_ | refine busWrite_pending fun s => ?_ | refine busRead_otp fun s => ?_ | refine busRead_pending fun s => ?_ | refine bar2Write_otp fun s => ?_ | refine bar2Write_pending fun s => ?_ | refine (foldl_otp _ (fun s a => ?_) _ _).trans ?_ | refine (foldl_pending _ (fun s a => ?_) _ _).trans ?_)
    all_goals (repeat' split)
    all_goals (try (simp +zetaDelta; done))
    all_goals (try first | refine busWrite_otp fun s => ?_ | refine busWrite_pending fun s => ?_ | refine busRead_otp fun s => ?_ | refine busRead_pending fun s => ?_ | refine bar2Write_otp fun s => ?_ | refine bar2Write_pending fun s => ?_ | refine (foldl_otp _ (fun s a => ?_) _ _).trans ?_ | refine (foldl_pending _ (fun s a => ?_) _ _).trans ?_)
    all_goals (repeat' split)
    all_goals (simp +zetaDelta)

theorem courseResumeOp_ok : TxnOk courseResumeOp where
  app := by
    intro h w c s a e
    simp only [courseResumeOp] at e
    (try extract_lets at e)
    repeat' split at e
    all_goals first | (cases e; constructor) | cases e
    all_goals try extract_lets
    all_goals (repeat' split)
    all_goals (try (simp +zetaDelta; done))
    all_goals (try first | refine busWrite_otp fun s => ?_ | refine busWrite_pending fun s => ?_ | refine busRead_otp fun s => ?_ | refine busRead_pending fun s => ?_ | refine bar2Write_otp fun s => ?_ | refine bar2Write_pending fun s => ?_ | refine (foldl_otp _ (fun s a => ?_) _ _).trans ?_ | refine (foldl_pending _ (fun s a => ?_) _ _).trans ?_)
    all_goals (repeat' split)
    all_goals (try (simp +zetaDelta; done))
    all_goals (try first | refine busWrite_otp fun s => ?_ | refine busWrite_pending fun s => ?_ | refine busRead_otp fun s => ?_ | refine busRead_pending fun s => ?_ | refine bar2Write_otp fun s => ?_ | refine bar2Write_pending fun s => ?_ | refine (foldl_otp _ (fun s a => ?_) _ _).trans ?_ | refine (foldl_pending _ (fun s a => ?_) _ _).trans ?_)
    all_goals (repeat' split)
    all_goals (simp +zetaDelta)
  und := by
    intro h w n m s
    constructor <;> ((try simp only [courseResumeOp]) <;> (try extract_lets) <;> (repeat' split))
    all_goals (try (simp +zetaDelta; done))
    all_goals (try first | refine busWrite_otp fun s => ?_ | refine busWrite_pending fun s => ?_ | refine busRead_otp fun s => ?_ | refine busRead_pending fun s => ?_ | refine bar2Write_otp fun s => ?_ | refine bar2Write_pending fun s => ?_ | refine (foldl_otp _ (fun s a => ?_) _ _).trans ?_ | refine (foldl_pending _ (fun s a => ?_) _ _).trans ?_)
    all_goals (repeat' split)
    all_goals (try (simp +zetaDelta; done))
    all_goals (try first | refine busWrite_otp fun s => ?_ | refine busWrite_pending fun s => ?_ | refine busRead_otp fun s => ?_ | refine busRead_pending fun s => ?_ | refine bar2Write_otp fun s => ?_ | refine bar2Write_pending fun s => ?_ | refine (foldl_otp _ (fun s a => ?_) _ _).trans ?_ | refine (foldl_pending _ (fun s a => ?_) _ _).trans ?_)
    all_goals (repeat' split)
    all_goals (simp +zetaDelta)

theorem courseStopOp_ok : TxnOk courseStopOp where
  app := by
    intro h w c s a e
    simp only [courseStopOp] at e
    (try extract_lets at e)
    repeat' split at e
    all_goals first | (cases e; constructor) | cases e
    all_goals try extract_lets
    all_goals (repeat' split)
    all_goals (try (simp +zetaDelta; done))
    all_goals (try first | refine busWrite_otp fun s => ?_ | refine busWrite_pending fun s => ?_ | refine busRead_otp fun s => ?_ | refine busRead_pending fun s => ?_ | refine bar2Write_otp fun s => ?_ | refine bar2Write_pending fun s => ?_ | refine (foldl_otp _ (fun s a => ?_) _ _).trans ?_ | refine (foldl_pending _ (fun s a => ?_) _ _).trans ?_)
    all_goals (repeat' split)
    all_goals (try (simp +zetaDelta; done))
    all_goals (try first | refine busWrite_otp fun s => ?_ | refine busWrite_pending fun s => ?_ | refine busRead_otp fun s => ?_ | refine busRead_pending fun s => ?_ | refine bar2Write_otp fun s => ?_ | refine bar2Write_pending fun s => ?_ | refine (foldl_otp _ (fun s a => ?_) _ _).trans ?_ | refine (foldl_pending _ (fun s a => ?_) _ _).trans ?_)
    all_goals (repeat' split)
    all_goals (simp +zetaDelta)
  und := by
    intro h w n m s
    constructor <;> ((try simp only [courseStopOp]) <;> (try extract_lets) <;> (repeat' split))
    all_goals (try (simp +zetaDelta; done))
    all_goals (try first | refine busWrite_otp fun s => ?_ | refine busWrite_pending fun s => ?_ | refine busRead_otp fun s => ?_ | refine busRead_pending fun s => ?_ | refine bar2Write_otp fun s => ?_ | refine bar2Write_pending fun s => ?_ | refine (foldl_otp _ (fun s a => ?_) _ _).trans ?_ | refine (foldl_pending _ (fun s a => ?_) _ _).trans ?_)
    all_goals (repeat' split)
    all_goals (try (simp +zetaDelta; done))
    all_goals (try first | refine busWrite_otp fun s => ?_ | refine busWrite_pending fun s => ?_ | refine busRead_otp fun s => ?_ | refine busRead_pending fun s => ?_ | refine bar2Write_otp fun s => ?_ | refine bar2Write_pending fun s => ?_ | refine (foldl_otp _ (fun s a => ?_) _ _).trans ?_ | refine (foldl_pending _ (fun s a => ?_) _ _).trans ?_)
    all_goals (repeat' split)
    all_goals (simp +zetaDelta)

@[simp ↓] theorem doCourseSafe_keep (h : CmdHdr) (x0 : List Word) (s : State) : (doCourseSafe h x0 s).otp = s.otp ∧ (doCourseSafe h x0 s).pending = s.pending := by
  constructor <;>
  (unfold doCourseSafe
   try extract_lets
   repeat' split
   all_goals (try simp +zetaDelta))

@[simp ↓] theorem doSafeHere_keep (h : CmdHdr) (w : List Word) (s : State) : (doSafeHere h w s).otp = s.otp ∧ (doSafeHere h w s).pending = s.pending :=
  Keeps.ite (safeReq_keep _ _ _) (doCourseSafe_keep _ _ _)

@[simp ↓] theorem execCourseStart_keep (h : CmdHdr) (w : List Word) (s : State) : OutKeeps s (execCourseStart h w s) :=
  OutKeeps.mk (runLater_keep _ _ _ _ _ (bodyTxn_keep _ _ courseStartOp_ok))

@[simp ↓] theorem execCourseSwap_keep (h : CmdHdr) (w : List Word) (s : State) : OutKeeps s (execCourseSwap h w s) :=
  OutKeeps.mk (runLater_keep _ _ _ _ _ (bodyTxnFwd_keep _ _ _ courseSwapOp_ok))

@[simp ↓] theorem execCourseSafe_keep (h : CmdHdr) (w : List Word) (s : State) : OutKeeps s (execCourseSafe h w s) :=
  OutKeeps.mk (runCmd_keep _ _ _ _ _ (bodyFwd_keep _ _ _ doSafeHere_keep))

@[simp ↓] theorem execCourseResume_keep (h : CmdHdr) (w : List Word) (s : State) : OutKeeps s (execCourseResume h w s) :=
  OutKeeps.mk (runLater_keep _ _ _ _ _ (bodyTxnFwd_keep _ _ _ courseResumeOp_ok))

@[simp ↓] theorem execCourseStop_keep (h : CmdHdr) (w : List Word) (s : State) : OutKeeps s (execCourseStop h w s) :=
  OutKeeps.mk (runLater_keep _ _ _ _ _ (bodyTxnFwd_keep _ _ _ courseStopOp_ok))

end Sys2Proof.Machine
end

