-- ==== Sys2Proof/Laws/KeepFlow.lean ====
section
/-! SUPPORT. What the operations and the meanings of Flow, Ingress, Hyith leave as they are: the OTP and the queue of waiting commands. -/

set_option linter.unusedTactic false
set_option linter.unreachableTactic false
set_option linter.unusedVariables false
set_option linter.unusedSimpArgs false
set_option linter.unnecessarySeqFocus false

namespace Sys2Proof.Machine

/-! ### Machine/Flow.lean -/

@[simp ↓] theorem setFlow_keep (s : State) (f : Nat) (c : Ctx) : (setFlow s f c).otp = s.otp ∧ (setFlow s f c).pending = s.pending := by
  constructor <;>
  (unfold setFlow
   try extract_lets
   repeat' split
   all_goals (try simp +zetaDelta))

@[simp ↓] theorem modFdie_keep (s : State) (d : Nat) (f : FlowDie → FlowDie) : (modFdie s d f).otp = s.otp ∧ (modFdie s d f).pending = s.pending := by
  constructor <;>
  (unfold modFdie
   try extract_lets
   repeat' split
   all_goals (try simp +zetaDelta))

@[simp ↓] theorem flowEvent_keep (s : State) (f k : Nat) : (flowEvent s f k).otp = s.otp ∧ (flowEvent s f k).pending = s.pending := by
  constructor <;>
  (unfold flowEvent
   try extract_lets
   repeat' split
   all_goals (try simp +zetaDelta))

@[simp ↓] theorem countCtx_keep (s : State) (self f i n : Nat) : (countCtx s self f i n).otp = s.otp ∧ (countCtx s self f i n).pending = s.pending := by
  constructor <;>
  (unfold countCtx
   try extract_lets
   repeat' split
   all_goals (try simp +zetaDelta))

@[simp ↓] theorem countBytes_keep (s : State) (self f n : Nat) : (countBytes s self f n).otp = s.otp ∧ (countBytes s self f n).pending = s.pending := by
  constructor <;>
  (unfold countBytes
   try extract_lets
   repeat' split
   all_goals (try simp +zetaDelta))

@[simp ↓] theorem countHalf_keep (s : State) (self f half : Nat) : (countHalf s self f half).otp = s.otp ∧ (countHalf s self f half).pending = s.pending := by
  constructor <;>
  (unfold countHalf
   try extract_lets
   repeat' split
   all_goals (try simp +zetaDelta))

@[simp ↓] theorem refreshStream_keep (s : State) (f : Nat) : (refreshStream s f).otp = s.otp ∧ (refreshStream s f).pending = s.pending := by
  constructor <;>
  (unfold refreshStream
   try extract_lets
   repeat' split
   all_goals (try simp +zetaDelta))

@[simp ↓] theorem police_keep (s : State) (f n : Nat) : (police s f n).1.otp = s.otp ∧ (police s f n).1.pending = s.pending := by
  constructor <;>
  (unfold police
   try extract_lets
   repeat' split
   all_goals (try simp +zetaDelta))

@[simp ↓] theorem refund_keep (s : State) (f c0 n : Nat) : (refund s f c0 n).otp = s.otp ∧ (refund s f c0 n).pending = s.pending := by
  constructor <;>
  (unfold refund
   try extract_lets
   repeat' split
   all_goals (try simp +zetaDelta))

@[simp ↓] theorem recovReset_keep (s : State) (f : Nat) : (recovReset s f).otp = s.otp ∧ (recovReset s f).pending = s.pending := by
  constructor <;>
  (unfold recovReset
   try extract_lets
   repeat' split
   all_goals (try simp +zetaDelta))

@[simp ↓] theorem recovTimer_keep (s : State) (f : Nat) : (recovTimer s f).otp = s.otp ∧ (recovTimer s f).pending = s.pending := by
  constructor <;>
  (unfold recovTimer
   try extract_lets
   repeat' split
   all_goals (try simp +zetaDelta))

@[simp ↓] theorem recovDup_keep (s : State) (f : Nat) : (recovDup s f).otp = s.otp ∧ (recovDup s f).pending = s.pending := by
  constructor <;>
  (unfold recovDup
   try extract_lets
   repeat' split
   all_goals (try simp +zetaDelta))

@[simp ↓] theorem recovRogue_keep (s : State) (f : Nat) : (recovRogue s f).otp = s.otp ∧ (recovRogue s f).pending = s.pending := by
  constructor <;>
  (unfold recovRogue
   try extract_lets
   repeat' split
   all_goals (try simp +zetaDelta))

@[simp ↓] theorem recovVector_keep (s : State) (f n : Nat) : (recovVector s f n).1.otp = s.otp ∧ (recovVector s f n).1.pending = s.pending := by
  constructor <;>
  (unfold recovVector
   try extract_lets
   repeat' split
   all_goals (try simp +zetaDelta))

@[simp ↓] theorem recovMatch_keep (s : State) (f n : Nat) : (recovMatch s f n).1.otp = s.otp ∧ (recovMatch s f n).1.pending = s.pending := by
  constructor <;>
  (unfold recovMatch
   try extract_lets
   repeat' split
   all_goals (try simp +zetaDelta))

@[simp ↓] theorem recovStage_keep (s : State) (f : Nat) (n : Option Nat) : (recovStage s f n).1.otp = s.otp ∧ (recovStage s f n).1.pending = s.pending := by
  constructor <;>
  (unfold recovStage
   try extract_lets
   repeat' split
   all_goals (try simp +zetaDelta)
   all_goals (repeat' split)
   all_goals (try simp +zetaDelta))

@[simp ↓] theorem recoverFrame_keep (s : State) (f : Nat) (n : Option Nat) : (recoverFrame s f n).1.otp = s.otp ∧ (recoverFrame s f n).1.pending = s.pending := by
  constructor <;>
  (unfold recoverFrame
   try extract_lets
   repeat' split
   all_goals (try simp +zetaDelta))

theorem placeAll_keep (t : List Nat) (d : Nat) (o : List Nat) (l : List Ctx) (s : State) {a : State × List Nat}
    (e : placeAll t d o l s = some a) : a.1.otp = s.otp ∧ a.1.pending = s.pending := by
  induction l generalizing o s a with
  | nil => simp only [placeAll, Option.some.injEq] at e; subst e; simp
  | cons c r ih =>
    simp only [placeAll] at e
    split at e
    · simp at e
    · rw [Option.map_eq_some_iff] at e
      obtain ⟨x, hx, rfl⟩ := e
      have := ih _ _ hx
      simpa using this

@[simp ↓] theorem resolve_keep (ids : List Nat) (w : List Word) (s : State) : (resolve ids w s).otp = s.otp ∧ (resolve ids w s).pending = s.pending := by
  constructor <;>
  (unfold resolve
   try extract_lets
   repeat' split
   all_goals (try simp +zetaDelta))

theorem flowAddTry_keep (h : CmdHdr) (w : List Word) (s : State) {a : State × List Nat} (e : flowAddTry h w s = .ok a) :
    a.1.otp = s.otp ∧ a.1.pending = s.pending := by
  unfold flowAddTry at e
  extract_lets l at e
  split at e
  · cases e
  · split at e
    · cases e
    · split at e
      · cases e
      · split at e
        · cases e
        · rename_i x hx
          extract_lets s1 at e
          split at e
          · cases e
          · cases e
            exact (show Keeps s x.1 from placeAll_keep _ _ _ _ _ hx).trans (resolve_keep _ _ _)

@[simp ↓] theorem forgetCharge_keep (s : State) (f : Nat) : (forgetCharge s f).otp = s.otp ∧ (forgetCharge s f).pending = s.pending := by
  constructor <;>
  (unfold forgetCharge
   try extract_lets
   repeat' split
   all_goals (try first | refine busWrite_otp fun s => ?_ | refine busWrite_pending fun s => ?_ | refine busRead_otp fun s => ?_ | refine busRead_pending fun s => ?_ | refine bar2Write_otp fun s => ?_ | refine bar2Write_pending fun s => ?_ | refine (foldl_otp _ (fun s a => ?_) _ _).trans ?_ | refine (foldl_pending _ (fun s a => ?_) _ _).trans ?_)
   all_goals (repeat' split)
   all_goals (try simp +zetaDelta)
   all_goals (try first | refine busWrite_otp fun s => ?_ | refine busWrite_pending fun s => ?_ | refine busRead_otp fun s => ?_ | refine busRead_pending fun s => ?_ | refine bar2Write_otp fun s => ?_ | refine bar2Write_pending fun s => ?_ | refine (foldl_otp _ (fun s a => ?_) _ _).trans ?_ | refine (foldl_pending _ (fun s a => ?_) _ _).trans ?_)
   all_goals (repeat' split)
   all_goals (try simp +zetaDelta))

@[simp ↓] theorem freeCtx_keep (s : State) (f : Nat) : (freeCtx s f).otp = s.otp ∧ (freeCtx s f).pending = s.pending := by
  constructor <;>
  (unfold freeCtx
   try extract_lets
   repeat' split
   all_goals (try simp +zetaDelta))

theorem flowAddOp_ok : TxnOk flowAddOp where
  app := by
    intro h w c s a e
    simp only [flowAddOp] at e
    split at e
    · simp at e
    · rename_i x hx
      cases e
      exact flowAddTry_keep _ _ _ hx
  und := by
    intro h w n m s
    constructor
    all_goals
      simp only [flowAddOp]
      first
        | refine foldl_otp _ (fun s a => ?_) _ _
        | refine foldl_pending _ (fun s a => ?_) _ _
      split <;> simp

@[simp ↓] theorem writeCtx_keep (s : State) (fill : Bool) (f : Nat) (n : Ctx) : (writeCtx s fill f n).otp = s.otp ∧ (writeCtx s fill f n).pending = s.pending := by
  constructor <;>
  (unfold writeCtx
   try extract_lets
   repeat' split
   all_goals (try simp +zetaDelta))

theorem flowWriteTry_keep (h : CmdHdr) (w : List Word) (s : State) {a : State} (e : flowWriteTry h w s = .ok a) : a.otp = s.otp ∧ a.pending = s.pending := by
  unfold flowWriteTry at e
  (try extract_lets at e)
  repeat' split at e
  all_goals (try dsimp only at e)
  all_goals (repeat' split at e)
  all_goals first
    | (simp only [Option.some.injEq, Except.ok.injEq, Except.error.injEq] at e; subst e; constructor <;> simp +zetaDelta; done)
    | (exfalso; revert e; simp; done)

theorem flowWriteOp_ok : TxnOk flowWriteOp where
  app := by
    intro h w c s a e
    simp only [flowWriteOp] at e
    split at e
    · simp at e
    · rename_i x hx
      cases e
      exact flowWriteTry_keep _ _ _ hx
  und := by
    intro h w n m s
    constructor
    all_goals
      simp only [flowWriteOp]
      first
        | refine foldl_otp _ (fun s a => ?_) _ _
        | refine foldl_pending _ (fun s a => ?_) _ _
      split <;> simp

theorem deleteAll_keep (l : List Nat) (i : Nat) (s : State) {a : State} (e : deleteAll l i s = .ok a) :
    a.otp = s.otp ∧ a.pending = s.pending := by
  induction l generalizing i s a with
  | nil => simp only [deleteAll, Except.ok.injEq] at e; subst e; simp
  | cons f r ih =>
    simp only [deleteAll] at e
    repeat' split at e
    · simp at e
    · simp at e
    · simpa using ih _ _ e

theorem flowDeleteOp_ok : TxnOk flowDeleteOp where
  app := by
    intro h w c s a e
    simp only [flowDeleteOp] at e
    split at e
    · simp at e
    · rename_i x hx
      cases e
      exact deleteAll_keep _ _ _ hx
  und := by
    intro h w n m s
    constructor
    all_goals
      simp only [flowDeleteOp]
      first
        | refine foldl_otp _ (fun s a => ?_) _ _
        | refine foldl_pending _ (fun s a => ?_) _ _
      split <;> simp

@[simp ↓] theorem bodyFlowPortSet_keep (h : CmdHdr) (w : List Word) (s : State) : (bodyFlowPortSet h w s).1.otp = s.otp ∧ (bodyFlowPortSet h w s).1.pending = s.pending := by
  constructor <;>
  (unfold bodyFlowPortSet
   try extract_lets
   repeat' split
   all_goals (try simp +zetaDelta))

@[simp ↓] theorem bodyFlowLatentSet_keep (h : CmdHdr) (w : List Word) (s : State) : (bodyFlowLatentSet h w s).1.otp = s.otp ∧ (bodyFlowLatentSet h w s).1.pending = s.pending := by
  constructor <;>
  (unfold bodyFlowLatentSet
   try extract_lets
   repeat' split
   all_goals (try simp +zetaDelta))

theorem flowRecovResetOp_ok : TxnOk flowRecovResetOp where
  app := by
    intro h w c s a e
    simp only [flowRecovResetOp] at e
    (try extract_lets at e)
    repeat' split at e
    all_goals first | (cases e; constructor) | cases e
    all_goals try extract_lets
    all_goals (repeat' split)
    all_goals (try (simp +zetaDelta; done))
    all_goals (try first | refine busWrite_otp fun s => ?_ | refine busWrite_pending fun s => ?_ | refine busRead_otp fun s => ?_ | refine busRead_pending fun s => ?_ | refine bar2Write_otp fun s => ?_ | refine bar2Write_pending fun s => ?_ | refine (foldl_otp _ (fun s a => ?_) _ _).trans ?_ | refine (foldl_pending _ (fun s a => ?_) _ _).trans ?_)
    all_goals (repeat' split)
    all_goals (try (simp +zetaDelta; done))
    all_goals (try first | refine busWrite_otp fun s => ?_ | refine busWrite_pending fun s => ?_ | refine busRead_otp fun s => ?_ | refine busRead_pending fun s => ?_ | refine bar2Write_otp fun s => ?_ | refine bar2Write_pending fun s => ?_ | refine (foldl_otp _ (fun s a => ?_) _ _).trans ?_ | refine (foldl_pending _ (fun s a => ?_) _ _).trans ?_)
    all_goals (repeat' split)
    all_goals (simp +zetaDelta)
  und := by
    intro h w n m s
    constructor <;> ((try simp only [flowRecovResetOp]) <;> (try extract_lets) <;> (repeat' split))
    all_goals (try (simp +zetaDelta; done))
    all_goals (try first | refine busWrite_otp fun s => ?_ | refine busWrite_pending fun s => ?_ | refine busRead_otp fun s => ?_ | refine busRead_pending fun s => ?_ | refine bar2Write_otp fun s => ?_ | refine bar2Write_pending fun s => ?_ | refine (foldl_otp _ (fun s a => ?_) _ _).trans ?_ | refine (foldl_pending _ (fun s a => ?_) _ _).trans ?_)
    all_goals (repeat' split)
    all_goals (try (simp +zetaDelta; done))
    all_goals (try first | refine busWrite_otp fun s => ?_ | refine busWrite_pending fun s => ?_ | refine busRead_otp fun s => ?_ | refine busRead_pending fun s => ?_ | refine bar2Write_otp fun s => ?_ | refine bar2Write_pending fun s => ?_ | refine (foldl_otp _ (fun s a => ?_) _ _).trans ?_ | refine (foldl_pending _ (fun s a => ?_) _ _).trans ?_)
    all_goals (repeat' split)
    all_goals (simp +zetaDelta)

@[simp ↓] theorem bodyFlowQuery_keep (h : CmdHdr) (w : List Word) (s : State) : (bodyFlowQuery h w s).1.otp = s.otp ∧ (bodyFlowQuery h w s).1.pending = s.pending := by
  constructor <;>
  (unfold bodyFlowQuery
   try extract_lets
   repeat' split
   all_goals (try simp +zetaDelta))

@[simp ↓] theorem bodyFlowCountRead_keep (h : CmdHdr) (w : List Word) (s : State) : (bodyFlowCountRead h w s).1.otp = s.otp ∧ (bodyFlowCountRead h w s).1.pending = s.pending := by
  constructor <;>
  (unfold bodyFlowCountRead
   try extract_lets
   repeat' split
   all_goals (try simp +zetaDelta))

@[simp ↓] theorem bodyFlowTableQuery_keep (h : CmdHdr) (w : List Word) (s : State) : (bodyFlowTableQuery h w s).1.otp = s.otp ∧ (bodyFlowTableQuery h w s).1.pending = s.pending := by
  constructor <;>
  (unfold bodyFlowTableQuery
   try extract_lets
   repeat' split
   all_goals (try simp +zetaDelta))

@[simp ↓] theorem execSweepVisit_keep (v : SweepTarget) (s : State) : OutKeeps s (execSweepVisit v s) := by
  unfold execSweepVisit
  try extract_lets
  apply OutKeeps.mk
  constructor <;>
  (repeat' split
   all_goals (try simp +zetaDelta))

@[simp ↓] theorem latentTest_keep (s : State) (k f : Nat) : (latentTest s k f).otp = s.otp ∧ (latentTest s k f).pending = s.pending := by
  constructor <;>
  (unfold latentTest
   try extract_lets
   repeat' split
   all_goals (try simp +zetaDelta))

@[simp ↓] theorem execSweepPassEnd_keep (d : Nat) (s : State) : OutKeeps s (execSweepPassEnd d s) := by
  unfold execSweepPassEnd
  try extract_lets
  apply OutKeeps.mk
  constructor <;>
  (repeat' split
   all_goals (try simp +zetaDelta))

@[simp ↓] theorem flowUnpark_keep (s : State) (d : Nat) : (flowUnpark s d).otp = s.otp ∧ (flowUnpark s d).pending = s.pending := by
  constructor <;>
  (unfold flowUnpark
   try extract_lets
   repeat' split
   all_goals (try simp +zetaDelta))

@[simp ↓] theorem execFlowQuery_keep (h : CmdHdr) (w : List Word) (s : State) : OutKeeps s (execFlowQuery h w s) :=
  OutKeeps.mk (runCmd_keep _ _ _ _ _ (bodyFlowQuery_keep))

@[simp ↓] theorem execFlowAdd_keep (h : CmdHdr) (w : List Word) (s : State) : OutKeeps s (execFlowAdd h w s) :=
  OutKeeps.mk (runCmd_keep _ _ _ _ _ (bodyJoin_keep _ _ flowAddOp_ok))

@[simp ↓] theorem execFlowWrite_keep (h : CmdHdr) (w : List Word) (s : State) : OutKeeps s (execFlowWrite h w s) :=
  OutKeeps.mk (runCmd_keep _ _ _ _ _ (bodyJoin_keep _ _ flowWriteOp_ok))

@[simp ↓] theorem execFlowDelete_keep (h : CmdHdr) (w : List Word) (s : State) : OutKeeps s (execFlowDelete h w s) :=
  OutKeeps.mk (runCmd_keep _ _ _ _ _ (bodyJoin_keep _ _ flowDeleteOp_ok))

@[simp ↓] theorem execFlowPortSet_keep (h : CmdHdr) (w : List Word) (s : State) : OutKeeps s (execFlowPortSet h w s) :=
  OutKeeps.mk (runCmd_keep _ _ _ _ _ (bodyFlowPortSet_keep))

@[simp ↓] theorem execFlowLatentSet_keep (h : CmdHdr) (w : List Word) (s : State) : OutKeeps s (execFlowLatentSet h w s) :=
  OutKeeps.mk (runCmd_keep _ _ _ _ _ (bodyFlowLatentSet_keep))

@[simp ↓] theorem execFlowRecovReset_keep (h : CmdHdr) (w : List Word) (s : State) : OutKeeps s (execFlowRecovReset h w s) :=
  OutKeeps.mk (runLater_keep _ _ _ _ _ (bodyTxn_keep _ _ flowRecovResetOp_ok))

@[simp ↓] theorem execFlowCountRead_keep (h : CmdHdr) (w : List Word) (s : State) : OutKeeps s (execFlowCountRead h w s) :=
  OutKeeps.mk (runCmd_keep _ _ _ _ _ (bodyFlowCountRead_keep))

@[simp ↓] theorem execFlowTableQuery_keep (h : CmdHdr) (w : List Word) (s : State) : OutKeeps s (execFlowTableQuery h w s) :=
  OutKeeps.mk (runCmd_keep _ _ _ _ _ (bodyFlowTableQuery_keep))

/-! ### Machine/Ingress.lean -/

@[simp ↓] theorem identify_keep (s : State) (p : Nat) (b : List Byte) : (identify s p b).1.otp = s.otp ∧ (identify s p b).1.pending = s.pending := by
  constructor <;>
  (unfold identify
   try extract_lets
   repeat' split
   all_goals (try simp +zetaDelta))

@[simp ↓] theorem genSeq_keep (s : State) (f : Nat) (n : Option Nat) : (genSeq s f n).1.otp = s.otp ∧ (genSeq s f n).1.pending = s.pending := by
  constructor <;>
  (unfold genSeq
   try extract_lets
   repeat' split
   all_goals (try simp +zetaDelta))

@[simp ↓] theorem storeCopy_keep (g : Frame) (len : Nat) (dei ts : Bool) (k : Nat) (s : State) (q : Nat × Bool) : (storeCopy g len dei ts k s q).otp = s.otp ∧ (storeCopy g len dei ts k s q).pending = s.pending := by
  constructor <;>
  (unfold storeCopy
   try extract_lets
   repeat' split
   all_goals (try simp +zetaDelta))

@[simp ↓] theorem newKey_keep (s : State) : (newKey s).otp = s.otp ∧ (newKey s).pending = s.pending := by
  constructor <;>
  (unfold newKey
   try extract_lets
   repeat' split
   all_goals (try simp +zetaDelta))

@[simp ↓] theorem storeCopies_keep (s : State) (g : Frame) (len : Nat) (dei ts : Bool) (l : List (Nat × Bool)) : (storeCopies s g len dei ts l).otp = s.otp ∧ (storeCopies s g len dei ts l).pending = s.pending := by
  constructor <;>
  (unfold storeCopies
   try extract_lets
   repeat' split
   all_goals (try simp +zetaDelta))

@[simp ↓] theorem streamSteps_keep (s : State) (p t16 f : Nat) (b : List Byte) : (streamSteps s p t16 f b).otp = s.otp ∧ (streamSteps s p t16 f b).pending = s.pending := by
  constructor <;>
  (unfold streamSteps
   try extract_lets
   repeat' split
   all_goals (try simp +zetaDelta))

@[simp ↓] theorem splitRecs_keep (s : State) (p t0 q n o : Nat) (b : List Byte) :
    (splitRecs s p t0 q n o b).otp = s.otp ∧ (splitRecs s p t0 q n o b).pending = s.pending := by
  induction n generalizing s o b with
  | zero => simp [splitRecs]
  | succ n ih =>
    simp only [splitRecs]
    split
    · simp
    · split
      · simp
      · simp [ih]

@[simp ↓] theorem twinFrameIn_keep (s : State) (p t16 : Nat) (b : List Byte) : (twinFrameIn s p t16 b).otp = s.otp ∧ (twinFrameIn s p t16 b).pending = s.pending := by
  constructor <;>
  (unfold twinFrameIn
   try extract_lets
   repeat' split
   all_goals (try simp +zetaDelta))

@[simp ↓] theorem interceptCmd_keep (s : State) (p t16 o : Nat) (b : List Byte) : (interceptCmd s p t16 o b).otp = s.otp ∧ (interceptCmd s p t16 o b).pending = s.pending := by
  constructor <;>
  (unfold interceptCmd
   try extract_lets
   repeat' split
   all_goals (try simp +zetaDelta))

@[simp ↓] theorem coreSend_keep (s : State) (p c : Nat) (f : CtlFrame) : (coreSend s p c f).otp = s.otp ∧ (coreSend s p c f).pending = s.pending := by
  constructor <;>
  (unfold coreSend
   try extract_lets
   repeat' split
   all_goals (try simp +zetaDelta)
   all_goals (repeat' split)
   all_goals (try simp +zetaDelta))

@[simp ↓] theorem ptpIn_keep (s : State) (p t16 : Nat) (b : List Byte) : (ptpIn s p t16 b).otp = s.otp ∧ (ptpIn s p t16 b).pending = s.pending := by
  constructor <;>
  (unfold ptpIn
   try extract_lets
   repeat' split
   all_goals (try simp +zetaDelta))

@[simp ↓] theorem macControl_keep (s : State) (p : Nat) (b : List Byte) : (macControl s p b).otp = s.otp ∧ (macControl s p b).pending = s.pending := by
  constructor <;>
  (unfold macControl
   try extract_lets
   repeat' split
   all_goals (try simp +zetaDelta))

@[simp ↓] theorem macCount_keep (s : State) (p : Nat) (b : List Byte) : (macCount s p b).1.otp = s.otp ∧ (macCount s p b).1.pending = s.pending := by
  constructor <;>
  (unfold macCount
   try extract_lets
   repeat' split
   all_goals (try simp +zetaDelta))

@[simp ↓] theorem startCut_keep (s : State) (q k lim j : Nat) (ts : Option (Bool × Nat × Nat)) :
    (startCut s q k lim j ts).otp = s.otp ∧ (startCut s q k lim j ts).pending = s.pending := by
  constructor <;>
  (unfold startCut
   try extract_lets
   repeat' split
   all_goals (try simp +zetaDelta)
   all_goals (repeat' split)
   all_goals (try simp +zetaDelta))

theorem underSettings_keep (s : State) (p t16 : Nat) (f : State → State) (h : ∀ s, (f s).otp = s.otp ∧ (f s).pending = s.pending) :
    (underSettings s p t16 f).otp = s.otp ∧ (underSettings s p t16 f).pending = s.pending := by
  unfold underSettings
  dsimp only
  split
  · exact h s
  · exact ⟨by simp [(h _).1], by simp [(h _).2]⟩

theorem decideCopy_keep (p k f w : Nat) (c : Ctx) (d : Bool → Int) (head : List Byte)
    (a : State × List (Nat × Nat × Bool) × List (Nat × Bool)) (q : Nat × Bool) :
    Keeps a.1 (decideCopy p k f w c d head a q).1 := by
  unfold decideCopy
  dsimp only
  split
  · exact startCut_keep _ _ _ _ _ _
  · exact .trans (.ite (.refl _) (countPort_keep _ _ _ _)) (putCopy_keep _ _ _)

/-- A fold over pairs whose first part each step keeps. -/
theorem Keeps.foldl {α β : Type} {g : State × β → α → State × β} (h : ∀ a x, Keeps a.1 (g a x).1) (l : List α) (a : State × β) :
    Keeps a.1 (l.foldl g a).1 := by
  induction l generalizing a with
  | nil => exact .refl _
  | cons x l ih => exact (h a x).trans (ih _)

@[simp ↓] theorem decideCopies_keep (s : State) (p f : Nat) (c : Ctx) (num : Option Nat) (strip : Bool) (head : List Byte) :
    (decideCopies s p f c num strip head).1.otp = s.otp ∧ (decideCopies s p f c num strip head).1.pending = s.pending :=
  Keeps.trans (newKey_keep s) (Keeps.foldl (decideCopy_keep _ _ _ _ _ _ _) _ _)

@[simp ↓] theorem cutDecision_keep (s : State) (p t16 : Nat) (head : List Byte) :
    (cutDecision s p t16 head).otp = s.otp ∧ (cutDecision s p t16 head).pending = s.pending := by
  unfold cutDecision
  constructor <;>
  (repeat' split
   try extract_lets
   all_goals (repeat' split)
   all_goals simp +zetaDelta)

theorem execCutThroughDecision_keep (p t : Nat) (head : List Byte) (s : State) : OutKeeps s (execCutThroughDecision p t head s) := by
  unfold execCutThroughDecision
  refine OutKeeps.mk ?_
  show Keeps s _
  split
  · exact .refl _
  · exact underSettings_keep _ _ _ _ fun s => cutDecision_keep _ _ _ _

@[simp ↓] theorem endCut_keep (s : State) (p : Nat) (i : CutIn) (b : List Byte) (x : Nat × Nat × Bool) :
    (endCut s p i b x).otp = s.otp ∧ (endCut s p i b x).pending = s.pending := by
  constructor <;>
  (unfold endCut
   try extract_lets
   repeat' split
   all_goals (try simp +zetaDelta)
   all_goals (repeat' split)
   all_goals (try simp +zetaDelta))

@[simp ↓] theorem endStore_keep (s : State) (p : Nat) (i : CutIn) (b : List Byte) (good long : Bool) (q : Nat × Bool) : (endStore s p i b good long q).otp = s.otp ∧ (endStore s p i b good long q).pending = s.pending := by
  constructor <;>
  (unfold endStore
   try extract_lets
   repeat' split
   all_goals (try simp +zetaDelta))

@[simp ↓] theorem finishCut_keep (s : State) (p : Nat) (i : CutIn) (b : List Byte) (good : Bool) : (finishCut s p i b good).otp = s.otp ∧ (finishCut s p i b good).pending = s.pending := by
  constructor <;>
  (unfold finishCut
   try extract_lets
   repeat' split
   all_goals (try simp +zetaDelta)
   all_goals (repeat' split)
   all_goals (try simp +zetaDelta))

@[simp ↓] theorem afterMac_keep (s : State) (p t16 : Nat) (b : List Byte) : (afterMac s p t16 b).otp = s.otp ∧ (afterMac s p t16 b).pending = s.pending := by
  constructor <;>
  (unfold afterMac
   try extract_lets
   repeat' split
   all_goals (try simp +zetaDelta))

@[simp ↓] theorem frameIn_keep (s : State) (p t16 tEnd : Nat) (b : List Byte) :
    (frameIn s p t16 tEnd b).otp = s.otp ∧ (frameIn s p t16 tEnd b).pending = s.pending := by
  unfold frameIn
  refine underSettings_keep _ _ _ _ fun s => ?_
  constructor <;>
  (dsimp only
   repeat' split
   all_goals simp)

@[simp ↓] theorem frameOnPins_keep (s : State) (p t16 : Nat) (b : List Byte) (symErr : Bool) : (frameOnPins s p t16 b symErr).otp = s.otp ∧ (frameOnPins s p t16 b symErr).pending = s.pending := by
  constructor <;>
  (unfold frameOnPins
   try extract_lets
   repeat' split
   all_goals (try simp +zetaDelta))

@[simp ↓] theorem execFrameReceive_keep (p t16 : Nat) (bytes : List Byte) (symErr : Bool) (s : State) : OutKeeps s (execFrameReceive p t16 bytes symErr s) := by
  unfold execFrameReceive
  try extract_lets
  apply OutKeeps.mk
  constructor <;>
  (repeat' split
   all_goals (try simp +zetaDelta))

@[simp ↓] theorem execTwinFrameReceive_keep (u t16 : Nat) (bytes : List Byte) (s : State) : OutKeeps s (execTwinFrameReceive u t16 bytes s) := by
  unfold execTwinFrameReceive
  try extract_lets
  apply OutKeeps.mk
  constructor <;>
  (repeat' split
   all_goals (try simp +zetaDelta))

@[simp ↓] theorem execMpacketReceive_keep (p t16 : Nat) (m : MPacket) (s : State) : OutKeeps s (execMpacketReceive p t16 m s) := by
  unfold execMpacketReceive
  try extract_lets
  apply OutKeeps.mk
  constructor <;>
  (repeat' split
   all_goals (try simp +zetaDelta))

/-! ### Machine/Hyith.lean -/

@[simp ↓] theorem sendBlock_keep (s : State) (u kind : Nat) (pl : List Byte) : (sendBlock s u kind pl).otp = s.otp ∧ (sendBlock s u kind pl).pending = s.pending := by
  constructor <;>
  (unfold sendBlock
   try extract_lets
   repeat' split
   all_goals (try simp +zetaDelta))

theorem blockIn_keep (s : State) (u k : Nat) (blk : List Byte) {a : State} (e : blockIn s u k blk = .error a) : a.otp = s.otp ∧ a.pending = s.pending := by
  unfold blockIn at e
  (try extract_lets at e)
  repeat' split at e
  all_goals (try dsimp only at e)
  all_goals (repeat' split at e)
  all_goals first
    | (simp only [Option.some.injEq, Except.ok.injEq, Except.error.injEq] at e; subst e; constructor <;> simp +zetaDelta; done)
    | (exfalso; revert e; simp; done)

@[simp ↓] theorem modTlink_keep (s : State) (u : Nat) (f : TimeLink → TimeLink) : (modTlink s u f).otp = s.otp ∧ (modTlink s u f).pending = s.pending := by
  constructor <;>
  (unfold modTlink
   try extract_lets
   repeat' split
   all_goals (try simp +zetaDelta))

@[simp ↓] theorem execTimeWordSend_keep (u : Nat) (s : State) : OutKeeps s (execTimeWordSend u s) := by
  unfold execTimeWordSend
  try extract_lets
  apply OutKeeps.mk
  constructor <;>
  (repeat' split
   all_goals (try simp +zetaDelta)
   all_goals (repeat' split)
   all_goals (try simp +zetaDelta))

@[simp ↓] theorem standbySwitch_keep (s : State) (u : Nat) : (standbySwitch s u).otp = s.otp ∧ (standbySwitch s u).pending = s.pending := by
  constructor <;>
  (unfold standbySwitch
   try extract_lets
   repeat' split
   all_goals (try simp +zetaDelta))

theorem execTimeWordReceive_keep (u : Nat) (blk : List Byte) (t16 : Nat) (s : State) : OutKeeps s (execTimeWordReceive u blk t16 s) := by
  unfold execTimeWordReceive
  refine OutKeeps.mk ?_
  split
  · rename_i e; exact blockIn_keep _ _ _ _ e
  · constructor <;> ((try extract_lets) <;> (repeat' split) <;> simp +zetaDelta)

theorem execEchoReceive_keep (u : Nat) (blk : List Byte) (s : State) : OutKeeps s (execEchoReceive u blk s) := by
  unfold execEchoReceive
  refine OutKeeps.mk ?_
  split
  · rename_i e; exact blockIn_keep _ _ _ _ e
  · constructor <;> ((try extract_lets) <;> (repeat' split) <;> simp +zetaDelta)

theorem execEpochReceive_keep (u : Nat) (blk : List Byte) (s : State) : OutKeeps s (execEpochReceive u blk s) := by
  unfold execEpochReceive
  refine OutKeeps.mk ?_
  split
  · rename_i e; exact blockIn_keep _ _ _ _ e
  · constructor <;> ((try extract_lets) <;> (repeat' split) <;> simp +zetaDelta)

theorem execRootReceive_keep (u : Nat) (blk : List Byte) (s : State) : OutKeeps s (execRootReceive u blk s) := by
  unfold execRootReceive
  refine OutKeeps.mk ?_
  split
  · rename_i e; exact blockIn_keep _ _ _ _ e
  · constructor <;> ((try extract_lets) <;> (repeat' split) <;> simp +zetaDelta)

theorem execCreditReceive_keep (u : Nat) (blk : List Byte) (s : State) : OutKeeps s (execCreditReceive u blk s) := by
  unfold execCreditReceive
  refine OutKeeps.mk ?_
  split
  · rename_i e; exact blockIn_keep _ _ _ _ e
  · constructor <;> ((try extract_lets) <;> (repeat' split) <;> simp +zetaDelta)

@[simp ↓] theorem execHyithCommandSend_keep (u : Nat) (s : State) : OutKeeps s (execHyithCommandSend u s) := by
  unfold execHyithCommandSend
  try extract_lets
  apply OutKeeps.mk
  constructor <;>
  (repeat' split
   all_goals (try simp +zetaDelta))

@[simp ↓] theorem execMasterTimeout_keep (s : State) : OutKeeps s (execMasterTimeout s) := by
  unfold execMasterTimeout
  try extract_lets
  apply OutKeeps.mk
  constructor <;>
  (repeat' split
   all_goals (try simp +zetaDelta))

@[simp ↓] theorem rootReturn_keep (s : State) (t : Nat) : (rootReturn s t).otp = s.otp ∧ (rootReturn s t).pending = s.pending := by
  constructor <;>
  (unfold rootReturn
   try extract_lets
   repeat' split
   all_goals (try simp +zetaDelta))

theorem sysRootReturnOp_ok : TxnOk sysRootReturnOp where
  app := by
    intro h w c s a e
    simp only [sysRootReturnOp] at e
    (try extract_lets at e)
    repeat' split at e
    all_goals first | (cases e; constructor) | cases e
    all_goals try extract_lets
    all_goals (repeat' split)
    all_goals (try (simp +zetaDelta; done))
    all_goals (try first | refine busWrite_otp fun s => ?_ | refine busWrite_pending fun s => ?_ | refine busRead_otp fun s => ?_ | refine busRead_pending fun s => ?_ | refine bar2Write_otp fun s => ?_ | refine bar2Write_pending fun s => ?_ | refine (foldl_otp _ (fun s a => ?_) _ _).trans ?_ | refine (foldl_pending _ (fun s a => ?_) _ _).trans ?_)
    all_goals (repeat' split)
    all_goals (try (simp +zetaDelta; done))
    all_goals (try first | refine busWrite_otp fun s => ?_ | refine busWrite_pending fun s => ?_ | refine busRead_otp fun s => ?_ | refine busRead_pending fun s => ?_ | refine bar2Write_otp fun s => ?_ | refine bar2Write_pending fun s => ?_ | refine (foldl_otp _ (fun s a => ?_) _ _).trans ?_ | refine (foldl_pending _ (fun s a => ?_) _ _).trans ?_)
    all_goals (repeat' split)
    all_goals (simp +zetaDelta)
  und := by
    intro h w n m s
    constructor <;> ((try simp only [sysRootReturnOp]) <;> (try extract_lets) <;> (repeat' split))
    all_goals (try (simp +zetaDelta; done))
    all_goals (try first | refine busWrite_otp fun s => ?_ | refine busWrite_pending fun s => ?_ | refine busRead_otp fun s => ?_ | refine busRead_pending fun s => ?_ | refine bar2Write_otp fun s => ?_ | refine bar2Write_pending fun s => ?_ | refine (foldl_otp _ (fun s a => ?_) _ _).trans ?_ | refine (foldl_pending _ (fun s a => ?_) _ _).trans ?_)
    all_goals (repeat' split)
    all_goals (try (simp +zetaDelta; done))
    all_goals (try first | refine busWrite_otp fun s => ?_ | refine busWrite_pending fun s => ?_ | refine busRead_otp fun s => ?_ | refine busRead_pending fun s => ?_ | refine bar2Write_otp fun s => ?_ | refine bar2Write_pending fun s => ?_ | refine (foldl_otp _ (fun s a => ?_) _ _).trans ?_ | refine (foldl_pending _ (fun s a => ?_) _ _).trans ?_)
    all_goals (repeat' split)
    all_goals (simp +zetaDelta)

@[simp ↓] theorem bodySysQuery_keep (x0 : CmdHdr) (x1 : List Word) (s : State) : (bodySysQuery x0 x1 s).1.otp = s.otp ∧ (bodySysQuery x0 x1 s).1.pending = s.pending := by
  constructor <;>
  (unfold bodySysQuery
   try extract_lets
   repeat' split
   all_goals (try simp +zetaDelta))

@[simp ↓] theorem bodySysSet_keep (x0 : CmdHdr) (w : List Word) (s : State) : (bodySysSet x0 w s).1.otp = s.otp ∧ (bodySysSet x0 w s).1.pending = s.pending := by
  constructor <;>
  (unfold bodySysSet
   try extract_lets
   repeat' split
   all_goals (try simp +zetaDelta))

@[simp ↓] theorem bodySysRouteSet_keep (h : CmdHdr) (w : List Word) (s : State) : (bodySysRouteSet h w s).1.otp = s.otp ∧ (bodySysRouteSet h w s).1.pending = s.pending := by
  constructor <;>
  (unfold bodySysRouteSet
   try extract_lets
   repeat' split
   all_goals (try simp +zetaDelta))

@[simp ↓] theorem bodyHyithQuery_keep (h : CmdHdr) (x0 : List Word) (s : State) : (bodyHyithQuery h x0 s).1.otp = s.otp ∧ (bodyHyithQuery h x0 s).1.pending = s.pending := by
  constructor <;>
  (unfold bodyHyithQuery
   try extract_lets
   repeat' split
   all_goals (try simp +zetaDelta))

@[simp ↓] theorem execSysQuery_keep (h : CmdHdr) (w : List Word) (s : State) : OutKeeps s (execSysQuery h w s) :=
  OutKeeps.mk (runCmd_keep _ _ _ _ _ (bodySysQuery_keep))

@[simp ↓] theorem execSysSet_keep (h : CmdHdr) (w : List Word) (s : State) : OutKeeps s (execSysSet h w s) :=
  OutKeeps.mk (runCmd_keep _ _ _ _ _ (bodySysSet_keep))

@[simp ↓] theorem execSysRouteSet_keep (h : CmdHdr) (w : List Word) (s : State) : OutKeeps s (execSysRouteSet h w s) :=
  OutKeeps.mk (runCmd_keep _ _ _ _ _ (bodySysRouteSet_keep))

@[simp ↓] theorem execSysRootReturn_keep (h : CmdHdr) (w : List Word) (s : State) : OutKeeps s (execSysRootReturn h w s) :=
  OutKeeps.mk (runLater_keep _ _ _ _ _ (bodyTxn_keep _ _ sysRootReturnOp_ok))

@[simp ↓] theorem execHyithQuery_keep (h : CmdHdr) (w : List Word) (s : State) : OutKeeps s (execHyithQuery h w s) :=
  OutKeeps.mk (runCmd_keep _ _ _ _ _ (bodyHyithQuery_keep))

end Sys2Proof.Machine
end

