-- ==== Sys2Proof/Laws/KeepTwin.lean ====
section
/-! SUPPORT. What the operations and the meanings of Twin, Trim, Line, Txn, Fifo leave as they are: the OTP and the queue of waiting commands. -/

set_option linter.unusedTactic false
set_option linter.unreachableTactic false
set_option linter.unusedVariables false
set_option linter.unusedSimpArgs false
set_option linter.unnecessarySeqFocus false

namespace Sys2Proof.Machine

/-! ### Machine/Twin.lean -/

@[simp ↓] theorem releaseLead_keep (s : State) : (releaseLead s).otp = s.otp ∧ (releaseLead s).pending = s.pending := by
  constructor <;>
  (unfold releaseLead
   try extract_lets
   repeat' split
   all_goals (try simp +zetaDelta))

@[simp ↓] theorem breathFall_keep (s : State) : (breathFall s).otp = s.otp ∧ (breathFall s).pending = s.pending := by
  constructor <;>
  (unfold breathFall
   try extract_lets
   repeat' split
   all_goals (try simp +zetaDelta)
   all_goals (repeat' split)
   all_goals (try simp +zetaDelta))

@[simp ↓] theorem setRole_keep (s : State) (r : Role) : (setRole s r).otp = s.otp ∧ (setRole s r).pending = s.pending := by
  constructor <;>
  (unfold setRole
   try extract_lets
   repeat' split
   all_goals (try simp +zetaDelta))

@[simp ↓] theorem execLeadInEdge_keep (t : Nat) (s : State) : OutKeeps s (execLeadInEdge t s) := by
  unfold execLeadInEdge
  try extract_lets
  apply OutKeeps.mk
  constructor <;>
  (repeat' split
   all_goals (try simp +zetaDelta))

@[simp ↓] theorem execClaimDead_keep (s : State) : OutKeeps s (execClaimDead s) := by
  unfold execClaimDead
  try extract_lets
  apply OutKeeps.mk
  constructor <;>
  (repeat' split
   all_goals (try simp +zetaDelta))

@[simp ↓] theorem execBreathInEdge_keep (t : Nat) (s : State) : OutKeeps s (execBreathInEdge t s) := by
  unfold execBreathInEdge
  try extract_lets
  apply OutKeeps.mk
  constructor <;>
  (repeat' split
   all_goals (try simp +zetaDelta))

theorem execBreathWordReceive_keep (u : Nat) (blk : List Byte) (t : Nat) (s : State) : OutKeeps s (execBreathWordReceive u blk t s) := by
  unfold execBreathWordReceive
  refine OutKeeps.mk ?_
  split
  · rename_i e; exact blockIn_keep _ _ _ _ e
  · constructor <;> ((try extract_lets) <;> (repeat' split) <;> simp +zetaDelta)

@[simp ↓] theorem execLone_keep (m : Nat) (s : State) : OutKeeps s (execLone m s) := by
  unfold execLone
  try extract_lets
  apply OutKeeps.mk
  constructor <;>
  (repeat' split
   all_goals (try simp +zetaDelta))

@[simp ↓] theorem sendBreath_keep (s : State) (n : Nat) : (sendBreath s n).otp = s.otp ∧ (sendBreath s n).pending = s.pending := by
  constructor <;>
  (unfold sendBreath
   try extract_lets
   repeat' split
   all_goals (try simp +zetaDelta))

@[simp ↓] theorem countSilence_keep (s : State) (n : Nat) : (countSilence s n).otp = s.otp ∧ (countSilence s n).pending = s.pending := by
  constructor <;>
  (unfold countSilence
   try extract_lets
   repeat' split
   all_goals (try simp +zetaDelta))

@[simp ↓] theorem claimStep_keep (s : State) (t : Nat) : (claimStep s t).otp = s.otp ∧ (claimStep s t).pending = s.pending := by
  constructor <;>
  (unfold claimStep
   try extract_lets
   repeat' split
   all_goals (try simp +zetaDelta))

@[simp ↓] theorem twinPins_keep (s : State) (t : Nat) : (twinPins s t).otp = s.otp ∧ (twinPins s t).pending = s.pending := by
  constructor <;>
  (unfold twinPins
   try extract_lets
   repeat' split
   all_goals (try simp +zetaDelta))

@[simp ↓] theorem handoverNow_keep (s : State) : (handoverNow s).otp = s.otp ∧ (handoverNow s).pending = s.pending := by
  constructor <;>
  (unfold handoverNow
   try extract_lets
   repeat' split
   all_goals (try simp +zetaDelta))

@[simp ↓] theorem execHandoverBoundary_keep (s : State) : OutKeeps s (execHandoverBoundary s) := by
  unfold execHandoverBoundary
  try extract_lets
  apply OutKeeps.mk
  constructor <;>
  (repeat' split
   all_goals (try simp +zetaDelta))

@[simp ↓] theorem sendHandover_keep (s : State) (b : Nat) : (sendHandover s b).otp = s.otp ∧ (sendHandover s b).pending = s.pending := by
  constructor <;>
  (unfold sendHandover
   try extract_lets
   repeat' split
   all_goals (try simp +zetaDelta))

@[simp ↓] theorem handoverAt_keep (s : State) (t : Nat) : (handoverAt s t).otp = s.otp ∧ (handoverAt s t).pending = s.pending := by
  constructor <;>
  (unfold handoverAt
   try extract_lets
   repeat' split
   all_goals (try simp +zetaDelta))

theorem execHandoverReceive_keep (u : Nat) (blk : List Byte) (s : State) : OutKeeps s (execHandoverReceive u blk s) := by
  unfold execHandoverReceive
  refine OutKeeps.mk ?_
  split
  · rename_i e; exact blockIn_keep _ _ _ _ e
  · constructor <;> ((try extract_lets) <;> (repeat' split) <;> simp +zetaDelta)

@[simp ↓] theorem compareDigests_keep (s : State) (r : Nat) : (compareDigests s r).otp = s.otp ∧ (compareDigests s r).pending = s.pending := by
  constructor <;>
  (unfold compareDigests
   try extract_lets
   repeat' split
   all_goals (try simp +zetaDelta))

theorem execDigestBlockReceive_keep (u : Nat) (blk : List Byte) (s : State) : OutKeeps s (execDigestBlockReceive u blk s) := by
  unfold execDigestBlockReceive
  refine OutKeeps.mk ?_
  split
  · rename_i e; exact blockIn_keep _ _ _ _ e
  · constructor <;> ((try extract_lets) <;> (repeat' split) <;> simp +zetaDelta)

@[simp ↓] theorem execDigestPublish_keep (r n : Nat) (s : State) : OutKeeps s (execDigestPublish r n s) := by
  unfold execDigestPublish
  try extract_lets
  apply OutKeeps.mk
  constructor <;>
  (repeat' split
   all_goals (try simp +zetaDelta)
   all_goals (repeat' split)
   all_goals (try simp +zetaDelta))

@[simp ↓] theorem execDigestDeadline_keep (n : Nat) (s : State) : OutKeeps s (execDigestDeadline n s) := by
  unfold execDigestDeadline
  try extract_lets
  apply OutKeeps.mk
  constructor <;>
  (repeat' split
   all_goals (try simp +zetaDelta))

@[simp ↓] theorem syncAgain_keep (s : State) (as : List Nat) : (syncAgain s as).otp = s.otp ∧ (syncAgain s as).pending = s.pending := by
  constructor <;>
  (unfold syncAgain
   try extract_lets
   repeat' split
   all_goals (try simp +zetaDelta))

@[simp ↓] theorem execTwinFrameSend_keep (u : Nat) (s : State) : OutKeeps s (execTwinFrameSend u s) := by
  unfold execTwinFrameSend
  try extract_lets
  apply OutKeeps.mk
  constructor <;>
  (repeat' split
   all_goals (try simp +zetaDelta))

theorem withRec_keep (s : State) (ty : Nat) (f : State → TwinRec → State)
    (hf : ∀ s r, (f s r).otp = s.otp ∧ (f s r).pending = s.pending) :
    (withRec s ty f).otp = s.otp ∧ (withRec s ty f).pending = s.pending := by
  unfold withRec
  repeat' split
  all_goals constructor <;> simp [hf]

@[simp ↓] theorem usedRec_keep (s : State) : (usedRec s).otp = s.otp ∧ (usedRec s).pending = s.pending := by
  constructor <;>
  (unfold usedRec
   try extract_lets
   repeat' split
   all_goals (try simp +zetaDelta))

theorem execBrickRecordReceive_keep (s : State) : OutKeeps s (execBrickRecordReceive s) := by
  unfold execBrickRecordReceive
  refine OutKeeps.mk (withRec_keep s 1 _ fun s r => ?_)
  constructor <;> ((try extract_lets) <;> (repeat' split) <;> simp +zetaDelta)

theorem execDirectRecordReceive_keep (s : State) : OutKeeps s (execDirectRecordReceive s) := by
  unfold execDirectRecordReceive
  refine OutKeeps.mk (withRec_keep s 2 _ fun s r => ?_)
  constructor <;> ((try extract_lets) <;> (repeat' split) <;> simp +zetaDelta)

theorem noteFwd_keep (s : State) (c : Nat) (m : Option Member) : Keeps s (noteFwd s c m) := ⟨rfl, rfl⟩

theorem fwdTxn_keep {f : TxnOp} (hf : TxnOk f) (s : State) (op : Nat) (h : CmdHdr) (w : List Word) (c : Nat) :
    Keeps s (fwdTxn f s op h w c) := by
  unfold fwdTxn
  refine .ite (noteFwd_keep _ _ _) ?_
  split
  · rename_i a ha
    exact Keeps.trans (hf.app ha) (noteFwd_keep _ _ _)
  · exact noteFwd_keep _ _ _

theorem fwdOpOf_ok {op : Nat} {f : TxnOp} (e : fwdOpOf op = some f) : TxnOk f := by
  unfold fwdOpOf at e
  split at e <;> cases e
  · exact axisStartOp_ok
  · exact axisOffOp_ok
  · exact courseSwapOp_ok
  · exact courseResumeOp_ok
  · exact courseStopOp_ok

/-- A fold whose every step keeps. -/
theorem Keeps.fold {α : Type} {g : State → α → State} (h : ∀ s x, Keeps s (g s x)) (l : List α) (s : State) : Keeps s (l.foldl g s) :=
  ⟨foldl_otp g (fun s x => (h s x).1) l s, foldl_pending g (fun s x => (h s x).2) l s⟩

@[simp ↓] theorem fwdRollback_keep (s : State) (t : Nat) : (fwdRollback s t).otp = s.otp ∧ (fwdRollback s t).pending = s.pending := by
  show Keeps s (fwdRollback s t)
  unfold fwdRollback
  refine Keeps.trans (b := { s with mirror := _ }) ⟨rfl, rfl⟩ (Keeps.fold (fun s c => ?_) _ _)
  refine .ite (useFree_keep s) (Keeps.trans (useFree_keep s) (Keeps.fold (fun s e => ?_) _ _))
  split
  · split
    · rename_i m _ _ f e
      exact (fwdOpOf_ok e).und _ _ _ _ _
    · exact .refl _
  · exact .refl _

@[simp ↓] theorem fwdApply_keep (s : State) (op : Nat) (h : CmdHdr) (w : List Word) (c : Nat) :
    (fwdApply s op h w c).otp = s.otp ∧ (fwdApply s op h w c).pending = s.pending := by
  unfold fwdApply
  extract_lets t g
  have ht : ∀ f, TxnOk f → (t f).otp = s.otp ∧ (t f).pending = s.pending := fun f hf => fwdTxn_keep hf s op h w c
  have hg : ∀ chk f, (∀ h w s, (f h w s : State).otp = s.otp ∧ (f h w s).pending = s.pending) →
      (g chk f).otp = s.otp ∧ (g chk f).pending = s.pending := by
    intro chk f hf
    simp only [g]
    split
    · simp
    · exact hf h w s
  split
  · exact hg _ _ doReflexSet_keep
  · exact hg (fun _ w s => axisBad s w 18) doReflexArm doReflexArm_keep
  · exact ht _ axisStartOp_ok
  · exact hg (fun _ w s => axisBad s w 14) doAxisQstop doAxisQstop_keep
  · exact ht _ axisOffOp_ok
  · exact ht _ courseSwapOp_ok
  · exact hg _ _ doCourseSafe_keep
  · exact ht _ courseResumeOp_ok
  · exact ht _ courseStopOp_ok
  · simp

theorem execCommandRecordReceive_keep (s : State) : OutKeeps s (execCommandRecordReceive s) := by
  unfold execCommandRecordReceive
  refine OutKeeps.mk (withRec_keep s 3 _ fun s r => ?_)
  constructor <;> ((try extract_lets) <;> (repeat' split) <;> simp +zetaDelta)

theorem Keeps.mirror {s t : State} (h : Keeps s t) (m : Mirror) : Keeps s { t with mirror := m } := h

@[simp ↓] theorem execForwardedCommandCommit_keep (s : State) : OutKeeps s (execForwardedCommandCommit s) := by
  unfold execForwardedCommandCommit
  refine OutKeeps.mk ?_
  show Keeps s _
  split
  · exact .refl s
  · rename_i f _
    refine .ite (.refl s) ?_
    have h1 : Keeps s (atNs s f.at_) := atNs_keep s f.at_
    have h2 := h1.mirror { (atNs s f.at_).mirror with fwd := (atNs s f.at_).mirror.fwd.erase f }
    have h3 w := h2.trans (fwdApply_keep _ f.op f.h w f.at_)
    exact .ite (.ite (h2.trans (noteFwd_keep _ _ _)) h2) (.ite (Keeps.trans ((h3 _).mirror _) (raise_keep _ _ _)) (h3 _))

theorem syncFold_keep (l : List Nat) (x : State × List Nat) :
    Keeps x.1 (l.foldl (fun (x : State × List Nat) a =>
      let t := sendRec x.1 (regionOfAxis a) (axsyncRec x.1 a)
      (t, if t.mirror.txQ.length = x.1.mirror.txQ.length then x.2 else a :: x.2)) x).1 := by
  induction l generalizing x with
  | nil => exact .refl _
  | cons a l ih =>
    rw [List.foldl_cons]
    exact Keeps.trans (sendRec_keep _ _ _) (ih _)

@[simp ↓] theorem syncStep_keep (s : State) : (syncStep s).otp = s.otp ∧ (syncStep s).pending = s.pending := by
  unfold syncStep
  extract_lets m l now x rest s1 done sr s2
  have hx : Keeps s x.1 := syncFold_keep _ _
  clear_value x
  show Keeps s _
  split
  · exact .refl _
  · split
    · have h2 : Keeps s s2 := hx
      split
      · exact Keeps.trans h2 (raise_keep _ _ _)
      · exact h2
    · split
      · exact raise_keep _ _ _
      · exact .refl _

theorem execAxsyncRecordReceive_keep (s : State) : OutKeeps s (execAxsyncRecordReceive s) := by
  unfold execAxsyncRecordReceive
  refine OutKeeps.mk (withRec_keep s 4 _ fun s r => ?_)
  constructor <;> ((try extract_lets) <;> (repeat' split) <;> simp +zetaDelta)

@[simp ↓] theorem bodyTwinQuery_keep (x0 : CmdHdr) (x1 : List Word) (s : State) : (bodyTwinQuery x0 x1 s).1.otp = s.otp ∧ (bodyTwinQuery x0 x1 s).1.pending = s.pending := by
  constructor <;>
  (unfold bodyTwinQuery
   try extract_lets
   repeat' split
   all_goals (try simp +zetaDelta))

@[simp ↓] theorem bodyTwinSet_keep (x0 : CmdHdr) (w : List Word) (s : State) : (bodyTwinSet x0 w s).1.otp = s.otp ∧ (bodyTwinSet x0 w s).1.pending = s.pending := by
  constructor <;>
  (unfold bodyTwinSet
   try extract_lets
   repeat' split
   all_goals (try simp +zetaDelta))

@[simp ↓] theorem bodyTwinLead_keep (x0 : CmdHdr) (x1 : List Word) (s : State) : (bodyTwinLead x0 x1 s).1.otp = s.otp ∧ (bodyTwinLead x0 x1 s).1.pending = s.pending := by
  constructor <;>
  (unfold bodyTwinLead
   try extract_lets
   repeat' split
   all_goals (try simp +zetaDelta))

@[simp ↓] theorem bodyTwinFollow_keep (x0 : CmdHdr) (x1 : List Word) (s : State) : (bodyTwinFollow x0 x1 s).1.otp = s.otp ∧ (bodyTwinFollow x0 x1 s).1.pending = s.pending := by
  constructor <;>
  (unfold bodyTwinFollow
   try extract_lets
   repeat' split
   all_goals (try simp +zetaDelta))

@[simp ↓] theorem bodyTwinOff_keep (x0 : CmdHdr) (x1 : List Word) (s : State) : (bodyTwinOff x0 x1 s).1.otp = s.otp ∧ (bodyTwinOff x0 x1 s).1.pending = s.pending := by
  constructor <;>
  (unfold bodyTwinOff
   try extract_lets
   repeat' split
   all_goals (try simp +zetaDelta))

@[simp ↓] theorem bodyTwinSync_keep (x0 : CmdHdr) (x1 : List Word) (s : State) : (bodyTwinSync x0 x1 s).1.otp = s.otp ∧ (bodyTwinSync x0 x1 s).1.pending = s.pending := by
  constructor <;>
  (unfold bodyTwinSync
   try extract_lets
   repeat' split
   all_goals (try simp +zetaDelta))

theorem twinHandoverOp_ok : TxnOk twinHandoverOp where
  app := by
    intro h w c s a e
    simp only [twinHandoverOp] at e
    (try extract_lets at e)
    repeat' split at e
    all_goals first | (cases e; constructor) | cases e
    all_goals try extract_lets
    all_goals (repeat' split)
    all_goals (try (simp +zetaDelta; done))
    all_goals (try first | refine busWrite_otp fun s => ?_ | refine busWrite_pending fun s => ?_ | refine busRead_otp fun s => ?_ | refine busRead_pending fun s => ?_ | refine bar2Write_otp fun s => ?_ | refine bar2Write_pending fun s => ?_ | refine (foldl_otp _ (fun s a => ?_) _ _).trans ?_ | refine (foldl_pending _ (fun s a => ?_) _ _).trans ?_)
    all_goals (repeat' split)
    all_goals (try (simp +zetaDelta; done))
    all_goals (try first | refine busWrite_otp fun s => ?_ | refine busWrite_pending fun s => ?_ | refine busRead_otp fun s => ?_ | refine busRead_pending fun s => ?_ | refine bar2Write_otp fun s => ?_ | refine bar2Write_pending fun s => ?_ | refine (foldl_otp _ (fun s a => ?_) _ _).trans ?_ | refine (foldl_pending _ (fun s a => ?_) _ _).trans ?_)
    all_goals (repeat' split)
    all_goals (simp +zetaDelta)
  und := by
    intro h w n m s
    constructor <;> ((try simp only [twinHandoverOp]) <;> (try extract_lets) <;> (repeat' split))
    all_goals (try (simp +zetaDelta; done))
    all_goals (try first | refine busWrite_otp fun s => ?_ | refine busWrite_pending fun s => ?_ | refine busRead_otp fun s => ?_ | refine busRead_pending fun s => ?_ | refine bar2Write_otp fun s => ?_ | refine bar2Write_pending fun s => ?_ | refine (foldl_otp _ (fun s a => ?_) _ _).trans ?_ | refine (foldl_pending _ (fun s a => ?_) _ _).trans ?_)
    all_goals (repeat' split)
    all_goals (try (simp +zetaDelta; done))
    all_goals (try first | refine busWrite_otp fun s => ?_ | refine busWrite_pending fun s => ?_ | refine busRead_otp fun s => ?_ | refine busRead_pending fun s => ?_ | refine bar2Write_otp fun s => ?_ | refine bar2Write_pending fun s => ?_ | refine (foldl_otp _ (fun s a => ?_) _ _).trans ?_ | refine (foldl_pending _ (fun s a => ?_) _ _).trans ?_)
    all_goals (repeat' split)
    all_goals (simp +zetaDelta)

@[simp ↓] theorem execTwinQuery_keep (h : CmdHdr) (w : List Word) (s : State) : OutKeeps s (execTwinQuery h w s) :=
  OutKeeps.mk (runCmd_keep _ _ _ _ _ (bodyTwinQuery_keep))

@[simp ↓] theorem execTwinSet_keep (h : CmdHdr) (w : List Word) (s : State) : OutKeeps s (execTwinSet h w s) :=
  OutKeeps.mk (runCmd_keep _ _ _ _ _ (bodyTwinSet_keep))

@[simp ↓] theorem execTwinLead_keep (h : CmdHdr) (w : List Word) (s : State) : OutKeeps s (execTwinLead h w s) :=
  OutKeeps.mk (runCmd_keep _ _ _ _ _ (bodyTwinLead_keep))

@[simp ↓] theorem execTwinFollow_keep (h : CmdHdr) (w : List Word) (s : State) : OutKeeps s (execTwinFollow h w s) :=
  OutKeeps.mk (runCmd_keep _ _ _ _ _ (bodyTwinFollow_keep))

@[simp ↓] theorem execTwinHandover_keep (h : CmdHdr) (w : List Word) (s : State) : OutKeeps s (execTwinHandover h w s) :=
  OutKeeps.mk (runLater_keep _ _ _ _ _ (bodyTxn_keep _ _ twinHandoverOp_ok))

@[simp ↓] theorem execTwinSync_keep (h : CmdHdr) (w : List Word) (s : State) : OutKeeps s (execTwinSync h w s) :=
  OutKeeps.mk (runCmd_keep _ _ _ _ _ (bodyTwinSync_keep))

@[simp ↓] theorem execTwinOff_keep (h : CmdHdr) (w : List Word) (s : State) : OutKeeps s (execTwinOff h w s) :=
  OutKeeps.mk (runCmd_keep _ _ _ _ _ (bodyTwinOff_keep))

/-! ### Machine/Trim.lean -/

@[simp ↓] theorem trimEnd_keep (s : State) (ok : Bool) : (trimEnd s ok).otp = s.otp ∧ (trimEnd s ok).pending = s.pending := by
  constructor <;>
  (unfold trimEnd
   try extract_lets
   repeat' split
   all_goals (try simp +zetaDelta))

@[simp ↓] theorem trimRound_keep (s : State) (x y : Int) : (trimRound s x y).otp = s.otp ∧ (trimRound s x y).pending = s.pending := by
  constructor <;>
  (unfold trimRound
   try extract_lets
   repeat' split
   all_goals (try simp +zetaDelta))

@[simp ↓] theorem execReedTrimRound_keep (edges : Nat) (s : State) : OutKeeps s (execReedTrimRound edges s) := by
  unfold execReedTrimRound
  try extract_lets
  apply OutKeeps.mk
  constructor <;>
  (repeat' split
   all_goals (try simp +zetaDelta))

@[simp ↓] theorem trimCycle_keep (s : State) : (trimCycle s).otp = s.otp ∧ (trimCycle s).pending = s.pending := by
  constructor <;>
  (unfold trimCycle
   try extract_lets
   repeat' split
   all_goals (try simp +zetaDelta))

@[simp ↓] theorem trimMark_keep (s : State) (n o e : Nat) : (trimMark s n o e).otp = s.otp ∧ (trimMark s n o e).pending = s.pending := by
  constructor <;> unfold trimMark <;> (try extract_lets)
  all_goals (try first | refine busWrite_otp fun s => ?_ | refine busWrite_pending fun s => ?_ | refine busRead_otp fun s => ?_ | refine busRead_pending fun s => ?_ | refine bar2Write_otp fun s => ?_ | refine bar2Write_pending fun s => ?_ | refine (foldl_otp _ (fun s a => ?_) _ _).trans ?_ | refine (foldl_pending _ (fun s a => ?_) _ _).trans ?_)
  all_goals (try dsimp only)
  all_goals (repeat' split)
  all_goals first | rfl | simp +zetaDelta

theorem execMarkReceive_keep (u : Nat) (blk : List Byte) (r : Nat) (s : State) : OutKeeps s (execMarkReceive u blk r s) := by
  unfold execMarkReceive
  refine OutKeeps.mk ?_
  split
  · rename_i e; exact blockIn_keep _ _ _ _ e
  · constructor <;> ((try extract_lets) <;> (repeat' split) <;> simp +zetaDelta)

@[simp ↓] theorem bodyReedTrim_keep (x0 : CmdHdr) (w : List Word) (s : State) : (bodyReedTrim x0 w s).1.otp = s.otp ∧ (bodyReedTrim x0 w s).1.pending = s.pending := by
  constructor <;>
  (unfold bodyReedTrim
   try extract_lets
   repeat' split
   all_goals (try simp +zetaDelta))

@[simp ↓] theorem execReedTrim_keep (h : CmdHdr) (w : List Word) (s : State) : OutKeeps s (execReedTrim h w s) :=
  OutKeeps.mk (runCmd_keep _ _ _ _ _ (bodyReedTrim_keep))

/-! ### Machine/Line.lean -/

@[simp ↓] theorem sendMarks_keep (s : State) (n t : Nat) : (sendMarks s n t).otp = s.otp ∧ (sendMarks s n t).pending = s.pending := by
  constructor <;>
  (unfold sendMarks
   try extract_lets
   repeat' split
   all_goals (try simp +zetaDelta))

@[simp ↓] theorem startSnapshot_keep (s : State) (n : Nat) : (startSnapshot s n).otp = s.otp ∧ (startSnapshot s n).pending = s.pending := by
  constructor <;>
  (unfold startSnapshot
   try extract_lets
   repeat' split
   all_goals (try simp +zetaDelta))

@[simp ↓] theorem clkoutEdge_keep (s : State) (n t : Nat) : (clkoutEdge s n t).otp = s.otp ∧ (clkoutEdge s n t).pending = s.pending := by
  constructor <;>
  (unfold clkoutEdge
   try extract_lets
   repeat' split
   all_goals (try simp +zetaDelta)
   all_goals (repeat' split)
   all_goals (try simp +zetaDelta))

@[simp ↓] theorem lineWork_keep (s : State) (n t : Nat) : (lineWork s n t).otp = s.otp ∧ (lineWork s n t).pending = s.pending := by
  constructor <;>
  (unfold lineWork
   try extract_lets
   repeat' split
   all_goals (try simp +zetaDelta))

@[simp ↓] theorem execLineBaseBoundary_keep (n : Nat) (s : State) : OutKeeps s (execLineBaseBoundary n s) := by
  unfold execLineBaseBoundary
  try extract_lets
  apply OutKeeps.mk
  constructor <;>
  (repeat' split
   all_goals (try simp +zetaDelta))

@[simp ↓] theorem execSnapshotPublish_keep (n : Nat) (s : State) : OutKeeps s (execSnapshotPublish n s) := by
  unfold execSnapshotPublish
  try extract_lets
  apply OutKeeps.mk
  constructor <;>
  (repeat' split
   all_goals (try simp +zetaDelta))

/-! ### Machine/Txn.lean -/

theorem txnOpOf_ok {op : Nat} {f : TxnOp} (e : txnOpOf op = some f) : TxnOk f := by
  unfold txnOpOf at e
  split at e
  all_goals first | (cases e) | skip
  · exact valveStartOp_ok
  · exact valveSwapOp_ok
  · exact valveStopOp_ok
  · exact courseStartOp_ok
  · exact courseSwapOp_ok
  · exact courseResumeOp_ok
  · exact courseStopOp_ok
  · exact axisStartOp_ok
  · exact axisOffOp_ok
  · exact flowAddOp_ok
  · exact flowWriteOp_ok
  · exact flowDeleteOp_ok
  · exact flowRecovResetOp_ok
  · exact queueWriteOp_ok
  · exact serviceSetOp_ok
  · exact portShapeOp_ok
  · exact twinHandoverOp_ok
  · exact sysRootReturnOp_ok

@[simp ↓] theorem closeTxn_keep (s : State) (id : Nat) : (closeTxn s id).otp = s.otp ∧ (closeTxn s id).pending = s.pending := by
  constructor <;>
  (unfold closeTxn
   try extract_lets
   repeat' split
   all_goals (try simp +zetaDelta))

@[simp ↓] theorem bodyTxnOpen_keep (h : CmdHdr) (w : List Word) (s : State) : (bodyTxnOpen h w s).1.otp = s.otp ∧ (bodyTxnOpen h w s).1.pending = s.pending := by
  constructor <;>
  (unfold bodyTxnOpen
   try extract_lets
   repeat' split
   all_goals (try simp +zetaDelta))

@[simp ↓] theorem bodyTxnAbort_keep (h : CmdHdr) (w : List Word) (s : State) : (bodyTxnAbort h w s).1.otp = s.otp ∧ (bodyTxnAbort h w s).1.pending = s.pending := by
  constructor <;>
  (unfold bodyTxnAbort
   try extract_lets
   repeat' split
   all_goals (try simp +zetaDelta))

@[simp ↓] theorem bodyTxnQuery_keep (h : CmdHdr) (w : List Word) (s : State) : (bodyTxnQuery h w s).1.otp = s.otp ∧ (bodyTxnQuery h w s).1.pending = s.pending := by
  constructor <;>
  (unfold bodyTxnQuery
   try extract_lets
   repeat' split
   all_goals (try simp +zetaDelta))

@[simp ↓] theorem execTxnExpired_keep (txid : Nat) (s : State) : OutKeeps s (execTxnExpired txid s) := by
  unfold execTxnExpired
  try extract_lets
  apply OutKeeps.mk
  constructor <;>
  (repeat' split
   all_goals (try simp +zetaDelta))

@[simp ↓] theorem forwardMembers_keep (s : State) (c : Nat) (ms : List Member) : (forwardMembers s c ms).otp = s.otp ∧ (forwardMembers s c ms).pending = s.pending := by
  constructor <;>
  (unfold forwardMembers
   try extract_lets
   repeat' split
   all_goals (try simp +zetaDelta))

@[simp ↓] theorem partnerDoes_keep (s : State) (b : Bool) : (partnerDoes s b).1.otp = s.otp ∧ (partnerDoes s b).1.pending = s.pending := by
  unfold partnerDoes
  split <;> simp

@[simp ↓] theorem commitTxn_keep (h : CmdHdr) (w : List Word) (s : State) : (commitTxn h w s).1.otp = s.otp ∧ (commitTxn h w s).1.pending = s.pending := by
  constructor <;>
  (unfold commitTxn
   try extract_lets
   repeat' split
   all_goals (try simp +zetaDelta)
   all_goals (repeat' split)
   all_goals (try simp +zetaDelta))

@[simp ↓] theorem execTxnCommit_keep (h : CmdHdr) (w : List Word) (s : State) : OutKeeps s (execTxnCommit h w s) :=
  OutKeeps.mk (runLater_keep _ _ _ _ _ commitTxn_keep)

theorem applyMember_keep (s : State) (c : Nat) (m : Member) :
    (applyMember s c m).1.otp = s.otp ∧ (applyMember s c m).1.pending = s.pending := by
  unfold applyMember
  extract_lets bad
  split
  · simp [bad]
  · split
    · simp [bad]
    · rename_i f hf
      split
      · simp [bad]
      · rename_i a ha; exact (txnOpOf_ok hf).app ha

theorem applyMembers_keep (c : Nat) (l : List Member) (a : State × List Member) :
    Keeps a.1 (l.foldl (fun (a : State × List Member) m => ((applyMember a.1 c m).1, a.2 ++ [(applyMember a.1 c m).2])) a).1 :=
  Keeps.foldl (g := fun (a : State × List Member) m => ((applyMember a.1 c m).1, a.2 ++ [(applyMember a.1 c m).2]))
    (fun a m => applyMember_keep a.1 c m) l a

@[simp ↓] theorem ownOutcome_keep (h : CmdHdr) (s : State) (x : State × Member) :
    (ownOutcome h s x).otp = x.1.otp ∧ (ownOutcome h s x).pending = x.1.pending := by
  unfold ownOutcome
  split <;> simp

/-- Every axis settled up to t. -/
theorem settled_keep (s : State) (t b : Nat) : Keeps s (settleAxes (atNs s t) b) :=
  Keeps.trans (atNs_keep s t) (settleAxes_keep _ _)

/-- A transaction closed and its commit answered. -/
theorem answered_keep (s : State) (id : Nat) (h : CmdHdr) (op : Nat) (r : Reply) : Keeps s (deliver (closeTxn s id) h op r) :=
  Keeps.trans (closeTxn_keep s id) (deliver_keep _ _ _ _)

theorem execTxnCommitApply_keep (txid : Nat) (s : State) : OutKeeps s (execTxnCommitApply txid s) := by
  unfold execTxnCommitApply
  refine OutKeeps.mk ?_
  show Keeps s _
  split
  · exact .refl s
  · split
    · exact .refl s
    · rename_i c h _
      refine .ite (.refl s) ?_
      dsimp only
      have h1 := settled_keep s c c
      generalize settleAxes (atNs s c) c = v at h1
      split
      · rename_i m _ _ _
        have h2 := h1.trans (partnerDoes_keep v (leads v m.op m.h))
        generalize partnerDoes v (leads v m.op m.h) = y at h2
        have h3 := h2.trans (applyMember_keep y.1 c m)
        exact .ite (h3.trans (ownOutcome_keep _ _ _)) (h3.trans (modTxn_keep _ _ _))
      · have h2 b l := (h1.trans (partnerDoes_keep v b)).trans (applyMembers_keep c l (_, []))
        exact .ite ((h2 _ _).trans (answered_keep _ _ _ _ _)) (.ite ((h2 _ _).trans (answered_keep _ _ _ _ _)) ((h2 _ _).trans (modTxn_keep _ _ _)))

theorem undoMember_keep (s : State) (c : Nat) (m : Member) :
    (undoMember s c m).1.otp = s.otp ∧ (undoMember s c m).1.pending = s.pending := by
  unfold undoMember
  split
  · simp
  · split
    · simp
    · split
      · simp
      · rename_i f hf; exact (txnOpOf_ok hf).und _ _ _ _ _

theorem undoMembers_keep (c : Nat) (l : List Member) (a : State × List Member) :
    (l.foldr (fun m (a : State × List Member) => ((undoMember a.1 c m).1, (undoMember a.1 c m).2 :: a.2)) a).1.otp = a.1.otp ∧
    (l.foldr (fun m (a : State × List Member) => ((undoMember a.1 c m).1, (undoMember a.1 c m).2 :: a.2)) a).1.pending
      = a.1.pending := by
  induction l with
  | nil => simp
  | cons m l ih => rw [List.foldr_cons]; exact ⟨(undoMember_keep _ _ _).1.trans ih.1, (undoMember_keep _ _ _).2.trans ih.2⟩

theorem execTxnRollback_keep (txid : Nat) (s : State) : OutKeeps s (execTxnRollback txid s) := by
  unfold execTxnRollback
  refine OutKeeps.mk ?_
  show Keeps s _
  split
  · exact .refl s
  · split
    · rename_i rb _ _
      refine .ite (.refl s) ?_
      dsimp only
      have h1 l := (settled_keep s rb (rb - 1)).trans (undoMembers_keep rb l (_, []))
      split <;> exact (h1 _).trans (answered_keep _ _ _ _ _)
    · exact .refl s

@[simp ↓] theorem loseHolds_keep (k : ResetKind) (s : State) : (loseHolds k s).otp = s.otp ∧ (loseHolds k s).pending = s.pending := by
  constructor <;>
  (unfold loseHolds
   try extract_lets
   repeat' split
   all_goals (try simp +zetaDelta))

@[simp ↓] theorem execTxnOpen_keep (h : CmdHdr) (w : List Word) (s : State) : OutKeeps s (execTxnOpen h w s) :=
  OutKeeps.mk (runCmd_keep _ _ _ _ _ (bodyTxnOpen_keep))

@[simp ↓] theorem execTxnAbort_keep (h : CmdHdr) (w : List Word) (s : State) : OutKeeps s (execTxnAbort h w s) :=
  OutKeeps.mk (runCmd_keep _ _ _ _ _ (bodyTxnAbort_keep))

@[simp ↓] theorem execTxnQuery_keep (h : CmdHdr) (w : List Word) (s : State) : OutKeeps s (execTxnQuery h w s) :=
  OutKeeps.mk (runCmd_keep _ _ _ _ _ (bodyTxnQuery_keep))

/-! ### Machine/Fifo.lean -/

@[simp ↓] theorem rewind_keep (s : State) (why : Nat) : (rewind s why).otp = s.otp ∧ (rewind s why).pending = s.pending := by
  constructor <;>
  (unfold rewind
   try extract_lets
   repeat' split
   all_goals (try simp +zetaDelta))

theorem bar2Write_otp {s : State} {g : State → State} (hf : ∀ s, (g s).otp = s.otp) : (bar2Write s g).otp = s.otp := by
  unfold bar2Write
  repeat' split
  all_goals simp [hf]

theorem bar2Write_pending {s : State} {g : State → State} (hf : ∀ s, (g s).pending = s.pending) : (bar2Write s g).pending = s.pending := by
  unfold bar2Write
  repeat' split
  all_goals simp [hf]

@[simp ↓] theorem execCmdFifoWrite_keep (ofs : Nat) (data : List Word) (whole poisoned : Bool) (s : State) : OutKeeps s (execCmdFifoWrite ofs data whole poisoned s) := by
  unfold execCmdFifoWrite
  try extract_lets
  apply OutKeeps.mk
  constructor <;>
  (repeat' split
   all_goals (try first | refine busWrite_otp fun s => ?_ | refine busWrite_pending fun s => ?_ | refine busRead_otp fun s => ?_ | refine busRead_pending fun s => ?_ | refine bar2Write_otp fun s => ?_ | refine bar2Write_pending fun s => ?_ | refine (foldl_otp _ (fun s a => ?_) _ _).trans ?_ | refine (foldl_pending _ (fun s a => ?_) _ _).trans ?_)
   all_goals (repeat' split)
   all_goals (try simp +zetaDelta)
   all_goals (try first | refine busWrite_otp fun s => ?_ | refine busWrite_pending fun s => ?_ | refine busRead_otp fun s => ?_ | refine busRead_pending fun s => ?_ | refine bar2Write_otp fun s => ?_ | refine bar2Write_pending fun s => ?_ | refine (foldl_otp _ (fun s a => ?_) _ _).trans ?_ | refine (foldl_pending _ (fun s a => ?_) _ _).trans ?_)
   all_goals (repeat' split)
   all_goals (try simp +zetaDelta))

@[simp ↓] theorem execCmdFifoWriteMode1_keep (ofs : Nat) (data : List (Option Byte)) (poisoned : Bool) (s : State) : OutKeeps s (execCmdFifoWriteMode1 ofs data poisoned s) := by
  unfold execCmdFifoWriteMode1
  try extract_lets
  apply OutKeeps.mk
  constructor <;>
  (repeat' split
   all_goals (try first | refine busWrite_otp fun s => ?_ | refine busWrite_pending fun s => ?_ | refine busRead_otp fun s => ?_ | refine busRead_pending fun s => ?_ | refine bar2Write_otp fun s => ?_ | refine bar2Write_pending fun s => ?_ | refine (foldl_otp _ (fun s a => ?_) _ _).trans ?_ | refine (foldl_pending _ (fun s a => ?_) _ _).trans ?_)
   all_goals (repeat' split)
   all_goals (try simp +zetaDelta)
   all_goals (try first | refine busWrite_otp fun s => ?_ | refine busWrite_pending fun s => ?_ | refine busRead_otp fun s => ?_ | refine busRead_pending fun s => ?_ | refine bar2Write_otp fun s => ?_ | refine bar2Write_pending fun s => ?_ | refine (foldl_otp _ (fun s a => ?_) _ _).trans ?_ | refine (foldl_pending _ (fun s a => ?_) _ _).trans ?_)
   all_goals (repeat' split)
   all_goals (try simp +zetaDelta))

@[simp ↓] theorem execCmdAbort_keep (s : State) : OutKeeps s (execCmdAbort s) := by
  unfold execCmdAbort
  try extract_lets
  apply OutKeeps.mk
  constructor <;>
  (repeat' split
   all_goals (try first | refine busWrite_otp fun s => ?_ | refine busWrite_pending fun s => ?_ | refine busRead_otp fun s => ?_ | refine busRead_pending fun s => ?_ | refine bar2Write_otp fun s => ?_ | refine bar2Write_pending fun s => ?_ | refine (foldl_otp _ (fun s a => ?_) _ _).trans ?_ | refine (foldl_pending _ (fun s a => ?_) _ _).trans ?_)
   all_goals (repeat' split)
   all_goals (try simp +zetaDelta)
   all_goals (try first | refine busWrite_otp fun s => ?_ | refine busWrite_pending fun s => ?_ | refine busRead_otp fun s => ?_ | refine busRead_pending fun s => ?_ | refine bar2Write_otp fun s => ?_ | refine bar2Write_pending fun s => ?_ | refine (foldl_otp _ (fun s a => ?_) _ _).trans ?_ | refine (foldl_pending _ (fun s a => ?_) _ _).trans ?_)
   all_goals (repeat' split)
   all_goals (try simp +zetaDelta))

@[simp ↓] theorem execFifoModeWrite_keep (mode : Bool) (s : State) : OutKeeps s (execFifoModeWrite mode s) := by
  unfold execFifoModeWrite
  try extract_lets
  apply OutKeeps.mk
  constructor <;>
  (repeat' split
   all_goals (try first | refine busWrite_otp fun s => ?_ | refine busWrite_pending fun s => ?_ | refine busRead_otp fun s => ?_ | refine busRead_pending fun s => ?_ | refine bar2Write_otp fun s => ?_ | refine bar2Write_pending fun s => ?_ | refine (foldl_otp _ (fun s a => ?_) _ _).trans ?_ | refine (foldl_pending _ (fun s a => ?_) _ _).trans ?_)
   all_goals (repeat' split)
   all_goals (try simp +zetaDelta)
   all_goals (try first | refine busWrite_otp fun s => ?_ | refine busWrite_pending fun s => ?_ | refine busRead_otp fun s => ?_ | refine busRead_pending fun s => ?_ | refine bar2Write_otp fun s => ?_ | refine bar2Write_pending fun s => ?_ | refine (foldl_otp _ (fun s a => ?_) _ _).trans ?_ | refine (foldl_pending _ (fun s a => ?_) _ _).trans ?_)
   all_goals (repeat' split)
   all_goals (try simp +zetaDelta))

@[simp ↓] theorem execRplRdWrite_keep (v : BitVec 16) (s : State) : OutKeeps s (execRplRdWrite v s) := by
  unfold execRplRdWrite
  try extract_lets
  apply OutKeeps.mk
  constructor <;>
  (repeat' split
   all_goals (try first | refine busWrite_otp fun s => ?_ | refine busWrite_pending fun s => ?_ | refine busRead_otp fun s => ?_ | refine busRead_pending fun s => ?_ | refine bar2Write_otp fun s => ?_ | refine bar2Write_pending fun s => ?_ | refine (foldl_otp _ (fun s a => ?_) _ _).trans ?_ | refine (foldl_pending _ (fun s a => ?_) _ _).trans ?_)
   all_goals (repeat' split)
   all_goals (try simp +zetaDelta)
   all_goals (try first | refine busWrite_otp fun s => ?_ | refine busWrite_pending fun s => ?_ | refine busRead_otp fun s => ?_ | refine busRead_pending fun s => ?_ | refine bar2Write_otp fun s => ?_ | refine bar2Write_pending fun s => ?_ | refine (foldl_otp _ (fun s a => ?_) _ _).trans ?_ | refine (foldl_pending _ (fun s a => ?_) _ _).trans ?_)
   all_goals (repeat' split)
   all_goals (try simp +zetaDelta))

@[simp ↓] theorem execEvtRdWrite_keep (v : BitVec 14) (s : State) : OutKeeps s (execEvtRdWrite v s) := by
  unfold execEvtRdWrite
  try extract_lets
  apply OutKeeps.mk
  constructor <;>
  (repeat' split
   all_goals (try first | refine busWrite_otp fun s => ?_ | refine busWrite_pending fun s => ?_ | refine busRead_otp fun s => ?_ | refine busRead_pending fun s => ?_ | refine bar2Write_otp fun s => ?_ | refine bar2Write_pending fun s => ?_ | refine (foldl_otp _ (fun s a => ?_) _ _).trans ?_ | refine (foldl_pending _ (fun s a => ?_) _ _).trans ?_)
   all_goals (repeat' split)
   all_goals (try simp +zetaDelta)
   all_goals (try first | refine busWrite_otp fun s => ?_ | refine busWrite_pending fun s => ?_ | refine busRead_otp fun s => ?_ | refine busRead_pending fun s => ?_ | refine bar2Write_otp fun s => ?_ | refine bar2Write_pending fun s => ?_ | refine (foldl_otp _ (fun s a => ?_) _ _).trans ?_ | refine (foldl_pending _ (fun s a => ?_) _ _).trans ?_)
   all_goals (repeat' split)
   all_goals (try simp +zetaDelta))

@[simp ↓] theorem takePacket_keep (s : State) : (takePacket s).1.otp = s.otp ∧ (takePacket s).1.pending = s.pending := by
  constructor <;>
  (unfold takePacket
   try extract_lets
   repeat' split
   all_goals (try simp +zetaDelta))

end Sys2Proof.Machine
end

