-- ==== Sys2Proof/Laws/KeepMover.lean ====
section
/-! SUPPORT. What the operations and the meanings of Mover, Safe, Reset leave as they are: the OTP and the queue of waiting commands. -/

set_option linter.unusedTactic false
set_option linter.unreachableTactic false
set_option linter.unusedVariables false
set_option linter.unusedSimpArgs false
set_option linter.unnecessarySeqFocus false

namespace Sys2Proof.Machine

/-! ### Machine/Mover.lean -/

@[simp ↓] theorem modChan_keep (s : State) (m : Nat) (f : Chan → Chan) : (modChan s m f).otp = s.otp ∧ (modChan s m f).pending = s.pending := by
  constructor <;>
  (unfold modChan
   try extract_lets
   repeat' split
   all_goals (try simp +zetaDelta))

@[simp ↓] theorem modMring_keep (s : State) (d r : Nat) (f : MRing → MRing) : (modMring s d r f).otp = s.otp ∧ (modMring s d r f).pending = s.pending := by
  constructor <;>
  (unfold modMring
   try extract_lets
   repeat' split
   all_goals (try simp +zetaDelta))

@[simp ↓] theorem moverEvent_keep (s : State) (d c k : Nat) : (moverEvent s d c k).otp = s.otp ∧ (moverEvent s d c k).pending = s.pending := by
  constructor <;>
  (unfold moverEvent
   try extract_lets
   repeat' split
   all_goals (try simp +zetaDelta))

@[simp ↓] theorem countMover_keep (s : State) (d c ofs n : Nat) : (countMover s d c ofs n).otp = s.otp ∧ (countMover s d c ofs n).pending = s.pending := by
  constructor <;>
  (unfold countMover
   try extract_lets
   repeat' split
   all_goals (try simp +zetaDelta)
   all_goals (repeat' split)
   all_goals (try simp +zetaDelta))

@[simp ↓] theorem finish_keep (s : State) (m e : Nat) : (finish s m e).otp = s.otp ∧ (finish s m e).pending = s.pending := by
  constructor <;>
  (unfold finish
   try extract_lets
   repeat' split
   all_goals (try simp +zetaDelta))

@[simp ↓] theorem stepLists_keep (s : State) (m : Nat) : (stepLists s m).otp = s.otp ∧ (stepLists s m).pending = s.pending := by
  constructor <;>
  (unfold stepLists
   try extract_lets
   repeat' split
   all_goals (try simp +zetaDelta)
   all_goals (repeat' split)
   all_goals (try simp +zetaDelta))

@[simp ↓] theorem putSpace_keep (s : State) (d sp a : Nat) (l : List Byte) : (putSpace s d sp a l).otp = s.otp ∧ (putSpace s d sp a l).pending = s.pending := by
  constructor <;>
  (unfold putSpace
   try extract_lets
   repeat' split
   all_goals (try simp +zetaDelta))

@[simp ↓] theorem writeOne_keep (s : State) (m : Nat) : (writeOne s m).otp = s.otp ∧ (writeOne s m).pending = s.pending := by
  constructor <;>
  (unfold writeOne
   try extract_lets
   repeat' split
   all_goals (try simp +zetaDelta)
   all_goals (repeat' split)
   all_goals (try simp +zetaDelta))

theorem writeEngine_keep (n : Nat) (s : State) (d : Nat) : Keeps s (writeEngine n s d) := by
  induction n generalizing s with
  | zero => exact .refl s
  | succ n ih =>
    unfold writeEngine
    split
    · exact .refl s
    · rename_i l _
      have h1 : Keeps s { s with mdies := s.mdies.put d { mdie s d with lastWritten := l } {} } := ⟨rfl, rfl⟩
      generalize { s with mdies := s.mdies.put d { mdie s d with lastWritten := l } {} } = u at h1
      have h2 := h1.trans (writeOne_keep u (32 * d + l))
      generalize hv : writeOne u (32 * d + l) = v at h2
      have h3 := h2.trans (stepLists_keep v (32 * d + l))
      simp only [hv]
      exact h3.trans (ih _)

theorem modChan_kp (s : State) (m : Nat) (f) : Keeps s (modChan s m f) := modChan_keep s m f

theorem moverEvent_kp (s : State) (d c k : Nat) : Keeps s (moverEvent s d c k) := moverEvent_keep s d c k

theorem finish_kp (s : State) (d c : Nat) : Keeps s (finish s d c) := finish_keep s d c

theorem settleXfer_kp (s : State) (m : Nat) : Keeps s (settleXfer s m) := by
  obtain ⟨t, ht⟩ : ∃ t, settleXfer s m = t := ⟨_, rfl⟩
  rw [ht]
  unfold settleXfer at ht
  extract_lets s1 u c x unit src e s2 stuck at ht
  have h : Keeps s u := Keeps.trans (stepLists_keep s m) (writeEngine_keep _ _ _)
  have h2 : Keeps s s2 := h.trans (modChan_kp u m _)
  have hf k : Keeps s (finish u m k) := h.trans (finish_kp u m k)
  have hg k : Keeps s (finish s2 m k) := h2.trans (finish_kp s2 m k)
  clear_value u c x unit e s2 stuck
  subst ht
  refine .ite h (.ite (hf _) (.ite (hf _) (.ite (hf _) ?_)))
  split
  · exact .ite (hg _) h2
  · exact .ite (hg _) h2

@[simp ↓] theorem settleXfer_keep (s : State) (m : Nat) : (settleXfer s m).otp = s.otp ∧ (settleXfer s m).pending = s.pending :=
  settleXfer_kp s m

theorem startXfer_kp (s : State) (m : Nat) (shadow : Bool) : Keeps s (startXfer s m shadow) := by
  unfold startXfer
  extract_lets d c ev x s1
  have hev : ∀ u, Keeps u (ev u) := fun u => moverEvent_kp _ _ _ _
  have h1 : Keeps s s1 := modChan_kp s m _
  clear_value ev x c s1
  refine Keeps.ite ((modChan_kp s m _).trans (hev _)) ?_
  refine h1.trans ?_
  split
  · exact ((modChan_kp s1 m _).trans (finish_kp _ m _)).trans (hev _)
  · exact Keeps.ite (finish_kp s1 m 0) (.refl _)

@[simp ↓] theorem startXfer_keep (s : State) (m : Nat) (shadow : Bool) :
    (startXfer s m shadow).otp = s.otp ∧ (startXfer s m shadow).pending = s.pending := startXfer_kp s m shadow

@[simp ↓] theorem handOver_keep (s : State) (m : Nat) : (handOver s m).otp = s.otp ∧ (handOver s m).pending = s.pending := by
  constructor <;>
  (unfold handOver
   try extract_lets
   repeat' split
   all_goals (try simp +zetaDelta))

@[simp ↓] theorem execMoverHandover_keep (m : Nat) (s : State) : OutKeeps s (execMoverHandover m s) := by
  unfold execMoverHandover
  try extract_lets
  apply OutKeeps.mk
  constructor <;>
  (repeat' split
   all_goals (try simp +zetaDelta))

@[simp ↓] theorem setWrite_keep (s : State) (m ofs : Nat) (v : Word) (go : Bool) : (setWrite s m ofs v go).otp = s.otp ∧ (setWrite s m ofs v go).pending = s.pending := by
  constructor <;>
  (unfold setWrite
   try extract_lets
   repeat' split
   all_goals (try simp +zetaDelta))

@[simp ↓] theorem execMoverSetWrite_keep (m ofs : Nat) (v : Word) (s : State) : OutKeeps s (execMoverSetWrite m ofs v s) := by
  unfold execMoverSetWrite
  try extract_lets
  apply OutKeeps.mk
  constructor <;>
  (repeat' split
   all_goals (try first | refine busWrite_otp fun s => ?_ | refine busWrite_pending fun s => ?_ | refine busRead_otp fun s => ?_ | refine busRead_pending fun s => ?_ | refine bar2Write_otp fun s => ?_ | refine bar2Write_pending fun s => ?_ | refine (foldl_otp _ (fun s a => ?_) _ _).trans ?_ | refine (foldl_pending _ (fun s a => ?_) _ _).trans ?_)
   all_goals (repeat' split)
   all_goals (try simp +zetaDelta)
   all_goals (try first | refine busWrite_otp fun s => ?_ | refine busWrite_pending fun s => ?_ | refine busRead_otp fun s => ?_ | refine busRead_pending fun s => ?_ | refine bar2Write_otp fun s => ?_ | refine bar2Write_pending fun s => ?_ | refine (foldl_otp _ (fun s a => ?_) _ _).trans ?_ | refine (foldl_pending _ (fun s a => ?_) _ _).trans ?_)
   all_goals (repeat' split)
   all_goals (try simp +zetaDelta))

@[simp ↓] theorem execMoverGo_keep (m : Nat) (ctrl : Word) (s : State) : OutKeeps s (execMoverGo m ctrl s) := by
  unfold execMoverGo
  try extract_lets
  apply OutKeeps.mk
  constructor <;>
  (repeat' split
   all_goals (try first | refine busWrite_otp fun s => ?_ | refine busWrite_pending fun s => ?_ | refine busRead_otp fun s => ?_ | refine busRead_pending fun s => ?_ | refine bar2Write_otp fun s => ?_ | refine bar2Write_pending fun s => ?_ | refine (foldl_otp _ (fun s a => ?_) _ _).trans ?_ | refine (foldl_pending _ (fun s a => ?_) _ _).trans ?_)
   all_goals (repeat' split)
   all_goals (try simp +zetaDelta)
   all_goals (try first | refine busWrite_otp fun s => ?_ | refine busWrite_pending fun s => ?_ | refine busRead_otp fun s => ?_ | refine busRead_pending fun s => ?_ | refine bar2Write_otp fun s => ?_ | refine bar2Write_pending fun s => ?_ | refine (foldl_otp _ (fun s a => ?_) _ _).trans ?_ | refine (foldl_pending _ (fun s a => ?_) _ _).trans ?_)
   all_goals (repeat' split)
   all_goals (try simp +zetaDelta))

@[simp ↓] theorem execMoverAbort_keep (m : Nat) (s : State) : OutKeeps s (execMoverAbort m s) := by
  unfold execMoverAbort
  try extract_lets
  apply OutKeeps.mk
  constructor <;>
  (repeat' split
   all_goals (try first | refine busWrite_otp fun s => ?_ | refine busWrite_pending fun s => ?_ | refine busRead_otp fun s => ?_ | refine busRead_pending fun s => ?_ | refine bar2Write_otp fun s => ?_ | refine bar2Write_pending fun s => ?_ | refine (foldl_otp _ (fun s a => ?_) _ _).trans ?_ | refine (foldl_pending _ (fun s a => ?_) _ _).trans ?_)
   all_goals (repeat' split)
   all_goals (try simp +zetaDelta)
   all_goals (try first | refine busWrite_otp fun s => ?_ | refine busWrite_pending fun s => ?_ | refine busRead_otp fun s => ?_ | refine busRead_pending fun s => ?_ | refine bar2Write_otp fun s => ?_ | refine bar2Write_pending fun s => ?_ | refine (foldl_otp _ (fun s a => ?_) _ _).trans ?_ | refine (foldl_pending _ (fun s a => ?_) _ _).trans ?_)
   all_goals (repeat' split)
   all_goals (try simp +zetaDelta))

@[simp ↓] theorem execMoverClear_keep (m : Nat) (s : State) : OutKeeps s (execMoverClear m s) := by
  unfold execMoverClear
  try extract_lets
  apply OutKeeps.mk
  constructor <;>
  (repeat' split
   all_goals (try first | refine busWrite_otp fun s => ?_ | refine busWrite_pending fun s => ?_ | refine busRead_otp fun s => ?_ | refine busRead_pending fun s => ?_ | refine bar2Write_otp fun s => ?_ | refine bar2Write_pending fun s => ?_ | refine (foldl_otp _ (fun s a => ?_) _ _).trans ?_ | refine (foldl_pending _ (fun s a => ?_) _ _).trans ?_)
   all_goals (repeat' split)
   all_goals (try simp +zetaDelta)
   all_goals (try first | refine busWrite_otp fun s => ?_ | refine busWrite_pending fun s => ?_ | refine busRead_otp fun s => ?_ | refine busRead_pending fun s => ?_ | refine bar2Write_otp fun s => ?_ | refine bar2Write_pending fun s => ?_ | refine (foldl_otp _ (fun s a => ?_) _ _).trans ?_ | refine (foldl_pending _ (fun s a => ?_) _ _).trans ?_)
   all_goals (repeat' split)
   all_goals (try simp +zetaDelta))

@[simp ↓] theorem execRingCfgWrite_keep (d r ofs : Nat) (v : Word) (s : State) : OutKeeps s (execRingCfgWrite d r ofs v s) := by
  unfold execRingCfgWrite
  try extract_lets
  apply OutKeeps.mk
  constructor <;>
  (repeat' split
   all_goals (try first | refine busWrite_otp fun s => ?_ | refine busWrite_pending fun s => ?_ | refine busRead_otp fun s => ?_ | refine busRead_pending fun s => ?_ | refine bar2Write_otp fun s => ?_ | refine bar2Write_pending fun s => ?_ | refine (foldl_otp _ (fun s a => ?_) _ _).trans ?_ | refine (foldl_pending _ (fun s a => ?_) _ _).trans ?_)
   all_goals (repeat' split)
   all_goals (try simp +zetaDelta)
   all_goals (try first | refine busWrite_otp fun s => ?_ | refine busWrite_pending fun s => ?_ | refine busRead_otp fun s => ?_ | refine busRead_pending fun s => ?_ | refine bar2Write_otp fun s => ?_ | refine bar2Write_pending fun s => ?_ | refine (foldl_otp _ (fun s a => ?_) _ _).trans ?_ | refine (foldl_pending _ (fun s a => ?_) _ _).trans ?_)
   all_goals (repeat' split)
   all_goals (try simp +zetaDelta))

@[simp ↓] theorem execCrRdWrite_keep (d r : Nat) (v : BitVec 17) (s : State) : OutKeeps s (execCrRdWrite d r v s) := by
  unfold execCrRdWrite
  try extract_lets
  apply OutKeeps.mk
  constructor <;>
  (repeat' split
   all_goals (try first | refine busWrite_otp fun s => ?_ | refine busWrite_pending fun s => ?_ | refine busRead_otp fun s => ?_ | refine busRead_pending fun s => ?_ | refine bar2Write_otp fun s => ?_ | refine bar2Write_pending fun s => ?_ | refine (foldl_otp _ (fun s a => ?_) _ _).trans ?_ | refine (foldl_pending _ (fun s a => ?_) _ _).trans ?_)
   all_goals (repeat' split)
   all_goals (try simp +zetaDelta)
   all_goals (try first | refine busWrite_otp fun s => ?_ | refine busWrite_pending fun s => ?_ | refine busRead_otp fun s => ?_ | refine busRead_pending fun s => ?_ | refine bar2Write_otp fun s => ?_ | refine bar2Write_pending fun s => ?_ | refine (foldl_otp _ (fun s a => ?_) _ _).trans ?_ | refine (foldl_pending _ (fun s a => ?_) _ _).trans ?_)
   all_goals (repeat' split)
   all_goals (try simp +zetaDelta))

@[simp ↓] theorem atCore_keep (s : State) (cyc : Nat) : (atCore s cyc).otp = s.otp ∧ (atCore s cyc).pending = s.pending := by
  constructor <;>
  (unfold atCore
   try extract_lets
   repeat' split
   all_goals (try simp +zetaDelta))

@[simp ↓] theorem chargeBurst_keep (s : State) (m n : Nat) : (chargeBurst s m n).otp = s.otp ∧ (chargeBurst s m n).pending = s.pending := by
  constructor <;>
  (unfold chargeBurst
   try extract_lets
   repeat' split
   all_goals (try simp +zetaDelta))

@[simp ↓] theorem execMoverBurstIssue_keep (d : Nat) (s : State) : OutKeeps s (execMoverBurstIssue d s) := by
  unfold execMoverBurstIssue
  try extract_lets
  apply OutKeeps.mk
  constructor <;>
  (repeat' split
   all_goals (try simp +zetaDelta)
   all_goals (repeat' split)
   all_goals (try simp +zetaDelta))

theorem retried_keep (s : State) (m used : Nat) {again fail : State → State} (ha : ∀ s, Keeps s (again s)) (hf : ∀ s, Keeps s (fail s)) :
    Keeps s (retried s m used again fail) :=
  .ite (((modChan_kp s m _).trans (countMover_keep _ _ _ _ _)).trans (ha _)) (hf _)

theorem execMoverBurstComplete_keep (m : Nat) (ok : Bool) (data : List Byte) (s : State) :
    OutKeeps s (execMoverBurstComplete m ok data s) := by
  unfold execMoverBurstComplete
  refine OutKeeps.mk ?_
  show Keeps s _
  split
  · exact .refl _
  · refine Keeps.ite (.refl _) (Keeps.ite (retried_keep _ _ _ (fun s => ?_) (fun s => ?_)) ?_)
    · exact (modChan_kp _ _ _).trans (chargeBurst_keep _ _ _)
    · exact (modChan_kp _ _ _).trans (settleXfer_kp _ _)
    · exact (modChan_kp _ _ _).trans (settleXfer_kp _ _)

theorem execMoverListFetch_keep (m : Nat) (dst ok : Bool) (entry : List Word) (s : State) :
    OutKeeps s (execMoverListFetch m dst ok entry s) := by
  unfold execMoverListFetch
  refine OutKeeps.mk ?_
  show Keeps s _
  refine Keeps.ite (.refl _) (Keeps.ite (retried_keep _ _ _ (fun s => ?_) (fun s => ?_)) ?_)
  · exact modChan_kp _ _ _
  · exact (modChan_kp _ _ _).trans (settleXfer_kp _ _)
  · exact (modChan_kp _ _ _).trans (settleXfer_kp _ _)

theorem execMoverRecordWrite_keep (m : Nat) (s : State) : OutKeeps s (execMoverRecordWrite m s) := by
  unfold execMoverRecordWrite
  refine OutKeeps.mk ?_
  show Keeps s _
  split
  · exact .refl _
  · refine Keeps.ite (.refl _) (Keeps.ite (Keeps.ite (.refl _) ?_) (Keeps.ite (.refl _) ?_))
    · exact (Keeps.of (modChan_keep _ _ _)).trans (moverEvent_keep _ _ _ _)
    · have h : ∀ d e a l f g, Keeps s (countMover (modMring (putSpace s d e a l) d f g) d (m % 32) 0x2118 1) :=
        fun d e a l f g => ((Keeps.of (putSpace_keep _ _ _ _ _)).trans (modMring_keep _ _ _ _)).trans (countMover_keep _ _ _ _ _)
      have k : ∀ (c : Bool) (u : State) x f, Keeps s u → Keeps s (modChan (if c then emit u x else u) m f) := fun c u x f h =>
        (Keeps.ite (h.trans (emit_keep _ _)) h).trans (modChan_keep _ _ _)
      refine Keeps.ite (Keeps.trans ?_ (moverEvent_kp _ _ _ _)) ?_
      · exact k _ _ _ _ (h _ _ _ _ _ _)
      · exact k _ _ _ _ (h _ _ _ _ _ _)

/-! ### Machine/Safe.lean -/

@[simp ↓] theorem assertFaultn_keep (s : State) : (assertFaultn s).otp = s.otp ∧ (assertFaultn s).pending = s.pending := by
  constructor <;>
  (unfold assertFaultn
   try extract_lets
   repeat' split
   all_goals (try simp +zetaDelta))

@[simp ↓] theorem releaseFaultn_keep (s : State) : (releaseFaultn s).otp = s.otp ∧ (releaseFaultn s).pending = s.pending := by
  constructor <;>
  (unfold releaseFaultn
   try extract_lets
   repeat' split
   all_goals (try simp +zetaDelta))

@[simp ↓] theorem execFaultnPulseEnd_keep (s : State) : OutKeeps s (execFaultnPulseEnd s) := by
  unfold execFaultnPulseEnd
  try extract_lets
  apply OutKeeps.mk
  constructor <;>
  (repeat' split
   all_goals (try simp +zetaDelta))

@[simp ↓] theorem execFaultnRelease_keep (s : State) : OutKeeps s (execFaultnRelease s) := by
  unfold execFaultnRelease
  try extract_lets
  apply OutKeeps.mk
  constructor <;>
  (repeat' split
   all_goals (try first | refine busWrite_otp fun s => ?_ | refine busWrite_pending fun s => ?_ | refine busRead_otp fun s => ?_ | refine busRead_pending fun s => ?_ | refine bar2Write_otp fun s => ?_ | refine bar2Write_pending fun s => ?_ | refine (foldl_otp _ (fun s a => ?_) _ _).trans ?_ | refine (foldl_pending _ (fun s a => ?_) _ _).trans ?_)
   all_goals (repeat' split)
   all_goals (try simp +zetaDelta)
   all_goals (try first | refine busWrite_otp fun s => ?_ | refine busWrite_pending fun s => ?_ | refine busRead_otp fun s => ?_ | refine busRead_pending fun s => ?_ | refine bar2Write_otp fun s => ?_ | refine bar2Write_pending fun s => ?_ | refine (foldl_otp _ (fun s a => ?_) _ _).trans ?_ | refine (foldl_pending _ (fun s a => ?_) _ _).trans ?_)
   all_goals (repeat' split)
   all_goals (try simp +zetaDelta))

@[simp ↓] theorem execLsoDriveWrite_keep (v : BitVec 8) (s : State) : OutKeeps s (execLsoDriveWrite v s) := by
  unfold execLsoDriveWrite
  try extract_lets
  apply OutKeeps.mk
  constructor <;>
  (repeat' split
   all_goals (try first | refine busWrite_otp fun s => ?_ | refine busWrite_pending fun s => ?_ | refine busRead_otp fun s => ?_ | refine busRead_pending fun s => ?_ | refine bar2Write_otp fun s => ?_ | refine bar2Write_pending fun s => ?_ | refine (foldl_otp _ (fun s a => ?_) _ _).trans ?_ | refine (foldl_pending _ (fun s a => ?_) _ _).trans ?_)
   all_goals (repeat' split)
   all_goals (try simp +zetaDelta)
   all_goals (try first | refine busWrite_otp fun s => ?_ | refine busWrite_pending fun s => ?_ | refine busRead_otp fun s => ?_ | refine busRead_pending fun s => ?_ | refine bar2Write_otp fun s => ?_ | refine bar2Write_pending fun s => ?_ | refine (foldl_otp _ (fun s a => ?_) _ _).trans ?_ | refine (foldl_pending _ (fun s a => ?_) _ _).trans ?_)
   all_goals (repeat' split)
   all_goals (try simp +zetaDelta))

@[simp ↓] theorem bodyLsoSet_keep (x0 : CmdHdr) (w : List Word) (s : State) : (bodyLsoSet x0 w s).1.otp = s.otp ∧ (bodyLsoSet x0 w s).1.pending = s.pending := by
  constructor <;>
  (unfold bodyLsoSet
   try extract_lets
   repeat' split
   all_goals (try simp +zetaDelta))

@[simp ↓] theorem bodyFaultnSet_keep (x0 : CmdHdr) (w : List Word) (s : State) : (bodyFaultnSet x0 w s).1.otp = s.otp ∧ (bodyFaultnSet x0 w s).1.pending = s.pending := by
  constructor <;>
  (unfold bodyFaultnSet
   try extract_lets
   repeat' split
   all_goals (try simp +zetaDelta))

@[simp ↓] theorem regionSafe_keep (s : State) (r t : Nat) : (regionSafe s r t).otp = s.otp ∧ (regionSafe s r t).pending = s.pending := by
  constructor <;>
  (unfold regionSafe
   try extract_lets
   repeat' split
   all_goals (try simp +zetaDelta))

@[simp ↓] theorem packageSafe_keep (s : State) (t : Nat) : (packageSafe s t).otp = s.otp ∧ (packageSafe s t).pending = s.pending := by
  constructor <;>
  (unfold packageSafe
   try extract_lets
   repeat' split
   all_goals (try simp +zetaDelta))

@[simp ↓] theorem dropTx_keep (s : State) : (dropTx s).otp = s.otp ∧ (dropTx s).pending = s.pending := by
  constructor <;>
  (unfold dropTx
   try extract_lets
   repeat' split
   all_goals (try simp +zetaDelta))

@[simp ↓] theorem withholdTwins_keep (s : State) : (withholdTwins s).otp = s.otp ∧ (withholdTwins s).pending = s.pending := by
  constructor <;>
  (unfold withholdTwins
   try extract_lets
   repeat' split
   all_goals (try simp +zetaDelta))

@[simp ↓] theorem clockLossSafe_keep (s : State) : (clockLossSafe s).otp = s.otp ∧ (clockLossSafe s).pending = s.pending := by
  constructor <;>
  (unfold clockLossSafe
   try extract_lets
   repeat' split
   all_goals (try simp +zetaDelta))

@[simp ↓] theorem beginMask_keep (s : State) (k : ResetKind) : (beginMask s k).otp = s.otp ∧ (beginMask s k).pending = s.pending := by
  constructor <;>
  (unfold beginMask
   try extract_lets
   repeat' split
   all_goals (try simp +zetaDelta))

@[simp ↓] theorem endMask_keep (s : State) (k : ResetKind) : (endMask s k).otp = s.otp ∧ (endMask s k).pending = s.pending := by
  constructor <;>
  (unfold endMask
   try extract_lets
   repeat' split
   all_goals (try simp +zetaDelta))

@[simp ↓] theorem execResetMaskEnd_keep (k : ResetKind) (s : State) : OutKeeps s (execResetMaskEnd k s) := by
  unfold execResetMaskEnd
  try extract_lets
  apply OutKeeps.mk
  constructor <;>
  (repeat' split
   all_goals (try simp +zetaDelta))

@[simp ↓] theorem execFaultnSet_keep (h : CmdHdr) (w : List Word) (s : State) : OutKeeps s (execFaultnSet h w s) :=
  OutKeeps.mk (runCmd_keep _ _ _ _ _ (bodyFaultnSet_keep))

@[simp ↓] theorem execLsoSet_keep (h : CmdHdr) (w : List Word) (s : State) : OutKeeps s (execLsoSet h w s) :=
  OutKeeps.mk (runCmd_keep _ _ _ _ _ (bodyLsoSet_keep))

/-! ### Machine/Reset.lean -/

@[simp ↓] theorem courseOff_keep (s : State) (p : Nat) : (courseOff s p).otp = s.otp ∧ (courseOff s p).pending = s.pending := by
  constructor <;>
  (unfold courseOff
   try extract_lets
   repeat' split
   all_goals (try simp +zetaDelta))

@[simp ↓] theorem stopPorts_keep (k : ResetKind) (s : State) : (stopPorts k s).otp = s.otp ∧ (stopPorts k s).pending = s.pending := by
  constructor <;>
  (unfold stopPorts
   try extract_lets
   repeat' split
   all_goals (try simp +zetaDelta))

@[simp ↓] theorem clearAxes_keep (low : Bool) (k : ResetKind) (s : State) : (clearAxes low k s).otp = s.otp ∧ (clearAxes low k s).pending = s.pending := by
  constructor <;>
  (unfold clearAxes
   try extract_lets
   repeat' split
   all_goals (try simp +zetaDelta))

@[simp ↓] theorem loseActs_keep (k : ResetKind) (s : State) : (loseActs k s).otp = s.otp ∧ (loseActs k s).pending = s.pending := by
  constructor <;>
  (unfold loseActs
   try extract_lets
   repeat' split
   all_goals (try simp +zetaDelta))

@[simp ↓] theorem clearTraffic_keep (low : Bool) (k : ResetKind) (s : State) : (clearTraffic low k s).otp = s.otp ∧ (clearTraffic low k s).pending = s.pending := by
  constructor <;>
  (unfold clearTraffic
   try extract_lets
   repeat' split
   all_goals (try simp +zetaDelta))

@[simp ↓] theorem clearMover_keep (k : ResetKind) (s : State) : (clearMover k s).otp = s.otp ∧ (clearMover k s).pending = s.pending := by
  constructor <;>
  (unfold clearMover
   try extract_lets
   repeat' split
   all_goals (try simp +zetaDelta))

@[simp ↓] theorem clearLinks_keep (k : ResetKind) (s : State) : (clearLinks k s).otp = s.otp ∧ (clearLinks k s).pending = s.pending := by
  constructor <;>
  (unfold clearLinks
   try extract_lets
   repeat' split
   all_goals (try simp +zetaDelta))

@[simp ↓] theorem clearLanes_keep (low : Bool) (k : ResetKind) (s : State) : (clearLanes low k s).otp = s.otp ∧ (clearLanes low k s).pending = s.pending := by
  constructor <;>
  (unfold clearLanes
   try extract_lets
   repeat' split
   all_goals (try simp +zetaDelta))

@[simp ↓] theorem clearDdr_keep (k : ResetKind) (s : State) : (clearDdr k s).otp = s.otp ∧ (clearDdr k s).pending = s.pending := by
  constructor <;>
  (unfold clearDdr
   try extract_lets
   repeat' split
   all_goals (try simp +zetaDelta))

@[simp ↓] theorem clearTrace_keep (k : ResetKind) (s : State) : (clearTrace k s).otp = s.otp ∧ (clearTrace k s).pending = s.pending := by
  constructor <;>
  (unfold clearTrace
   try extract_lets
   repeat' split
   all_goals (try simp +zetaDelta)
   all_goals (repeat' split)
   all_goals (try simp +zetaDelta))

@[simp ↓] theorem clearDie0_keep (low : Bool) (k : ResetKind) (s : State) : (clearDie0 low k s).otp = s.otp ∧ (clearDie0 low k s).pending = s.pending := by
  constructor <;>
  (unfold clearDie0
   try extract_lets
   repeat' split
   all_goals (try simp +zetaDelta))

@[simp ↓] theorem clearPackage_keep (k : ResetKind) (s : State) : (clearPackage k s).otp = s.otp ∧ (clearPackage k s).pending = s.pending := by
  constructor <;>
  (unfold clearPackage
   try extract_lets
   repeat' split
   all_goals (try simp +zetaDelta))

@[simp ↓] theorem clearScope_keep (k : ResetKind) (s : State) : (clearScope k s).otp = s.otp ∧ (clearScope k s).pending = s.pending := by
  constructor <;>
  (unfold clearScope
   try extract_lets
   repeat' split
   all_goals (try simp +zetaDelta)
   all_goals (repeat' split)
   all_goals (try simp +zetaDelta))

@[simp ↓] theorem clearLow_keep (k : ResetKind) (s : State) : (clearLow k s).otp = s.otp ∧ (clearLow k s).pending = s.pending := by
  constructor <;>
  (unfold clearLow
   try extract_lets
   repeat' split
   all_goals (try simp +zetaDelta)
   all_goals (repeat' split)
   all_goals (try simp +zetaDelta))

@[simp ↓] theorem setRegion_keep (s : State) (r v : Nat) : (setRegion s r v).otp = s.otp ∧ (setRegion s r v).pending = s.pending := by
  constructor <;>
  (unfold setRegion
   try extract_lets
   repeat' split
   all_goals (try simp +zetaDelta))

@[simp ↓] theorem setDie_keep (s : State) (d v : Nat) : (setDie s d v).otp = s.otp ∧ (setDie s d v).pending = s.pending := by
  constructor <;>
  (unfold setDie
   try extract_lets
   repeat' split
   all_goals (try simp +zetaDelta))

@[simp ↓] theorem setScope_keep (k : ResetKind) (v : Nat) (s : State) : (setScope k v s).otp = s.otp ∧ (setScope k v s).pending = s.pending := by
  constructor <;>
  (unfold setScope
   try extract_lets
   repeat' split
   all_goals (try simp +zetaDelta))

@[simp ↓] theorem dropGate_keep (k : ResetKind) (s : State) : (dropGate k s).otp = s.otp ∧ (dropGate k s).pending = s.pending := by
  constructor <;>
  (unfold dropGate
   try extract_lets
   repeat' split
   all_goals (try simp +zetaDelta))

@[simp ↓] theorem setLockstep_keep (s : State) (b : Bool) : (setLockstep s b).otp = s.otp ∧ (setLockstep s b).pending = s.pending := by
  constructor <;>
  (unfold setLockstep
   try extract_lets
   repeat' split
   all_goals (try simp +zetaDelta))

@[simp ↓] theorem beginReset_keep (k : ResetKind) (s : State) : (beginReset k s).otp = s.otp ∧ (beginReset k s).pending = s.pending := by
  constructor <;>
  (unfold beginReset
   try extract_lets
   repeat' split
   all_goals (try simp +zetaDelta))

@[simp ↓] theorem issueReset_keep (s : State) (k : ResetKind) : (issueReset s k).otp = s.otp ∧ (issueReset s k).pending = s.pending := by
  constructor <;>
  (unfold issueReset
   try extract_lets
   repeat' split
   all_goals (try simp +zetaDelta))

@[simp ↓] theorem plainResetBegin_keep (k : ResetKind) (s : State) : OutKeeps s (plainResetBegin k s) := by
  unfold plainResetBegin
  try extract_lets
  apply OutKeeps.mk
  constructor <;>
  (repeat' split
   all_goals (try simp +zetaDelta))

@[simp ↓] theorem pairReturns_keep (s : State) (d : Nat) : (pairReturns s d).otp = s.otp ∧ (pairReturns s d).pending = s.pending := by
  constructor <;>
  (unfold pairReturns
   try extract_lets
   repeat' split
   all_goals (try simp +zetaDelta))

@[simp ↓] theorem wakeLanes_keep (k : ResetKind) (s : State) : (wakeLanes k s).otp = s.otp ∧ (wakeLanes k s).pending = s.pending := by
  constructor <;>
  (unfold wakeLanes
   try extract_lets
   repeat' split
   all_goals (try simp +zetaDelta))

@[simp ↓] theorem execResetRelease_keep (k : ResetKind) (s : State) : OutKeeps s (execResetRelease k s) := by
  unfold execResetRelease
  try extract_lets
  apply OutKeeps.mk
  constructor <;>
  (repeat' split
   all_goals (try simp +zetaDelta))

@[simp ↓] theorem execPinReset_keep (low : Bool) (oscDly : BitVec 3) (bootSrc : BitVec 2) (s : State) : OutKeeps s (execPinReset low oscDly bootSrc s) := by
  unfold execPinReset
  try extract_lets
  apply OutKeeps.mk
  constructor <;>
  (repeat' split
   all_goals (try simp +zetaDelta))

@[simp ↓] theorem porState_keep (s : State) : (porState s).otp = s.otp ∧ (porState s).pending = s.pending := by
  constructor <;>
  (unfold porState
   try extract_lets
   repeat' split
   all_goals (try simp +zetaDelta))

@[simp ↓] theorem execPor_keep (oscDly : BitVec 3) (bootSrc : BitVec 2) (s : State) : OutKeeps s (execPor oscDly bootSrc s) := by
  unfold execPor
  try extract_lets
  apply OutKeeps.mk
  constructor <;>
  (repeat' split
   all_goals (try simp +zetaDelta))

@[simp ↓] theorem execPerstn_keep (low : Bool) (s : State) : OutKeeps s (execPerstn low s) := by
  unfold execPerstn
  try extract_lets
  apply OutKeeps.mk
  constructor <;>
  (repeat' split
   all_goals (try simp +zetaDelta))

@[simp ↓] theorem execFunctionLevelReset_keep (pf1 : Bool) (s : State) : OutKeeps s (execFunctionLevelReset pf1 s) := by
  unfold execFunctionLevelReset
  try extract_lets
  apply OutKeeps.mk
  constructor <;>
  (repeat' split
   all_goals (try simp +zetaDelta))

@[simp ↓] theorem bodyPortReset_keep (h : CmdHdr) (x0 : List Word) (s : State) : (bodyPortReset h x0 s).1.otp = s.otp ∧ (bodyPortReset h x0 s).1.pending = s.pending := by
  constructor <;>
  (unfold bodyPortReset
   try extract_lets
   repeat' split
   all_goals (try simp +zetaDelta))

@[simp ↓] theorem bodyResetIssue_keep (h : CmdHdr) (w : List Word) (s : State) : (bodyResetIssue h w s).1.otp = s.otp ∧ (bodyResetIssue h w s).1.pending = s.pending := by
  constructor <;>
  (unfold bodyResetIssue
   try extract_lets
   repeat' split
   all_goals (try simp +zetaDelta))

@[simp ↓] theorem execPortReset_keep (h : CmdHdr) (w : List Word) (s : State) : OutKeeps s (execPortReset h w s) :=
  OutKeeps.mk (runCmd_keep _ _ _ _ _ (bodyPortReset_keep))

@[simp ↓] theorem execResetIssue_keep (h : CmdHdr) (w : List Word) (s : State) : OutKeeps s (execResetIssue h w s) :=
  OutKeeps.mk (runCmd_keep _ _ _ _ _ (bodyResetIssue_keep))

end Sys2Proof.Machine
end

