-- ==== Sys2Proof/Laws/KeepPower.lean ====
section
/-! SUPPORT. What the operations and the meanings of Park, Fault, Clock leave as they are: the OTP and the queue of waiting commands. -/

set_option linter.unusedTactic false
set_option linter.unreachableTactic false
set_option linter.unusedVariables false
set_option linter.unusedSimpArgs false
set_option linter.unnecessarySeqFocus false

namespace Sys2Proof.Machine

/-! ### Machine/Park.lean -/

@[simp ↓] theorem powerEvent_keep (s : State) (target reason bs : Nat) : (powerEvent s target reason bs).otp = s.otp ∧ (powerEvent s target reason bs).pending = s.pending := by
  constructor <;>
  (unfold powerEvent
   try extract_lets
   repeat' split
   all_goals (try simp +zetaDelta))

@[simp ↓] theorem linksDown_keep (k : ResetKind) (s : State) : (linksDown k s).otp = s.otp ∧ (linksDown k s).pending = s.pending := by
  constructor <;>
  (unfold linksDown
   try extract_lets
   repeat' split
   all_goals (try simp +zetaDelta))

@[simp ↓] theorem endWithin_keep (k : ResetKind) (s : State) : (endWithin k s).otp = s.otp ∧ (endWithin k s).pending = s.pending := by
  constructor <;>
  (unfold endWithin
   try extract_lets
   repeat' split
   all_goals (try simp +zetaDelta)
   all_goals (repeat' split)
   all_goals (try simp +zetaDelta))

@[simp ↓] theorem enterLow_keep (k : ResetKind) (s : State) : (enterLow k s).otp = s.otp ∧ (enterLow k s).pending = s.pending := by
  constructor <;>
  (unfold enterLow
   try extract_lets
   repeat' split
   all_goals (try simp +zetaDelta))

@[simp ↓] theorem openGate_keep (s : State) (h : CmdHdr) (k : ResetKind) : (openGate s h k).otp = s.otp ∧ (openGate s h k).pending = s.pending := by
  constructor <;>
  (unfold openGate
   try extract_lets
   repeat' split
   all_goals (try simp +zetaDelta))

@[simp ↓] theorem parkSet_keep (s : State) (h : CmdHdr) (w : List Word) : (parkSet s h w).1.otp = s.otp ∧ (parkSet s h w).1.pending = s.pending := by
  constructor <;>
  (unfold parkSet
   try extract_lets
   repeat' split
   all_goals (try simp +zetaDelta))

@[simp ↓] theorem execParkSet_keep (h : CmdHdr) (w : List Word) (s : State) : OutKeeps s (execParkSet h w s) := by
  unfold execParkSet
  try extract_lets
  apply OutKeeps.mk
  constructor <;>
  (repeat' split
   all_goals (try simp +zetaDelta))

@[simp ↓] theorem execStandbyEnter_keep (h : CmdHdr) (w : List Word) (s : State) : OutKeeps s (execStandbyEnter h w s) := by
  unfold execStandbyEnter
  try extract_lets
  apply OutKeeps.mk
  constructor <;>
  (repeat' split
   all_goals (try simp +zetaDelta))

@[simp ↓] theorem execWakeWrite_keep (s : State) : OutKeeps s (execWakeWrite s) := by
  unfold execWakeWrite
  try extract_lets
  apply OutKeeps.mk
  constructor <;>
  (repeat' split
   all_goals (try first | refine busWrite_otp fun s => ?_ | refine busWrite_pending fun s => ?_ | refine busRead_otp fun s => ?_ | refine busRead_pending fun s => ?_ | refine bar2Write_otp fun s => ?_ | refine bar2Write_pending fun s => ?_ | refine (foldl_otp _ (fun s a => ?_) _ _).trans ?_ | refine (foldl_pending _ (fun s a => ?_) _ _).trans ?_)
   all_goals (repeat' split)
   all_goals (try simp +zetaDelta)
   all_goals (try first | refine busWrite_otp fun s => ?_ | refine busWrite_pending fun s => ?_ | refine busRead_otp fun s => ?_ | refine busRead_pending fun s => ?_ | refine bar2Write_otp fun s => ?_ | refine bar2Write_pending fun s => ?_ | refine (foldl_otp _ (fun s a => ?_) _ _).trans ?_ | refine (foldl_pending _ (fun s a => ?_) _ _).trans ?_)
   all_goals (repeat' split)
   all_goals (try simp +zetaDelta))

@[simp ↓] theorem dieWakes_keep (s : State) (d : Nat) : (dieWakes s d).otp = s.otp ∧ (dieWakes s d).pending = s.pending := by
  constructor <;>
  (unfold dieWakes
   try extract_lets
   repeat' split
   all_goals (try simp +zetaDelta))

@[simp ↓] theorem execUnparkDone_keep (k : ResetKind) (s : State) : OutKeeps s (execUnparkDone k s) := by
  unfold execUnparkDone
  try extract_lets
  apply OutKeeps.mk
  constructor <;>
  (repeat' split
   all_goals (try simp +zetaDelta))

@[simp ↓] theorem plainControlHandover_keep (s : State) : OutKeeps s (plainControlHandover s) := by
  unfold plainControlHandover
  try extract_lets
  apply OutKeeps.mk
  constructor <;>
  (repeat' split
   all_goals (try simp +zetaDelta))

@[simp ↓] theorem execLockstepRejoin_keep (s : State) : OutKeeps s (execLockstepRejoin s) := by
  unfold execLockstepRejoin
  try extract_lets
  apply OutKeeps.mk
  constructor <;>
  (repeat' split
   all_goals (try simp +zetaDelta))

@[simp ↓] theorem execCoreMemoryError_keep (s : State) : OutKeeps s (execCoreMemoryError s) := by
  unfold execCoreMemoryError
  try extract_lets
  apply OutKeeps.mk
  constructor <;>
  (repeat' split
   all_goals (try simp +zetaDelta))

@[simp ↓] theorem execLockstepMismatch_keep (s : State) : OutKeeps s (execLockstepMismatch s) := by
  unfold execLockstepMismatch
  try extract_lets
  apply OutKeeps.mk
  constructor <;>
  (repeat' split
   all_goals (try simp +zetaDelta))

/-! ### Machine/Fault.lean -/

@[simp ↓] theorem setSrc_keep (s : State) (l : FaultLoc) (i : Nat) (f : FaultSrc → FaultSrc) : (setSrc s l i f).otp = s.otp ∧ (setSrc s l i f).pending = s.pending := by
  constructor <;>
  (unfold setSrc
   try extract_lets
   repeat' split
   all_goals (try simp +zetaDelta))

@[simp ↓] theorem squelch_keep (s : State) (p : Nat) : (squelch s p).otp = s.otp ∧ (squelch s p).pending = s.pending := by
  constructor <;>
  (unfold squelch
   try extract_lets
   repeat' split
   all_goals (try simp +zetaDelta))

@[simp ↓] theorem quarantine_keep (s : State) (p : Nat) : (quarantine s p).otp = s.otp ∧ (quarantine s p).pending = s.pending := by
  constructor <;>
  (unfold quarantine
   try extract_lets
   repeat' split
   all_goals (try simp +zetaDelta))

@[simp ↓] theorem issueRegion_keep (s : State) (r : Nat) : (issueRegion s r).otp = s.otp ∧ (issueRegion s r).pending = s.pending := by
  constructor <;>
  (unfold issueRegion
   try extract_lets
   repeat' split
   all_goals (try simp +zetaDelta))

@[simp ↓] theorem statusMsix_keep (s : State) (v : Nat) : (statusMsix s v).otp = s.otp ∧ (statusMsix s v).pending = s.pending := by
  constructor <;>
  (unfold statusMsix
   try extract_lets
   repeat' split
   all_goals (try simp +zetaDelta))

@[simp ↓] theorem react_keep (s : State) (l : FaultLoc) (i c lv : Nat) : (react s l i c lv).otp = s.otp ∧ (react s l i c lv).pending = s.pending := by
  constructor <;>
  (unfold react
   try extract_lets
   repeat' split
   all_goals (try simp +zetaDelta)
   all_goals (repeat' split)
   all_goals (try simp +zetaDelta))

@[simp ↓] theorem faultRec_keep (s : State) (l : FaultLoc) (i : Nat) : (faultRec s l i).otp = s.otp ∧ (faultRec s l i).pending = s.pending := by
  constructor <;>
  (unfold faultRec
   try extract_lets
   repeat' split
   all_goals (try simp +zetaDelta))

@[simp ↓] theorem captureFault_keep (s : State) (l : FaultLoc) (i : Nat) : (captureFault s l i).otp = s.otp ∧ (captureFault s l i).pending = s.pending := by
  constructor <;>
  (unfold captureFault
   try extract_lets
   repeat' split
   all_goals (try simp +zetaDelta))

@[simp ↓] theorem takePend_keep (s : State) (l : FaultLoc) (i : Nat) : (takePend s l i).otp = s.otp ∧ (takePend s l i).pending = s.pending := by
  constructor <;>
  (unfold takePend
   try extract_lets
   repeat' split
   all_goals (try simp +zetaDelta))

@[simp ↓] theorem clockFault_keep (s : State) (l : FaultLoc) (i : Nat) : (clockFault s l i).otp = s.otp ∧ (clockFault s l i).pending = s.pending := by
  constructor <;>
  (unfold clockFault
   try extract_lets
   repeat' split
   all_goals (try simp +zetaDelta))

@[simp ↓] theorem countError_keep (s : State) (l : FaultLoc) (i : Nat) : (countError s l i).otp = s.otp ∧ (countError s l i).pending = s.pending := by
  constructor <;>
  (unfold countError
   try extract_lets
   repeat' split
   all_goals (try simp +zetaDelta))

@[simp ↓] theorem plainFaultSourceFire_keep (loc : FaultLoc) (src pair : Nat) (standing : Bool) (s : State) : OutKeeps s (plainFaultSourceFire loc src pair standing s) := by
  unfold plainFaultSourceFire
  try extract_lets
  apply OutKeeps.mk
  constructor <;>
  (repeat' split
   all_goals (try simp +zetaDelta))

@[simp ↓] theorem execRailRestored_keep (loc : FaultLoc) (pair : Nat) (s : State) : OutKeeps s (execRailRestored loc pair s) := by
  unfold execRailRestored
  try extract_lets
  apply OutKeeps.mk
  constructor <;>
  (repeat' split
   all_goals (try simp +zetaDelta))

@[simp ↓] theorem execFaultWindowClose_keep (loc : FaultLoc) (src : Nat) (s : State) : OutKeeps s (execFaultWindowClose loc src s) := by
  unfold execFaultWindowClose
  try extract_lets
  apply OutKeeps.mk
  constructor <;>
  (repeat' split
   all_goals (try simp +zetaDelta))

@[simp ↓] theorem endCourseTx_keep (s : State) (p : Nat) : (endCourseTx s p).otp = s.otp ∧ (endCourseTx s p).pending = s.pending := by
  constructor <;>
  (unfold endCourseTx
   try extract_lets
   repeat' split
   all_goals (try simp +zetaDelta)
   all_goals (repeat' split)
   all_goals (try simp +zetaDelta))

@[simp ↓] theorem execQuarantineSquelch_keep (p : Nat) (s : State) : OutKeeps s (execQuarantineSquelch p s) := by
  unfold execQuarantineSquelch
  try extract_lets
  apply OutKeeps.mk
  constructor <;>
  (repeat' split
   all_goals (try simp +zetaDelta))

@[simp ↓] theorem plainReactionRegionReset_keep (r : Nat) (s : State) : OutKeeps s (plainReactionRegionReset r s) := by
  unfold plainReactionRegionReset
  try extract_lets
  apply OutKeeps.mk
  constructor <;>
  (repeat' split
   all_goals (try simp +zetaDelta))

@[simp ↓] theorem settleFaults_keep (s : State) : (settleFaults s).otp = s.otp ∧ (settleFaults s).pending = s.pending := by
  constructor <;>
  (unfold settleFaults
   try extract_lets
   repeat' split
   all_goals (try simp +zetaDelta))

@[simp ↓] theorem clearFault_keep (s : State) (l : FaultLoc) (i : Nat) : (clearFault s l i).otp = s.otp ∧ (clearFault s l i).pending = s.pending := by
  constructor <;>
  (unfold clearFault
   try extract_lets
   repeat' split
   all_goals (try simp +zetaDelta))

@[simp ↓] theorem clearFaults_keep (s : State) (l : FaultLoc) (m : Nat) : (clearFaults s l m).otp = s.otp ∧ (clearFaults s l m).pending = s.pending := by
  constructor <;>
  (unfold clearFaults
   try extract_lets
   repeat' split
   all_goals (try simp +zetaDelta))

@[simp ↓] theorem plainFaultStickyW1c_keep (loc : FaultLoc) (v : Word) (s : State) : OutKeeps s (plainFaultStickyW1c loc v s) := by
  unfold plainFaultStickyW1c
  try extract_lets
  apply OutKeeps.mk
  constructor <;>
  (repeat' split
   all_goals (try first | refine busWrite_otp fun s => ?_ | refine busWrite_pending fun s => ?_ | refine busRead_otp fun s => ?_ | refine busRead_pending fun s => ?_ | refine bar2Write_otp fun s => ?_ | refine bar2Write_pending fun s => ?_ | refine (foldl_otp _ (fun s a => ?_) _ _).trans ?_ | refine (foldl_pending _ (fun s a => ?_) _ _).trans ?_)
   all_goals (repeat' split)
   all_goals (try simp +zetaDelta)
   all_goals (try first | refine busWrite_otp fun s => ?_ | refine busWrite_pending fun s => ?_ | refine busRead_otp fun s => ?_ | refine busRead_pending fun s => ?_ | refine bar2Write_otp fun s => ?_ | refine bar2Write_pending fun s => ?_ | refine (foldl_otp _ (fun s a => ?_) _ _).trans ?_ | refine (foldl_pending _ (fun s a => ?_) _ _).trans ?_)
   all_goals (repeat' split)
   all_goals (try simp +zetaDelta))

@[simp ↓] theorem bodyFaultQuery_keep (h : CmdHdr) (x0 : List Word) (s : State) : (bodyFaultQuery h x0 s).1.otp = s.otp ∧ (bodyFaultQuery h x0 s).1.pending = s.pending := by
  constructor <;>
  (unfold bodyFaultQuery
   try extract_lets
   repeat' split
   all_goals (try simp +zetaDelta))

@[simp ↓] theorem bodyFaultSet_keep (h : CmdHdr) (w : List Word) (s : State) : (bodyFaultSet h w s).1.otp = s.otp ∧ (bodyFaultSet h w s).1.pending = s.pending := by
  constructor <;>
  (unfold bodyFaultSet
   try extract_lets
   repeat' split
   all_goals (try simp +zetaDelta))

@[simp ↓] theorem bodyFaultClear_keep (h : CmdHdr) (w : List Word) (s : State) : (bodyFaultClear h w s).1.otp = s.otp ∧ (bodyFaultClear h w s).1.pending = s.pending := by
  constructor <;>
  (unfold bodyFaultClear
   try extract_lets
   repeat' split
   all_goals (try simp +zetaDelta))

@[simp ↓] theorem execFaultQuery_keep (h : CmdHdr) (w : List Word) (s : State) : OutKeeps s (execFaultQuery h w s) :=
  OutKeeps.mk (runCmd_keep _ _ _ _ _ (bodyFaultQuery_keep))

@[simp ↓] theorem execFaultSet_keep (h : CmdHdr) (w : List Word) (s : State) : OutKeeps s (execFaultSet h w s) :=
  OutKeeps.mk (runCmd_keep _ _ _ _ _ (bodyFaultSet_keep))

@[simp ↓] theorem execFaultClear_keep (h : CmdHdr) (w : List Word) (s : State) : OutKeeps s (execFaultClear h w s) :=
  OutKeeps.mk (runCmd_keep _ _ _ _ _ (bodyFaultClear_keep))

/-! ### Machine/Clock.lean -/

@[simp ↓] theorem refreshClock_keep (s : State) : (refreshClock s).otp = s.otp ∧ (refreshClock s).pending = s.pending := by
  constructor <;>
  (unfold refreshClock
   try extract_lets
   repeat' split
   all_goals (try simp +zetaDelta))

@[simp ↓] theorem standClock_keep (s : State) : (standClock s).otp = s.otp ∧ (standClock s).pending = s.pending := by
  constructor <;>
  (unfold standClock
   try extract_lets
   repeat' split
   all_goals (try simp +zetaDelta)
   all_goals (repeat' split)
   all_goals (try simp +zetaDelta))

@[simp ↓] theorem clockLoss_keep (s : State) : (clockLoss s).otp = s.otp ∧ (clockLoss s).pending = s.pending := by
  constructor <;>
  (unfold clockLoss
   try extract_lets
   repeat' split
   all_goals (try simp +zetaDelta)
   all_goals (repeat' split)
   all_goals (try simp +zetaDelta))

@[simp ↓] theorem setClock_keep (s : State) (c : Clock) : (setClock s c).otp = s.otp ∧ (setClock s c).pending = s.pending := by
  constructor <;>
  (unfold setClock
   try extract_lets
   repeat' split
   all_goals (try simp +zetaDelta))

@[simp ↓] theorem timerEnd_keep (s : State) : (timerEnd s).otp = s.otp ∧ (timerEnd s).pending = s.pending := by
  constructor <;>
  (unfold timerEnd
   try extract_lets
   repeat' split
   all_goals (try simp +zetaDelta))

@[simp ↓] theorem enterLock_keep (s : State) (reed tried : Bool) : (enterLock s reed tried).otp = s.otp ∧ (enterLock s reed tried).pending = s.pending := by
  constructor <;>
  (unfold enterLock
   try extract_lets
   repeat' split
   all_goals (try simp +zetaDelta))

@[simp ↓] theorem enterWait_keep (s : State) : (enterWait s).otp = s.otp ∧ (enterWait s).pending = s.pending := by
  constructor <;>
  (unfold enterWait
   try extract_lets
   repeat' split
   all_goals (try simp +zetaDelta))

@[simp ↓] theorem tripBit_keep (s : State) (clk : Nat) : (tripBit s clk).otp = s.otp ∧ (tripBit s clk).pending = s.pending := by
  constructor <;>
  (unfold tripBit
   try extract_lets
   repeat' split
   all_goals (try simp +zetaDelta))

@[simp ↓] theorem stopLanes_keep (s : State) : (stopLanes s).otp = s.otp ∧ (stopLanes s).pending = s.pending := by
  constructor <;>
  (unfold stopLanes
   try extract_lets
   repeat' split
   all_goals (try simp +zetaDelta))

@[simp ↓] theorem tripClock_keep (s : State) (clk : Nat) : (tripClock s clk).otp = s.otp ∧ (tripClock s clk).pending = s.pending := by
  constructor <;>
  (unfold tripClock
   try extract_lets
   repeat' split
   all_goals (try simp +zetaDelta))

@[simp ↓] theorem execClockTrip_keep (clk : Nat) (s : State) : OutKeeps s (execClockTrip clk s) := by
  unfold execClockTrip
  try extract_lets
  apply OutKeeps.mk
  constructor <;>
  (repeat' split
   all_goals (try simp +zetaDelta))

@[simp ↓] theorem execOscWaitEnd_keep (s : State) : OutKeeps s (execOscWaitEnd s) := by
  unfold execOscWaitEnd
  try extract_lets
  apply OutKeeps.mk
  constructor <;>
  (repeat' split
   all_goals (try simp +zetaDelta))

@[simp ↓] theorem execPllLock_keep (s : State) : OutKeeps s (execPllLock s) := by
  unfold execPllLock
  try extract_lets
  apply OutKeeps.mk
  constructor <;>
  (repeat' split
   all_goals (try simp +zetaDelta))

@[simp ↓] theorem execPllLockTimeout_keep (s : State) : OutKeeps s (execPllLockTimeout s) := by
  unfold execPllLockTimeout
  try extract_lets
  apply OutKeeps.mk
  constructor <;>
  (repeat' split
   all_goals (try simp +zetaDelta))

@[simp ↓] theorem execRampStep_keep (s : State) : OutKeeps s (execRampStep s) := by
  unfold execRampStep
  try extract_lets
  apply OutKeeps.mk
  constructor <;>
  (repeat' split
   all_goals (try simp +zetaDelta))

@[simp ↓] theorem execReedQual_keep (q : Bool) (s : State) : OutKeeps s (execReedQual q s) := by
  unfold execReedQual
  try extract_lets
  apply OutKeeps.mk
  constructor <;>
  (repeat' split
   all_goals (try simp +zetaDelta))

@[simp ↓] theorem execRefclkQualified_keep (s : State) : OutKeeps s (execRefclkQualified s) := by
  unfold execRefclkQualified
  try extract_lets
  apply OutKeeps.mk
  constructor <;>
  (repeat' split
   all_goals (try simp +zetaDelta))

@[simp ↓] theorem execReturnWrite_keep (s : State) : OutKeeps s (execReturnWrite s) := by
  unfold execReturnWrite
  try extract_lets
  apply OutKeeps.mk
  constructor <;>
  (repeat' split
   all_goals (try first | refine busWrite_otp fun s => ?_ | refine busWrite_pending fun s => ?_ | refine busRead_otp fun s => ?_ | refine busRead_pending fun s => ?_ | refine bar2Write_otp fun s => ?_ | refine bar2Write_pending fun s => ?_ | refine (foldl_otp _ (fun s a => ?_) _ _).trans ?_ | refine (foldl_pending _ (fun s a => ?_) _ _).trans ?_)
   all_goals (repeat' split)
   all_goals (try simp +zetaDelta)
   all_goals (try first | refine busWrite_otp fun s => ?_ | refine busWrite_pending fun s => ?_ | refine busRead_otp fun s => ?_ | refine busRead_pending fun s => ?_ | refine bar2Write_otp fun s => ?_ | refine bar2Write_pending fun s => ?_ | refine (foldl_otp _ (fun s a => ?_) _ _).trans ?_ | refine (foldl_pending _ (fun s a => ?_) _ _).trans ?_)
   all_goals (repeat' split)
   all_goals (try simp +zetaDelta))

@[simp ↓] theorem meterTest_keep (s : State) (i n : Nat) : (meterTest s i n).otp = s.otp ∧ (meterTest s i n).pending = s.pending := by
  constructor <;>
  (unfold meterTest
   try extract_lets
   repeat' split
   all_goals (try simp +zetaDelta))

@[simp ↓] theorem pciTest_keep (s : State) (n : Nat) : (pciTest s n).otp = s.otp ∧ (pciTest s n).pending = s.pending := by
  constructor <;> unfold pciTest <;> (try extract_lets)
  all_goals (try first | refine busWrite_otp fun s => ?_ | refine busWrite_pending fun s => ?_ | refine busRead_otp fun s => ?_ | refine busRead_pending fun s => ?_ | refine bar2Write_otp fun s => ?_ | refine bar2Write_pending fun s => ?_ | refine (foldl_otp _ (fun s a => ?_) _ _).trans ?_ | refine (foldl_pending _ (fun s a => ?_) _ _).trans ?_)
  all_goals (try dsimp only)
  all_goals (repeat' split)
  all_goals first | rfl | simp +zetaDelta

@[simp ↓] theorem sdsBack_keep (s : State) (n : Nat) : (sdsBack s n).otp = s.otp ∧ (sdsBack s n).pending = s.pending := by
  constructor <;>
  (unfold sdsBack
   try extract_lets
   repeat' split
   all_goals (try simp +zetaDelta))

@[simp ↓] theorem execMeterGateEnd_keep (counts : List Nat) (s : State) : OutKeeps s (execMeterGateEnd counts s) := by
  unfold execMeterGateEnd
  try extract_lets
  apply OutKeeps.mk
  constructor <;>
  (repeat' split
   all_goals (try simp +zetaDelta))

@[simp ↓] theorem bodyClkoutSet_keep (x0 : CmdHdr) (w : List Word) (s : State) : (bodyClkoutSet x0 w s).1.otp = s.otp ∧ (bodyClkoutSet x0 w s).1.pending = s.pending := by
  constructor <;>
  (unfold bodyClkoutSet
   try extract_lets
   repeat' split
   all_goals (try simp +zetaDelta))

@[simp ↓] theorem execClkoutWrite_keep (v : Word) (s : State) : OutKeeps s (execClkoutWrite v s) := by
  unfold execClkoutWrite
  try extract_lets
  apply OutKeeps.mk
  constructor <;>
  (repeat' split
   all_goals (try first | refine busWrite_otp fun s => ?_ | refine busWrite_pending fun s => ?_ | refine busRead_otp fun s => ?_ | refine busRead_pending fun s => ?_ | refine bar2Write_otp fun s => ?_ | refine bar2Write_pending fun s => ?_ | refine (foldl_otp _ (fun s a => ?_) _ _).trans ?_ | refine (foldl_pending _ (fun s a => ?_) _ _).trans ?_)
   all_goals (repeat' split)
   all_goals (try simp +zetaDelta)
   all_goals (try first | refine busWrite_otp fun s => ?_ | refine busWrite_pending fun s => ?_ | refine busRead_otp fun s => ?_ | refine busRead_pending fun s => ?_ | refine bar2Write_otp fun s => ?_ | refine bar2Write_pending fun s => ?_ | refine (foldl_otp _ (fun s a => ?_) _ _).trans ?_ | refine (foldl_pending _ (fun s a => ?_) _ _).trans ?_)
   all_goals (repeat' split)
   all_goals (try simp +zetaDelta))

@[simp ↓] theorem bodyClockQuery_keep (x0 : CmdHdr) (x1 : List Word) (s : State) : (bodyClockQuery x0 x1 s).1.otp = s.otp ∧ (bodyClockQuery x0 x1 s).1.pending = s.pending := by
  constructor <;>
  (unfold bodyClockQuery
   try extract_lets
   repeat' split
   all_goals (try simp +zetaDelta))

@[simp ↓] theorem execClockQuery_keep (h : CmdHdr) (w : List Word) (s : State) : OutKeeps s (execClockQuery h w s) :=
  OutKeeps.mk (runCmd_keep _ _ _ _ _ (bodyClockQuery_keep))

@[simp ↓] theorem execClkoutSet_keep (h : CmdHdr) (w : List Word) (s : State) : OutKeeps s (execClkoutSet h w s) :=
  OutKeeps.mk (runCmd_keep _ _ _ _ _ (bodyClkoutSet_keep))

end Sys2Proof.Machine
end

