-- ==== Sys2Proof/Laws/KeepBoot.lean ====
section
/-! SUPPORT. What the operations and the meanings of Boot, Regs, Observe leave as they are: the OTP and the queue of waiting commands. -/

set_option linter.unusedTactic false
set_option linter.unreachableTactic false
set_option linter.unusedVariables false
set_option linter.unusedSimpArgs false
set_option linter.unnecessarySeqFocus false

namespace Sys2Proof.Machine

/-! ### Machine/Boot.lean -/

@[simp ↓] theorem checkFailed_keep (s : State) (c : Nat) : (checkFailed s c).otp = s.otp ∧ (checkFailed s c).pending = s.pending := by
  constructor <;>
  (unfold checkFailed
   try extract_lets
   repeat' split
   all_goals (try simp +zetaDelta))

@[simp ↓] theorem setSlot_keep (s : State) (i : Nat) (v : Slot) : (setSlot s i v).otp = s.otp ∧ (setSlot s i v).pending = s.pending := by
  constructor <;>
  (unfold setSlot
   try extract_lets
   repeat' split
   all_goals (try simp +zetaDelta))

@[simp ↓] theorem execBootStart_keep (s : State) : OutKeeps s (execBootStart s) := by
  unfold execBootStart
  try extract_lets
  apply OutKeeps.mk
  constructor <;>
  (repeat' split
   all_goals (try simp +zetaDelta))

@[simp ↓] theorem startImage_keep (s : State) (i : Nat) (g : List Byte) : (startImage s i g).otp = s.otp ∧ (startImage s i g).pending = s.pending := by
  constructor <;>
  (unfold startImage
   try extract_lets
   repeat' split
   all_goals (try simp +zetaDelta))

@[simp ↓] theorem bootTry_keep (l : List (Nat × Option (List Byte))) (s : State) :
    (bootTry l s).otp = s.otp ∧ (bootTry l s).pending = s.pending := by
  induction l generalizing s with
  | nil => simp [bootTry]
  | cons x r ih =>
    obtain ⟨i, _ | g⟩ := x
    · simp [bootTry, ih]
    · simp only [bootTry]
      split
      · simp [ih]
      · simp

@[simp ↓] theorem execImageLoadDone_keep (slot0 slot1 : Option (List Byte)) (s : State) : OutKeeps s (execImageLoadDone slot0 slot1 s) := by
  unfold execImageLoadDone
  try extract_lets
  apply OutKeeps.mk
  constructor <;>
  (repeat' split
   all_goals (try simp +zetaDelta))

@[simp ↓] theorem execBootGo_keep (s : State) : OutKeeps s (execBootGo s) := by
  unfold execBootGo
  try extract_lets
  apply OutKeeps.mk
  constructor <;>
  (repeat' split
   all_goals (try first | refine busWrite_otp fun s => ?_ | refine busWrite_pending fun s => ?_ | refine busRead_otp fun s => ?_ | refine busRead_pending fun s => ?_ | refine bar2Write_otp fun s => ?_ | refine bar2Write_pending fun s => ?_ | refine (foldl_otp _ (fun s a => ?_) _ _).trans ?_ | refine (foldl_pending _ (fun s a => ?_) _ _).trans ?_)
   all_goals (repeat' split)
   all_goals (try simp +zetaDelta)
   all_goals (try first | refine busWrite_otp fun s => ?_ | refine busWrite_pending fun s => ?_ | refine busRead_otp fun s => ?_ | refine busRead_pending fun s => ?_ | refine bar2Write_otp fun s => ?_ | refine bar2Write_pending fun s => ?_ | refine (foldl_otp _ (fun s a => ?_) _ _).trans ?_ | refine (foldl_pending _ (fun s a => ?_) _ _).trans ?_)
   all_goals (repeat' split)
   all_goals (try simp +zetaDelta))

@[simp ↓] theorem execFirmwareRunning_keep (s : State) : OutKeeps s (execFirmwareRunning s) := by
  unfold execFirmwareRunning
  try extract_lets
  apply OutKeeps.mk
  constructor <;>
  (repeat' split
   all_goals (try simp +zetaDelta))

@[simp ↓] theorem unloadBank_keep (s : State) (i : Nat) : (unloadBank s i).otp = s.otp ∧ (unloadBank s i).pending = s.pending := by
  constructor <;>
  (unfold unloadBank
   try extract_lets
   repeat' split
   all_goals (try simp +zetaDelta))

@[simp ↓] theorem bodyImageStage_keep (x0 : CmdHdr) (w : List Word) (s : State) : (bodyImageStage x0 w s).1.otp = s.otp ∧ (bodyImageStage x0 w s).1.pending = s.pending := by
  constructor <;>
  (unfold bodyImageStage
   try extract_lets
   repeat' split
   all_goals (try simp +zetaDelta))

@[simp ↓] theorem execStageDone_keep (bytes : Option (List Byte)) (s : State) : OutKeeps s (execStageDone bytes s) := by
  unfold execStageDone
  try extract_lets
  apply OutKeeps.mk
  constructor <;>
  (repeat' split
   all_goals (try simp +zetaDelta))

@[simp ↓] theorem bodyImageVerify_keep (x0 : CmdHdr) (w : List Word) (s : State) : (bodyImageVerify x0 w s).1.otp = s.otp ∧ (bodyImageVerify x0 w s).1.pending = s.pending := by
  constructor <;>
  (unfold bodyImageVerify
   try extract_lets
   repeat' split
   all_goals (try simp +zetaDelta))

@[simp ↓] theorem execVerifyDone_keep (s : State) : OutKeeps s (execVerifyDone s) := by
  unfold execVerifyDone
  try extract_lets
  apply OutKeeps.mk
  constructor <;>
  (repeat' split
   all_goals (try simp +zetaDelta)
   all_goals (repeat' split)
   all_goals (try simp +zetaDelta))

@[simp ↓] theorem activate_keep (s : State) (h : CmdHdr) (w : List Word) : (activate s h w).1.otp = s.otp ∧ (activate s h w).1.pending = s.pending := by
  constructor <;>
  (unfold activate
   try extract_lets
   repeat' split
   all_goals (try simp +zetaDelta)
   all_goals (repeat' split)
   all_goals (try simp +zetaDelta))

@[simp ↓] theorem execImageActivate_keep (h : CmdHdr) (w : List Word) (s : State) : OutKeeps s (execImageActivate h w s) := by
  unfold execImageActivate
  try extract_lets
  apply OutKeeps.mk
  constructor <;>
  (repeat' split
   all_goals (try simp +zetaDelta))

@[simp ↓] theorem swapBanks_keep (s : State) : (swapBanks s).otp = s.otp ∧ (swapBanks s).pending = s.pending := by
  constructor <;>
  (unfold swapBanks
   try extract_lets
   repeat' split
   all_goals (try simp +zetaDelta))

@[simp ↓] theorem refreshAt_keep (s : State) (t : Nat) : (refreshAt s t).otp = s.otp ∧ (refreshAt s t).pending = s.pending := by
  constructor <;>
  (unfold refreshAt
   try extract_lets
   repeat' split
   all_goals (try simp +zetaDelta))

@[simp ↓] theorem execActivationFlip_keep (s : State) : OutKeeps s (execActivationFlip s) := by
  unfold execActivationFlip
  try extract_lets
  apply OutKeeps.mk
  constructor <;>
  (repeat' split
   all_goals (try simp +zetaDelta))

@[simp ↓] theorem dueLeaves_keep (s : State) : (dueLeaves s).otp = s.otp ∧ (dueLeaves s).pending = s.pending := by
  constructor <;>
  (unfold dueLeaves
   try extract_lets
   repeat' split
   all_goals (try simp +zetaDelta)
   all_goals (repeat' split)
   all_goals (try simp +zetaDelta))

@[simp ↓] theorem execActivationResume_keep (s : State) : OutKeeps s (execActivationResume s) := by
  unfold execActivationResume
  try extract_lets
  apply OutKeeps.mk
  constructor <;>
  (repeat' split
   all_goals (try simp +zetaDelta))

theorem OtpStep.refl (a : Otp) : OtpStep a a := ⟨rfl, rfl, rfl, rfl, rfl, rfl, rfl, Nat.le_refl _, .inl rfl, 0, by omega, by simp⟩

theorem OutKeeps.steps {s : State} {o : Out} (h : OutKeeps s o) : OutSteps s o := by
  obtain ⟨t, rfl, h, k⟩ := h
  exact ⟨t, rfl, h ▸ OtpStep.refl _, k⟩

theorem execFirmwareReady_steps (s : State) : OutSteps s (execFirmwareReady s) := by
  unfold execFirmwareReady
  refine ⟨_, rfl, ?_⟩
  split
  · split
    · exact ⟨OtpStep.refl _, rfl⟩
    · exact ⟨⟨rfl, rfl, rfl, rfl, rfl, rfl, rfl, Nat.le_refl _, .inl rfl, _, Nat.mod_lt _ (by omega), rfl⟩, rfl⟩
  · exact ⟨OtpStep.refl _, rfl⟩

theorem burnFuses_steps (n : Nat) (s : State) : ∃ k, k ≤ n ∧ (burnFuses n s).1.otp = { s.otp with rollback := s.otp.rollback + k } ∧
    (burnFuses n s).1.pending = s.pending := by
  induction n generalizing s with
  | zero => exact ⟨0, by omega, rfl, rfl⟩
  | succ n ih =>
    simp only [burnFuses]
    split
    · obtain ⟨k, hk, ho, hp⟩ := ih { useFree s with otp := { (useFree s).otp with rollback := (useFree s).otp.rollback + 1 } }
      refine ⟨k + 1, by omega, ?_, by rw [hp]; exact (useFree_keep s).2⟩
      rw [ho]
      simp [Nat.add_assoc, Nat.add_comm 1]
    · exact ⟨0, by omega, (useFree_keep s).1, (useFree_keep s).2⟩

@[simp ↓] theorem execFallback_keep (s : State) : OutKeeps s (execFallback s) := by
  unfold execFallback
  try extract_lets
  apply OutKeeps.mk
  constructor <;>
  (repeat' split
   all_goals (try simp +zetaDelta))

theorem bodyRollbackAdvance_steps (h : CmdHdr) (w : List Word) (s : State) :
    OtpStep s.otp (bodyRollbackAdvance h w s).1.otp ∧ (bodyRollbackAdvance h w s).1.pending = s.pending := by
  have keep : OtpStep s.otp s.otp ∧ s.pending = s.pending := ⟨OtpStep.refl _, rfl⟩
  unfold bodyRollbackAdvance
  extract_lets n
  split
  · exact keep
  · split
    · exact keep
    · split
      · exact keep
      · split
        · exact keep
        · obtain ⟨k, hk, ho, hp⟩ := burnFuses_steps (n - s.otp.rollback) s
          have hn : OtpStep s.otp { s.otp with rollback := s.otp.rollback + k } :=
            ⟨rfl, rfl, rfl, rfl, rfl, rfl, rfl, Nat.le_add_right _ _, .inr (by simp only; omega), 0, by omega, by simp⟩
          try dsimp only
          split
          · try dsimp only
            rw [ho, hp]; exact ⟨hn, rfl⟩
          · try dsimp only
            rw [(raise_keep _ _ _).1, (raise_keep _ _ _).2, ho, hp]; exact ⟨hn, rfl⟩

theorem runCmd_steps (s : State) (h : CmdHdr) (op : Nat) (w : List Word) (b : Body)
    (hb : ∀ h w s, OtpStep s.otp (b h w s).1.otp ∧ (b h w s).1.pending = s.pending) :
    OtpStep s.otp (runCmd s h op w b).otp ∧ (runCmd s h op w b).pending = s.pending := by
  have hg := gateCmd_keep s h op w
  unfold runCmd
  dsimp only
  split
  · rw [(deliver_keep _ _ _ _).1, (deliver_keep _ _ _ _).2, ← hg.1, ← hg.2]
    exact hb _ _ _
  · rw [hg.1]
    exact ⟨OtpStep.refl _, hg.2⟩

@[simp ↓] theorem bodyAttest_keep (x0 : CmdHdr) (w : List Word) (s : State) : (bodyAttest x0 w s).1.otp = s.otp ∧ (bodyAttest x0 w s).1.pending = s.pending := by
  constructor <;>
  (unfold bodyAttest
   try extract_lets
   repeat' split
   all_goals (try simp +zetaDelta))

@[simp ↓] theorem bodySecQuery_keep (x0 : CmdHdr) (x1 : List Word) (s : State) : (bodySecQuery x0 x1 s).1.otp = s.otp ∧ (bodySecQuery x0 x1 s).1.pending = s.pending := by
  constructor <;>
  (unfold bodySecQuery
   try extract_lets
   repeat' split
   all_goals (try simp +zetaDelta))

@[simp ↓] theorem bodyIdQuery_keep (x0 : CmdHdr) (x1 : List Word) (s : State) : (bodyIdQuery x0 x1 s).1.otp = s.otp ∧ (bodyIdQuery x0 x1 s).1.pending = s.pending := by
  constructor <;>
  (unfold bodyIdQuery
   try extract_lets
   repeat' split
   all_goals (try simp +zetaDelta))

@[simp ↓] theorem bodyEcho_keep (x0 : CmdHdr) (w : List Word) (s : State) : (bodyEcho x0 w s).1.otp = s.otp ∧ (bodyEcho x0 w s).1.pending = s.pending := by
  constructor <;>
  (unfold bodyEcho
   try extract_lets
   repeat' split
   all_goals (try simp +zetaDelta))

@[simp ↓] theorem execIdQuery_keep (h : CmdHdr) (w : List Word) (s : State) : OutKeeps s (execIdQuery h w s) :=
  OutKeeps.mk (runCmd_keep _ _ _ _ _ (bodyIdQuery_keep))

@[simp ↓] theorem execEcho_keep (h : CmdHdr) (w : List Word) (s : State) : OutKeeps s (execEcho h w s) :=
  OutKeeps.mk (runCmd_keep _ _ _ _ _ (bodyEcho_keep))

@[simp ↓] theorem execSecQuery_keep (h : CmdHdr) (w : List Word) (s : State) : OutKeeps s (execSecQuery h w s) :=
  OutKeeps.mk (runCmd_keep _ _ _ _ _ (bodySecQuery_keep))

@[simp ↓] theorem execImageStage_keep (h : CmdHdr) (w : List Word) (s : State) : OutKeeps s (execImageStage h w s) :=
  OutKeeps.mk (runCmd_keep _ _ _ _ _ (bodyImageStage_keep))

@[simp ↓] theorem execImageVerify_keep (h : CmdHdr) (w : List Word) (s : State) : OutKeeps s (execImageVerify h w s) :=
  OutKeeps.mk (runCmd_keep _ _ _ _ _ (bodyImageVerify_keep))

@[simp ↓] theorem execAttest_keep (h : CmdHdr) (w : List Word) (s : State) : OutKeeps s (execAttest h w s) :=
  OutKeeps.mk (runCmd_keep _ _ _ _ _ (bodyAttest_keep))

theorem execRollbackAdvance_steps (h : CmdHdr) (w : List Word) (s : State) : OutSteps s (execRollbackAdvance h w s) :=
  ⟨_, rfl, runCmd_steps _ _ _ _ _ bodyRollbackAdvance_steps⟩

/-! ### Machine/Regs.lean -/

@[simp ↓] theorem after_keep {s : State} {o : Out} (h : OutKeeps s o) : (after s o).otp = s.otp ∧ (after s o).pending = s.pending := by
  obtain ⟨t, rfl, h⟩ := h
  exact h

@[simp ↓] theorem w1c_keep (s : State) (a v : Nat) : (w1c s a v).otp = s.otp ∧ (w1c s a v).pending = s.pending := by
  constructor <;>
  (unfold w1c
   try extract_lets
   repeat' split
   all_goals (try simp +zetaDelta))

@[simp ↓] theorem writeStatus_keep (s : State) (l : FaultLoc) (o : Nat) (v : Word) : (writeStatus s l o v).otp = s.otp ∧ (writeStatus s l o v).pending = s.pending := by
  constructor <;>
  (unfold writeStatus
   try extract_lets
   repeat' split
   all_goals (try simp +zetaDelta))

@[simp ↓] theorem writePkg_keep (s : State) (b o : Nat) (v : Word) : (writePkg s b o v).otp = s.otp ∧ (writePkg s b o v).pending = s.pending := by
  constructor <;>
  (unfold writePkg
   try extract_lets
   repeat' split
   all_goals (try simp +zetaDelta))

@[simp ↓] theorem writeMover_keep (s : State) (d o : Nat) (v : Word) : (writeMover s d o v).otp = s.otp ∧ (writeMover s d o v).pending = s.pending := by
  constructor <;>
  (unfold writeMover
   try extract_lets
   repeat' split
   all_goals (try simp +zetaDelta))

@[simp ↓] theorem writeWord_keep (s : State) (a : Nat) (v : Word) : (writeWord s a v).otp = s.otp ∧ (writeWord s a v).pending = s.pending := by
  constructor <;>
  (unfold writeWord
   try extract_lets
   repeat' split
   all_goals (try simp +zetaDelta))

@[simp ↓] theorem accessBad_keep (s : State) : (accessBad s).otp = s.otp ∧ (accessBad s).pending = s.pending := by
  constructor <;>
  (unfold accessBad
   try extract_lets
   repeat' split
   all_goals (try simp +zetaDelta))

@[simp ↓] theorem plainRegisterWrite_keep (addr : Nat) (v : Word) (be : BitVec 4) (s : State) : OutKeeps s (plainRegisterWrite addr v be s) := by
  unfold plainRegisterWrite
  try extract_lets
  apply OutKeeps.mk
  constructor <;>
  (repeat' split
   all_goals (try first | refine busWrite_otp fun s => ?_ | refine busWrite_pending fun s => ?_ | refine busRead_otp fun s => ?_ | refine busRead_pending fun s => ?_ | refine bar2Write_otp fun s => ?_ | refine bar2Write_pending fun s => ?_ | refine (foldl_otp _ (fun s a => ?_) _ _).trans ?_ | refine (foldl_pending _ (fun s a => ?_) _ _).trans ?_)
   all_goals (repeat' split)
   all_goals (try simp +zetaDelta)
   all_goals (try first | refine busWrite_otp fun s => ?_ | refine busWrite_pending fun s => ?_ | refine busRead_otp fun s => ?_ | refine busRead_pending fun s => ?_ | refine bar2Write_otp fun s => ?_ | refine bar2Write_pending fun s => ?_ | refine (foldl_otp _ (fun s a => ?_) _ _).trans ?_ | refine (foldl_pending _ (fun s a => ?_) _ _).trans ?_)
   all_goals (repeat' split)
   all_goals (try simp +zetaDelta))

@[simp ↓] theorem plainCounterLoRead_keep (addr : Nat) (s : State) : OutKeeps s (plainCounterLoRead addr s) := by
  unfold plainCounterLoRead
  try extract_lets
  apply OutKeeps.mk
  constructor <;>
  (repeat' split
   all_goals (try first | refine busWrite_otp fun s => ?_ | refine busWrite_pending fun s => ?_ | refine busRead_otp fun s => ?_ | refine busRead_pending fun s => ?_ | refine bar2Write_otp fun s => ?_ | refine bar2Write_pending fun s => ?_ | refine (foldl_otp _ (fun s a => ?_) _ _).trans ?_ | refine (foldl_pending _ (fun s a => ?_) _ _).trans ?_)
   all_goals (repeat' split)
   all_goals (try simp +zetaDelta)
   all_goals (try first | refine busWrite_otp fun s => ?_ | refine busWrite_pending fun s => ?_ | refine busRead_otp fun s => ?_ | refine busRead_pending fun s => ?_ | refine bar2Write_otp fun s => ?_ | refine bar2Write_pending fun s => ?_ | refine (foldl_otp _ (fun s a => ?_) _ _).trans ?_ | refine (foldl_pending _ (fun s a => ?_) _ _).trans ?_)
   all_goals (repeat' split)
   all_goals (try simp +zetaDelta))

@[simp ↓] theorem execRcRead_keep (addr : Nat) (s : State) : OutKeeps s (execRcRead addr s) := by
  unfold execRcRead
  try extract_lets
  apply OutKeeps.mk
  constructor <;>
  (repeat' split
   all_goals (try first | refine busWrite_otp fun s => ?_ | refine busWrite_pending fun s => ?_ | refine busRead_otp fun s => ?_ | refine busRead_pending fun s => ?_ | refine bar2Write_otp fun s => ?_ | refine bar2Write_pending fun s => ?_ | refine (foldl_otp _ (fun s a => ?_) _ _).trans ?_ | refine (foldl_pending _ (fun s a => ?_) _ _).trans ?_)
   all_goals (repeat' split)
   all_goals (try simp +zetaDelta)
   all_goals (try first | refine busWrite_otp fun s => ?_ | refine busWrite_pending fun s => ?_ | refine busRead_otp fun s => ?_ | refine busRead_pending fun s => ?_ | refine bar2Write_otp fun s => ?_ | refine bar2Write_pending fun s => ?_ | refine (foldl_otp _ (fun s a => ?_) _ _).trans ?_ | refine (foldl_pending _ (fun s a => ?_) _ _).trans ?_)
   all_goals (repeat' split)
   all_goals (try simp +zetaDelta))

theorem readError_keep (s : State) (x d : Nat) {a : State} (e : readError s x d = some a) : a.otp = s.otp ∧ a.pending = s.pending := by
  unfold readError at e
  repeat' split at e
  all_goals first
    | exact busError_keep e
    | (simp only [Option.some.injEq] at e; subst e; constructor <;> simp +zetaDelta; done)
    | (exfalso; revert e; simp; done)

theorem barReadError_keep (s : State) (b x d : Nat) {a : State} (e : barReadError s b x d = some a) : a.otp = s.otp ∧ a.pending = s.pending := by
  unfold barReadError at e
  (try extract_lets at e)
  repeat' split at e
  all_goals (try dsimp only at e)
  all_goals (repeat' split at e)
  all_goals first
    | (simp only [Option.some.injEq, Except.ok.injEq, Except.error.injEq] at e; subst e; constructor <;> simp +zetaDelta; done)
    | (exfalso; revert e; simp; done)

theorem plainCompleterAbortRead_keep (bar addr dwords : Nat) (s : State) : OutKeeps s (plainCompleterAbortRead bar addr dwords s) := by
  unfold plainCompleterAbortRead
  refine OutKeeps.mk ?_
  show Keeps s _
  dsimp only
  split
  · exact .refl _
  · rename_i t ht
    have h : Keeps s t := by
      repeat' split at ht
      all_goals first | exact readError_keep _ _ _ ht | exact barReadError_keep _ _ _ _ ht | cases ht
    refine Keeps.trans ?_ (emit_keep _ _)
    split
    · split
      · rename_i u hu; exact h.trans (readError_keep _ _ _ hu)
      · exact h
    · exact h

/-! ### Machine/Observe.lean -/

@[simp ↓] theorem traceDrop_keep (s : State) (d : Nat) : (traceDrop s d).otp = s.otp ∧ (traceDrop s d).pending = s.pending := by
  constructor <;>
  (unfold traceDrop
   try extract_lets
   repeat' split
   all_goals (try simp +zetaDelta))

@[simp ↓] theorem bellPut_keep (s : State) (b : List Byte) : (bellPut s b).otp = s.otp ∧ (bellPut s b).pending = s.pending := by
  constructor <;>
  (unfold bellPut
   try extract_lets
   repeat' split
   all_goals (try simp +zetaDelta))

@[simp ↓] theorem execTraceRecordWrite_keep (d : Nat) (s : State) : OutKeeps s (execTraceRecordWrite d s) := by
  unfold execTraceRecordWrite
  try extract_lets
  apply OutKeeps.mk
  constructor <;>
  (repeat' split
   all_goals (try simp +zetaDelta))

@[simp ↓] theorem execTraceGap_keep (d : Nat) (s : State) : OutKeeps s (execTraceGap d s) := by
  unfold execTraceGap
  try extract_lets
  apply OutKeeps.mk
  constructor <;>
  (repeat' split
   all_goals (try simp +zetaDelta))

@[simp ↓] theorem execBellRecordSend_keep (s : State) : OutKeeps s (execBellRecordSend s) := by
  unfold execBellRecordSend
  try extract_lets
  apply OutKeeps.mk
  constructor <;>
  (repeat' split
   all_goals (try simp +zetaDelta))

@[simp ↓] theorem execBellGap_keep (s : State) : OutKeeps s (execBellGap s) := by
  unfold execBellGap
  try extract_lets
  apply OutKeeps.mk
  constructor <;>
  (repeat' split
   all_goals (try simp +zetaDelta))

@[simp ↓] theorem bodyTraceSet_keep (x0 : CmdHdr) (w : List Word) (s : State) : (bodyTraceSet x0 w s).1.otp = s.otp ∧ (bodyTraceSet x0 w s).1.pending = s.pending := by
  constructor <;> unfold bodyTraceSet <;> (try extract_lets)
  all_goals (try first | refine busWrite_otp fun s => ?_ | refine busWrite_pending fun s => ?_ | refine busRead_otp fun s => ?_ | refine busRead_pending fun s => ?_ | refine bar2Write_otp fun s => ?_ | refine bar2Write_pending fun s => ?_ | refine (foldl_otp _ (fun s a => ?_) _ _).trans ?_ | refine (foldl_pending _ (fun s a => ?_) _ _).trans ?_)
  all_goals (try dsimp only)
  all_goals (repeat' split)
  all_goals first | rfl | simp +zetaDelta

@[simp ↓] theorem bodyTraceQuery_keep (x0 : CmdHdr) (x1 : List Word) (s : State) : (bodyTraceQuery x0 x1 s).1.otp = s.otp ∧ (bodyTraceQuery x0 x1 s).1.pending = s.pending := by
  constructor <;>
  (unfold bodyTraceQuery
   try extract_lets
   repeat' split
   all_goals (try simp +zetaDelta))

@[simp ↓] theorem bodyArchiveSet_keep (x0 : CmdHdr) (w : List Word) (s : State) : (bodyArchiveSet x0 w s).1.otp = s.otp ∧ (bodyArchiveSet x0 w s).1.pending = s.pending := by
  constructor <;>
  (unfold bodyArchiveSet
   try extract_lets
   repeat' split
   all_goals (try simp +zetaDelta))

@[simp ↓] theorem bodyArchiveQuery_keep (x0 : CmdHdr) (x1 : List Word) (s : State) : (bodyArchiveQuery x0 x1 s).1.otp = s.otp ∧ (bodyArchiveQuery x0 x1 s).1.pending = s.pending := by
  constructor <;>
  (unfold bodyArchiveQuery
   try extract_lets
   repeat' split
   all_goals (try simp +zetaDelta))

@[simp ↓] theorem execArchiveLatch_keep (s : State) : OutKeeps s (execArchiveLatch s) := by
  unfold execArchiveLatch
  try extract_lets
  apply OutKeeps.mk
  constructor <;>
  (repeat' split
   all_goals (try simp +zetaDelta))

@[simp ↓] theorem execArchiveRecordDone_keep (s : State) : OutKeeps s (execArchiveRecordDone s) := by
  unfold execArchiveRecordDone
  try extract_lets
  apply OutKeeps.mk
  constructor <;>
  (repeat' split
   all_goals (try simp +zetaDelta))

@[simp ↓] theorem execTapInstruction_keep (testEn : Bool) (i : TapInstr) (s : State) : OutKeeps s (execTapInstruction testEn i s) := by
  unfold execTapInstruction
  try extract_lets
  apply OutKeeps.mk
  constructor <;>
  (repeat' split
   all_goals (try simp +zetaDelta))

@[simp ↓] theorem execTraceSet_keep (h : CmdHdr) (w : List Word) (s : State) : OutKeeps s (execTraceSet h w s) :=
  OutKeeps.mk (runCmd_keep _ _ _ _ _ (bodyTraceSet_keep))

@[simp ↓] theorem execTraceQuery_keep (h : CmdHdr) (w : List Word) (s : State) : OutKeeps s (execTraceQuery h w s) :=
  OutKeeps.mk (runCmd_keep _ _ _ _ _ (bodyTraceQuery_keep))

@[simp ↓] theorem execArchiveSet_keep (h : CmdHdr) (w : List Word) (s : State) : OutKeeps s (execArchiveSet h w s) :=
  OutKeeps.mk (runCmd_keep _ _ _ _ _ (bodyArchiveSet_keep))

@[simp ↓] theorem execArchiveQuery_keep (h : CmdHdr) (w : List Word) (s : State) : OutKeeps s (execArchiveQuery h w s) :=
  OutKeeps.mk (runCmd_keep _ _ _ _ _ (bodyArchiveQuery_keep))

end Sys2Proof.Machine
end

