-- ==== Sys2Proof/Laws/KeepPacket.lean ====
section
/-! SUPPORT. What the operations and the meanings of TimeStep, Packet leave as they are: the OTP and the queue of waiting commands. -/

set_option linter.unusedTactic false
set_option linter.unreachableTactic false
set_option linter.unusedVariables false
set_option linter.unusedSimpArgs false
set_option linter.unnecessarySeqFocus false

namespace Sys2Proof.Machine

/-! ### Machine/TimeStep.lean -/

@[simp ↓] theorem stepPortValve_keep (s0 : State) (s : State) (p : Nat) : (stepPortValve s0 s p).otp = s.otp ∧ (stepPortValve s0 s p).pending = s.pending := by
  constructor <;>
  (unfold stepPortValve
   try extract_lets
   repeat' split
   all_goals (try simp +zetaDelta)
   all_goals (repeat' split)
   all_goals (try simp +zetaDelta))

@[simp ↓] theorem stepAxes_keep (s : State) : (stepAxes s).otp = s.otp ∧ (stepAxes s).pending = s.pending := by
  constructor <;>
  (unfold stepAxes
   try extract_lets
   repeat' split
   all_goals (try first | refine busWrite_otp fun s => ?_ | refine busWrite_pending fun s => ?_ | refine busRead_otp fun s => ?_ | refine busRead_pending fun s => ?_ | refine bar2Write_otp fun s => ?_ | refine bar2Write_pending fun s => ?_ | refine (foldl_otp _ (fun s a => ?_) _ _).trans ?_ | refine (foldl_pending _ (fun s a => ?_) _ _).trans ?_)
   all_goals (repeat' split)
   all_goals (try simp +zetaDelta)
   all_goals (try first | refine busWrite_otp fun s => ?_ | refine busWrite_pending fun s => ?_ | refine busRead_otp fun s => ?_ | refine busRead_pending fun s => ?_ | refine bar2Write_otp fun s => ?_ | refine bar2Write_pending fun s => ?_ | refine (foldl_otp _ (fun s a => ?_) _ _).trans ?_ | refine (foldl_pending _ (fun s a => ?_) _ _).trans ?_)
   all_goals (repeat' split)
   all_goals (try simp +zetaDelta))

@[simp ↓] theorem stepTimes_keep (d n : Int) (s : State) : (stepTimes d n s).otp = s.otp ∧ (stepTimes d n s).pending = s.pending := by
  constructor <;>
  (unfold stepTimes
   try extract_lets
   repeat' split
   all_goals (try simp +zetaDelta))

@[simp ↓] theorem applyStep_keep (s : State) (units : Nat) : (applyStep s units).otp = s.otp ∧ (applyStep s units).pending = s.pending := by
  constructor <;>
  (unfold applyStep
   try extract_lets
   repeat' split
   all_goals (try first | refine busWrite_otp fun s => ?_ | refine busWrite_pending fun s => ?_ | refine busRead_otp fun s => ?_ | refine busRead_pending fun s => ?_ | refine bar2Write_otp fun s => ?_ | refine bar2Write_pending fun s => ?_ | refine (foldl_otp _ (fun s a => ?_) _ _).trans ?_ | refine (foldl_pending _ (fun s a => ?_) _ _).trans ?_)
   all_goals (repeat' split)
   all_goals (try simp +zetaDelta)
   all_goals (try first | refine busWrite_otp fun s => ?_ | refine busWrite_pending fun s => ?_ | refine busRead_otp fun s => ?_ | refine busRead_pending fun s => ?_ | refine bar2Write_otp fun s => ?_ | refine bar2Write_pending fun s => ?_ | refine (foldl_otp _ (fun s a => ?_) _ _).trans ?_ | refine (foldl_pending _ (fun s a => ?_) _ _).trans ?_)
   all_goals (repeat' split)
   all_goals (try simp +zetaDelta))

@[simp ↓] theorem stepDeferred_keep (s : State) : (stepDeferred s).otp = s.otp ∧ (stepDeferred s).pending = s.pending := by
  constructor <;>
  (unfold stepDeferred
   try extract_lets
   repeat' split
   all_goals (try simp +zetaDelta))

@[simp ↓] theorem servo_keep (s : State) (x : Int) : (servo s x).otp = s.otp ∧ (servo s x).pending = s.pending := by
  constructor <;>
  (unfold servo
   try extract_lets
   repeat' split
   all_goals (try simp +zetaDelta))

@[simp ↓] theorem offsetLarge_keep (s : State) (big : Bool) : (offsetLarge s big).otp = s.otp ∧ (offsetLarge s big).pending = s.pending := by
  constructor <;>
  (unfold offsetLarge
   try extract_lets
   repeat' split
   all_goals (try simp +zetaDelta))

@[simp ↓] theorem stepState_keep (s : State) (units : Nat) : (stepState s units).otp = s.otp ∧ (stepState s units).pending = s.pending := by
  constructor <;>
  (unfold stepState
   try extract_lets
   repeat' split
   all_goals (try simp +zetaDelta))

@[simp ↓] theorem acquireSample_keep (s : State) : (acquireSample s).otp = s.otp ∧ (acquireSample s).pending = s.pending := by
  constructor <;>
  (unfold acquireSample
   try extract_lets
   repeat' split
   all_goals (try simp +zetaDelta))

@[simp ↓] theorem trackSample_keep (s : State) : (trackSample s).otp = s.otp ∧ (trackSample s).pending = s.pending := by
  constructor <;>
  (unfold trackSample
   try extract_lets
   repeat' split
   all_goals (try simp +zetaDelta))

@[simp ↓] theorem takeSample_keep (s : State) (x : Int) : (takeSample s x).otp = s.otp ∧ (takeSample s x).pending = s.pending := by
  constructor <;>
  (unfold takeSample
   try extract_lets
   repeat' split
   all_goals (try simp +zetaDelta))

@[simp ↓] theorem utcHeard_keep (s : State) (utc : Option (BitVec 16)) : (utcHeard s utc).otp = s.otp ∧ (utcHeard s utc).pending = s.pending := by
  constructor <;>
  (unfold utcHeard
   try extract_lets
   repeat' split
   all_goals (try simp +zetaDelta))

@[simp ↓] theorem execOffsetSample_keep (ext : Int) (utc : Option (BitVec 16)) (s : State) : OutKeeps s (execOffsetSample ext utc s) := by
  unfold execOffsetSample
  try extract_lets
  apply OutKeeps.mk
  constructor <;>
  (repeat' split
   all_goals (try simp +zetaDelta))

@[simp ↓] theorem execDeferredStepApply_keep (s : State) : OutKeeps s (execDeferredStepApply s) := by
  unfold execDeferredStepApply
  try extract_lets
  apply OutKeeps.mk
  constructor <;>
  (repeat' split
   all_goals (try simp +zetaDelta))

@[simp ↓] theorem execHoldover_keep (s : State) : OutKeeps s (execHoldover s) := by
  unfold execHoldover
  try extract_lets
  apply OutKeeps.mk
  constructor <;>
  (repeat' split
   all_goals (try simp +zetaDelta))

@[simp ↓] theorem timeInit_keep (s : State) (w : List Word) : (timeInit s w).1.otp = s.otp ∧ (timeInit s w).1.pending = s.pending := by
  constructor <;>
  (unfold timeInit
   try extract_lets
   repeat' split
   all_goals (try simp +zetaDelta))

@[simp ↓] theorem bodyTimeSourceSet_keep (x0 : CmdHdr) (w : List Word) (s : State) : (bodyTimeSourceSet x0 w s).1.otp = s.otp ∧ (bodyTimeSourceSet x0 w s).1.pending = s.pending := by
  constructor <;>
  (unfold bodyTimeSourceSet
   try extract_lets
   repeat' split
   all_goals (try simp +zetaDelta))

@[simp ↓] theorem bodyTimeStepPermit_keep (x0 : CmdHdr) (w : List Word) (s : State) : (bodyTimeStepPermit x0 w s).1.otp = s.otp ∧ (bodyTimeStepPermit x0 w s).1.pending = s.pending := by
  constructor <;>
  (unfold bodyTimeStepPermit
   try extract_lets
   repeat' split
   all_goals (try simp +zetaDelta))

@[simp ↓] theorem execTimeSourceSet_keep (h : CmdHdr) (w : List Word) (s : State) : OutKeeps s (execTimeSourceSet h w s) :=
  OutKeeps.mk (runCmd_keep _ _ _ _ _ (bodyTimeSourceSet_keep))

@[simp ↓] theorem execTimeStepPermit_keep (h : CmdHdr) (w : List Word) (s : State) : OutKeeps s (execTimeStepPermit h w s) :=
  OutKeeps.mk (runCmd_keep _ _ _ _ _ (bodyTimeStepPermit_keep))

/-! ### Machine/Packet.lean -/

/-- Every meaning of a list of rows gives a step. -/
def RowsStep (l : List (Nat × (CmdHdr → List Word → State → Out))) : Prop := ∀ e ∈ l, ∀ h w s, OutSteps s (e.2 h w s)

theorem RowsStep.nil : RowsStep [] := fun e h => absurd h (List.not_mem_nil)

theorem RowsStep.cons {n : Nat} {f : CmdHdr → List Word → State → Out} {l : List (Nat × (CmdHdr → List Word → State → Out))}
    (hf : ∀ h w s, OutSteps s (f h w s)) (hl : RowsStep l) : RowsStep ((n, f) :: l) := by
  intro e he h w s
  rcases List.mem_cons.1 he with rfl | he
  · exact hf h w s
  · exact hl e he h w s

theorem RowsStep.append {a b : List (Nat × (CmdHdr → List Word → State → Out))} (ha : RowsStep a) (hb : RowsStep b) :
    RowsStep (a ++ b) := by
  intro e he h w s
  rcases List.mem_append.1 he with he | he
  · exact ha e he h w s
  · exact hb e he h w s

theorem lookup_mem {α : Type} {l : List (Nat × α)} {n : Nat} {f : α} (h : l.lookup n = some f) : (n, f) ∈ l := by
  induction l with
  | nil => simp at h
  | cons e l ih =>
    rw [List.lookup_cons] at h
    split at h
    · rename_i he; cases h; rw [eq_of_beq he]; simp
    · exact List.mem_cons_of_mem _ (ih h)

theorem opRows01_steps : RowsStep opRows01 :=
  .cons (fun h w s => (execIdQuery_keep h w s).steps)
    (.cons (fun h w s => (execEcho_keep h w s).steps)
    (.nil))

theorem opRows02_steps : RowsStep opRows02 :=
  .cons (fun h w s => (execClockQuery_keep h w s).steps)
    (.cons (fun h w s => (execReedTrim_keep h w s).steps)
    (.cons (fun h w s => (execClkoutSet_keep h w s).steps)
    (.cons (fun h w s => (execParkSet_keep h w s).steps)
    (.cons (fun h w s => (execResetIssue_keep h w s).steps)
    (.cons (fun h w s => (execStandbyEnter_keep h w s).steps)
    (.nil))))))

theorem opRows03_steps : RowsStep opRows03 :=
  .cons (fun h w s => (execPortQuery_keep h w s).steps)
    (.cons (fun h w s => (execPortSet_keep h w s).steps)
    (.cons (fun h w s => (execPortSleep_keep h w s).steps)
    (.cons (fun h w s => (execPortWake_keep h w s).steps)
    (.cons (fun h w s => (execLaneSet_keep h w s).steps)
    (.cons (fun h w s => (execLaneRecal_keep h w s).steps)
    (.cons (fun h w s => (execPortCountRead_keep h w s).steps)
    (.cons (fun h w s => (execPortReset_keep h w s).steps)
    (.nil))))))))

theorem opRows04_steps : RowsStep opRows04 :=
  .cons (fun h w s => (execTimeQuery_keep h w s).steps)
    (.cons (fun h w s => (execTimeSourceSet_keep h w s).steps)
    (.cons (fun h w s => (execTimeStepPermit_keep h w s).steps)
    (.cons (fun h w s => (execTimeRateSet_keep h w s).steps)
    (.cons (fun h w s => (execTimeLinkSet_keep h w s).steps)
    (.cons (fun h w s => (execTimePortSet_keep h w s).steps)
    (.cons (fun h w s => (execPulseSet_keep h w s).steps)
    (.cons (fun h w s => (execPulseStop_keep h w s).steps)
    (.cons (fun h w s => (execPinRouteSet_keep h w s).steps)
    (.cons (fun h w s => (execCaptureSet_keep h w s).steps)
    (.cons (fun h w s => (execTsringSet_keep h w s).steps)
    (.nil)))))))))))

theorem opRows05_steps : RowsStep opRows05 :=
  .cons (fun h w s => (execValveQuery_keep h w s).steps)
    (.cons (fun h w s => (execValveSet_keep h w s).steps)
    (.cons (fun h w s => (execValveWrite_keep h w s).steps)
    (.cons (fun h w s => (execValveRead_keep h w s).steps)
    (.cons (fun h w s => (execValveStart_keep h w s).steps)
    (.cons (fun h w s => (execValveSwap_keep h w s).steps)
    (.cons (fun h w s => (execValveStop_keep h w s).steps)
    (.cons (fun h w s => (execPreemptSet_keep h w s).steps)
    (.cons (fun h w s => (execPreemptQuery_keep h w s).steps)
    (.nil)))))))))

theorem opRows06_steps : RowsStep opRows06 :=
  .cons (fun h w s => (execCourseQuery_keep h w s).steps)
    (.cons (fun h w s => (execCourseSet_keep h w s).steps)
    (.cons (fun h w s => (execBondWrite_keep h w s).steps)
    (.cons (fun h w s => (execFrameSet_keep h w s).steps)
    (.cons (fun h w s => (execSafeImageWrite_keep h w s).steps)
    (.cons (fun h w s => (execCourseStart_keep h w s).steps)
    (.cons (fun h w s => (execCourseSwap_keep h w s).steps)
    (.cons (fun h w s => (execCourseSafe_keep h w s).steps)
    (.cons (fun h w s => (execCourseResume_keep h w s).steps)
    (.cons (fun h w s => (execCourseStop_keep h w s).steps)
    (.cons (fun h w s => (execCourseLineSet_keep h w s).steps)
    (.nil)))))))))))

theorem opRows07_steps : RowsStep opRows07 :=
  .cons (fun h w s => (execAxisQuery_keep h w s).steps)
    (.cons (fun h w s => (execAxisSet_keep h w s).steps)
    (.cons (fun h w s => (execReflexSet_keep h w s).steps)
    (.cons (fun h w s => (execReflexArm_keep h w s).steps)
    (.cons (fun h w s => (execAxisStart_keep h w s).steps)
    (.cons (fun h w s => (execAxisQstop_keep h w s).steps)
    (.cons (fun h w s => (execAxisOff_keep h w s).steps)
    (.cons (fun h w s => (execSegWrite_keep h w s).steps)
    (.cons (fun h w s => (execDigestQuery_keep h w s).steps)
    (.nil)))))))))

theorem opRows08_steps : RowsStep opRows08 :=
  .cons (fun h w s => (execFlowQuery_keep h w s).steps)
    (.cons (fun h w s => (execFlowAdd_keep h w s).steps)
    (.cons (fun h w s => (execFlowWrite_keep h w s).steps)
    (.cons (fun h w s => (execFlowDelete_keep h w s).steps)
    (.cons (fun h w s => (execFlowPortSet_keep h w s).steps)
    (.cons (fun h w s => (execFlowLatentSet_keep h w s).steps)
    (.cons (fun h w s => (execFlowRecovReset_keep h w s).steps)
    (.cons (fun h w s => (execFlowCountRead_keep h w s).steps)
    (.cons (fun h w s => (execFlowTableQuery_keep h w s).steps)
    (.nil)))))))))

theorem opRows09_steps : RowsStep opRows09 :=
  .cons (fun h w s => (execQueueQuery_keep h w s).steps)
    (.cons (fun h w s => (execQueueWrite_keep h w s).steps)
    (.cons (fun h w s => (execQueueFlush_keep h w s).steps)
    (.cons (fun h w s => (execServiceSet_keep h w s).steps)
    (.cons (fun h w s => (execPortShapeSet_keep h w s).steps)
    (.cons (fun h w s => (execBufferSet_keep h w s).steps)
    (.cons (fun h w s => (execIngressSet_keep h w s).steps)
    (.cons (fun h w s => (execBufferQuery_keep h w s).steps)
    (.nil))))))))

theorem opRows0A_steps : RowsStep opRows0A :=
  .cons (fun h w s => (execTwinQuery_keep h w s).steps)
    (.cons (fun h w s => (execTwinSet_keep h w s).steps)
    (.cons (fun h w s => (execTwinLead_keep h w s).steps)
    (.cons (fun h w s => (execTwinFollow_keep h w s).steps)
    (.cons (fun h w s => (execTwinHandover_keep h w s).steps)
    (.cons (fun h w s => (execTwinSync_keep h w s).steps)
    (.cons (fun h w s => (execTwinOff_keep h w s).steps)
    (.nil)))))))

theorem opRows0B_steps : RowsStep opRows0B :=
  .cons (fun h w s => (execFaultQuery_keep h w s).steps)
    (.cons (fun h w s => (execFaultSet_keep h w s).steps)
    (.cons (fun h w s => (execFaultClear_keep h w s).steps)
    (.cons (fun h w s => (execFaultnSet_keep h w s).steps)
    (.cons (fun h w s => (execLsoSet_keep h w s).steps)
    (.nil)))))

theorem opRows0C_steps : RowsStep opRows0C :=
  .cons (fun h w s => (execSecQuery_keep h w s).steps)
    (.cons (fun h w s => (execImageStage_keep h w s).steps)
    (.cons (fun h w s => (execImageVerify_keep h w s).steps)
    (.cons (fun h w s => (execImageActivate_keep h w s).steps)
    (.cons (fun h w s => (execAttest_keep h w s).steps)
    (.cons (execRollbackAdvance_steps)
    (.nil))))))

theorem opRows0D_steps : RowsStep opRows0D :=
  .cons (fun h w s => (execTraceSet_keep h w s).steps)
    (.cons (fun h w s => (execTraceQuery_keep h w s).steps)
    (.cons (fun h w s => (execArchiveSet_keep h w s).steps)
    (.cons (fun h w s => (execArchiveQuery_keep h w s).steps)
    (.nil))))

theorem opRows0E_steps : RowsStep opRows0E :=
  .cons (fun h w s => (execSysQuery_keep h w s).steps)
    (.cons (fun h w s => (execSysSet_keep h w s).steps)
    (.cons (fun h w s => (execSysRouteSet_keep h w s).steps)
    (.cons (fun h w s => (execSysRootReturn_keep h w s).steps)
    (.cons (fun h w s => (execHyithQuery_keep h w s).steps)
    (.cons (fun h w s => (execTxnOpen_keep h w s).steps)
    (.cons (fun h w s => (execTxnCommit_keep h w s).steps)
    (.cons (fun h w s => (execTxnAbort_keep h w s).steps)
    (.cons (fun h w s => (execTxnQuery_keep h w s).steps)
    (.nil)))))))))

theorem opRows_steps : RowsStep opRows :=
  (((((((((((((opRows01_steps).append opRows02_steps).append opRows03_steps).append opRows04_steps).append opRows05_steps).append opRows06_steps).append opRows07_steps).append opRows08_steps).append opRows09_steps).append opRows0A_steps).append opRows0B_steps).append opRows0C_steps).append opRows0D_steps).append opRows0E_steps

theorem runOpcode_steps (op : Nat) (h : CmdHdr) (w : List Word) (s : State) {o : Out} (e : runOpcode op h w s = some o) :
    OutSteps s o := by
  unfold runOpcode at e
  rw [Option.map_eq_some_iff] at e
  obtain ⟨f, hf, rfl⟩ := e
  exact opRows_steps _ (lookup_mem hf) h w s

/-- A state that a step from s may give. -/
def Steps (s t : State) : Prop := OtpStep s.otp t.otp ∧ t.pending = s.pending

theorem Keeps.steps {s t : State} (h : Keeps s t) : Steps s t := ⟨h.1 ▸ OtpStep.refl _, h.2⟩

theorem Keeps.after {s t u : State} (h : Keeps s t) (k : Steps t u) : Steps s u := ⟨h.1 ▸ k.1, k.2.trans h.2⟩

theorem runPacket_steps (s : State) (t : Taken) : Steps s (runPacket s t) := by
  unfold runPacket
  extract_lets h op
  split
  · exact Keeps.steps (deliver_keep _ _ _ _)
  · split
    · exact Keeps.steps (routePacket_keep _ _ _ _ _)
    · split
      · rename_i u hu
        obtain ⟨v, hv, k⟩ := runOpcode_steps _ _ _ _ hu
        cases hv
        exact k
      · exact Keeps.steps (.refl _)
      · exact Keeps.steps (deliver_keep _ _ _ _)

theorem runFrame_steps (s : State) (path : Path) (b : List Byte) (hops : Nat) : Steps s (runFrame s path b hops) := by
  unfold runFrame
  split
  · exact Keeps.steps (count_keep _ _ _)
  · split
    · exact Keeps.steps (deliver_keep _ _ _ _)
    · exact runPacket_steps _ _

@[simp ↓] theorem giveReply_keep (s : State) (h : CmdHdr) (l : List Word) : (giveReply s h l).otp = s.otp ∧ (giveReply s h l).pending = s.pending := by
  constructor <;>
  (unfold giveReply
   try extract_lets
   repeat' split
   all_goals (try simp +zetaDelta))

theorem relayReply_keep (s : State) (f : HyithFrame) {t : State} (e : relayReply s f = some t) : Keeps s t := by
  unfold relayReply at e
  split at e
  · cases e; exact .refl _
  · split at e
    · split at e
      · cases e; exact .refl _
      · split at e
        · cases e; exact giveReply_keep _ _ _
        · cases e
    · split at e
      · cases e; exact count_keep _ _ _
      · split at e
        · split at e
          · cases e; exact hyithSend_keep _ _ _ _ _
          · cases e
        · cases e; exact .refl _

theorem takeHyith_steps (s : State) : Steps s (takeHyith s) := by
  unfold takeHyith
  split
  · exact Keeps.steps (.refl _)
  · extract_lets freed
    have h : Keeps s freed := modHlink_keep _ _ _
    clear_value freed
    split
    · split
      · rename_i t ht; exact Keeps.steps (h.trans (relayReply_keep _ _ ht))
      · exact Keeps.steps (.refl _)
    · split
      · exact h.after (runFrame_steps _ _ _ _)
      · exact Keeps.steps (.refl _)

theorem takeMgmt_steps (s : State) : Steps s (takeMgmt s) := by
  unfold takeMgmt
  split
  · exact Keeps.steps (.refl _)
  · rename_i f q _
    split
    · exact Keeps.after (t := { s with mgmtQ := q }) ⟨rfl, rfl⟩ (runFrame_steps _ _ _ _)
    · exact Keeps.steps (.refl _)

theorem takePcie_steps (s : State) (parityBad : Bool) : Steps s (takePcie s parityBad) := by
  unfold takePcie
  split
  · exact Keeps.steps (.refl _)
  · extract_lets x y
    have h : Keeps s x.1 := takePacket_keep s
    split
    · exact Keeps.steps (h.trans ⟨(raise_keep _ _ _).1.trans (count_keep _ _ _).1, (raise_keep _ _ _).2.trans (count_keep _ _ _).2⟩)
    · exact h.after (runPacket_steps _ _)

theorem execCommandTake_steps (sel : PathSel) (parityBad : Bool) (s : State) : OutSteps s (execCommandTake sel parityBad s) := by
  refine ⟨_, rfl, ?_⟩
  show Steps s _
  split
  · exact Keeps.steps (.refl _)
  · split
    · exact Keeps.steps (.refl _)
    · rename_i i _
      split
      · exact Keeps.steps (.refl _)
      · refine Keeps.after (t := { s with served := i }) ⟨rfl, rfl⟩ ?_
        cases sel
        · exact takePcie_steps _ _
        · exact takeMgmt_steps _
        · exact takeHyith_steps _

end Sys2Proof.Machine
end

