-- ==== Sys2Proof/Laws/KeepGate.lean ====
section
/-! SUPPORT. What the end of a gate handshake, the accesses it held, and the rows it may hold or that may end it leave as they are: the OTP
and the queue of waiting commands. -/

namespace Sys2Proof.Machine

theorem OutKeeps.after {s : State} {o : Out} (h : OutKeeps s o) : Keeps s (Machine.after s o) := by
  obtain ⟨t, rfl, k⟩ := h
  exact k

theorem heldOr_keep (s : State) (i : HeldAcc) {o : Out} (h : OutKeeps s o) : OutKeeps s (heldOr s i o) := by
  unfold heldOr
  split
  · exact OutKeeps.mk ⟨rfl, rfl⟩
  · exact h

theorem replay_keep (s : State) (i : HeldAcc) : Keeps s (replay s i) := by
  unfold replay
  refine OutKeeps.after ?_
  cases i with
  | write a v b => exact plainRegisterWrite_keep a v b s
  | readLo a => exact plainCounterLoRead_keep a s
  | read b a n => exact plainCompleterAbortRead_keep b a n s
  | staging a d w => exact plainStagingWrite_keep a d w s
  | segPut r v => exact plainSegPutDb_keep r v s
  | tsTail p v => exact plainTsTailWrite_keep p v s
  | w1c l v => exact plainFaultStickyW1c_keep l v s

theorem releaseHeld_keep (s : State) : Keeps s (releaseHeld s) := by
  unfold releaseHeld
  exact .ite (.refl s) (Keeps.trans (b := { s with power := _ }) ⟨rfl, rfl⟩ (.fold replay_keep _ _))

theorem releasing_keep {s : State} {o : Out} (h : OutKeeps s o) : OutKeeps s (releasing o) := by
  obtain ⟨t, rfl, k⟩ := h
  exact OutKeeps.mk (Keeps.trans k (releaseHeld_keep t))

theorem refuseAcc_keep (k : ResetKind) (s : State) (i : HeldAcc) : Keeps s (refuseAcc k s i) := by
  unfold refuseAcc
  extract_lets r e
  have he u : Keeps u (e u) := accessErr_keep u _
  clear_value e
  split
  · exact (he s).trans (emit_keep _ _)
  · exact Keeps.trans (.ite ((he s).trans (he _)) (he s)) (emit_keep _ _)
  · exact he s

theorem execGateHandshakeDone_keep (s : State) : OutKeeps s (execGateHandshakeDone s) := by
  unfold execGateHandshakeDone
  refine OutKeeps.mk ?_
  show Keeps s _
  split
  · exact .refl s
  · rename_i k t h _
    refine .ite (.refl s) ?_
    extract_lets acc mine p u v
    have h1 : Keeps s { s with power := { s.power with gate := none, heldAcc := [] } } := ⟨rfl, rfl⟩
    have h2 := (h1.trans (deliver_keep _ h (gateOp k) .ok)).trans (.fold (refuseAcc_keep k) acc _)
    replace h2 : Keeps s v := h2
    clear_value v
    split
    · exact .ite h2 (h2.trans (enterLow_keep _ _))
    · exact h2.trans (enterLow_keep _ _)

theorem execGateHandshakeTimeout_keep (s : State) : OutKeeps s (execGateHandshakeTimeout s) := by
  unfold execGateHandshakeTimeout
  refine OutKeeps.mk ?_
  show Keeps s _
  split
  · exact .refl s
  · rename_i k t h _
    have h1 : Keeps s { s with power := { s.power with gate := none } } := ⟨rfl, rfl⟩
    have h2 := (h1.trans (atNs_keep _ t)).trans (count_keep _ 0x2001C 1)
    have h3 := (h2.trans (powerEvent_keep _ (scopeTarget k) 1 3)).trans (deliver_keep _ h (gateOp k) (.err stRefused))
    exact h3.trans (releaseHeld_keep _)

theorem execRegisterWrite_keep (a : Nat) (v : Word) (b : BitVec 4) (s : State) : OutKeeps s (execRegisterWrite a v b s) := heldOr_keep _ _ (plainRegisterWrite_keep a v b s)

theorem execCounterLoRead_keep (a : Nat) (s : State) : OutKeeps s (execCounterLoRead a s) := heldOr_keep _ _ (plainCounterLoRead_keep a s)

theorem execCompleterAbortRead_keep (b a n : Nat) (s : State) : OutKeeps s (execCompleterAbortRead b a n s) := heldOr_keep _ _ (plainCompleterAbortRead_keep b a n s)

theorem execStagingWrite_keep (a : Nat) (d : List Word) (w : Bool) (s : State) : OutKeeps s (execStagingWrite a d w s) := heldOr_keep _ _ (plainStagingWrite_keep a d w s)

theorem execSegPutDb_keep (r : Nat) (v : Word) (s : State) : OutKeeps s (execSegPutDb r v s) := heldOr_keep _ _ (plainSegPutDb_keep r v s)

theorem execTsTailWrite_keep (p : Nat) (v : BitVec 7) (s : State) : OutKeeps s (execTsTailWrite p v s) := heldOr_keep _ _ (plainTsTailWrite_keep p v s)

theorem execFaultStickyW1c_keep (l : FaultLoc) (v : Word) (s : State) : OutKeeps s (execFaultStickyW1c l v s) := heldOr_keep _ _ (plainFaultStickyW1c_keep l v s)

theorem execResetBegin_keep (k : ResetKind) (s : State) : OutKeeps s (execResetBegin k s) := releasing_keep (plainResetBegin_keep k s)

theorem execFaultSourceFire_keep (l : FaultLoc) (i p : Nat) (b : Bool) (s : State) : OutKeeps s (execFaultSourceFire l i p b s) := releasing_keep (plainFaultSourceFire_keep l i p b s)

theorem execReactionRegionReset_keep (r : Nat) (s : State) : OutKeeps s (execReactionRegionReset r s) := releasing_keep (plainReactionRegionReset_keep r s)

theorem execControlHandover_keep (s : State) : OutKeeps s (execControlHandover s) := releasing_keep (plainControlHandover_keep s)

end Sys2Proof.Machine
end

