-- ==== Sys2Proof/Laws/Members.lean ====
section
/-! SUPPORT. Members: a command of an open transaction is prepared and its reply delivered, opcode by opcode (R299). -/

namespace Sys2Proof.Machine

theorem member_run {s : State} {op : Nat} {h : CmdHdr} {w : List Word} {t : Txn} (f : TxnOp) (a : Accepted s op h w) (b : Body)
    (hb : b h w s = prepareMember op f h w s t) :
    runCmd s h op w b = deliver (prepareMember op f h w s t).1 h op (prepareMember op f h w s t).2 := by rw [a.run, hb]

/-- The same of a command that may reply later. -/
theorem member_later {s : State} {op : Nat} {h : CmdHdr} {w : List Word} {t : Txn} (f : TxnOp) (a : Accepted s op h w)
    (b : CmdHdr → List Word → State → State × Option Reply)
    (hb : b h w s = ((prepareMember op f h w s t).1, some (prepareMember op f h w s t).2)) :
    runLater s h op w b = deliver (prepareMember op f h w s t).1 h op (prepareMember op f h w s t).2 := by rw [a.later, hb]

theorem join_body {s : State} {op : Nat} {h : CmdHdr} {w : List Word} {t : Txn} (f : TxnOp) (h0 : h.txn = true)
    (h1 : findTxn s h h.txid false = some t) : bodyJoin op f h w s = prepareMember op f h w s t := by simp only [bodyJoin, h0, h1]; rfl

theorem txn_body {s : State} {op : Nat} {h : CmdHdr} {w : List Word} {t : Txn} (f : TxnOp) (h0 : h.txn = true)
    (h1 : findTxn s h h.txid false = some t) :
    bodyTxn op f h w s = ((prepareMember op f h w s t).1, some (prepareMember op f h w s t).2) := by
  simp only [bodyTxn, h0, h1, reduceIte]

theorem fwd_body {s : State} {op : Nat} {h : CmdHdr} {w : List Word} {t : Txn} (f : TxnOp) (x) (h0 : h.txn = true)
    (h1 : findTxn s h h.txid false = some t) :
    bodyTxnFwd op f x h w s = ((prepareMember op f h w s t).1, some (prepareMember op f h w s t).2) := by
  simp only [bodyTxnFwd, txn_body f h0 h1, Option.isNone_some, Bool.false_and, Bool.false_eq_true, if_false]

theorem member_valveStartOp {s : State} {h : CmdHdr} {w : List Word} {t : Txn} (a : Accepted s 0x0505 h w) (h0 : h.txn = true) (h1 : findTxn s h h.txid false = some t) :
    runOpcode 0x0505 h w s = some (.next (deliver (prepareMember 0x0505 valveStartOp h w s t).1 h 0x0505 (prepareMember 0x0505 valveStartOp h w s t).2)) := by
  have e : runOpcode 0x0505 h w s = some (execValveStart h w s) := rfl
  rw [e, execValveStart, member_later valveStartOp a _ (txn_body valveStartOp  h0 h1)]

theorem member_valveSwapOp {s : State} {h : CmdHdr} {w : List Word} {t : Txn} (a : Accepted s 0x0506 h w) (h0 : h.txn = true) (h1 : findTxn s h h.txid false = some t) :
    runOpcode 0x0506 h w s = some (.next (deliver (prepareMember 0x0506 valveSwapOp h w s t).1 h 0x0506 (prepareMember 0x0506 valveSwapOp h w s t).2)) := by
  have e : runOpcode 0x0506 h w s = some (execValveSwap h w s) := rfl
  rw [e, execValveSwap, member_later valveSwapOp a _ (txn_body valveSwapOp  h0 h1)]

theorem member_valveStopOp {s : State} {h : CmdHdr} {w : List Word} {t : Txn} (a : Accepted s 0x0507 h w) (h0 : h.txn = true) (h1 : findTxn s h h.txid false = some t) :
    runOpcode 0x0507 h w s = some (.next (deliver (prepareMember 0x0507 valveStopOp h w s t).1 h 0x0507 (prepareMember 0x0507 valveStopOp h w s t).2)) := by
  have e : runOpcode 0x0507 h w s = some (execValveStop h w s) := rfl
  rw [e, execValveStop, member_later valveStopOp a _ (txn_body valveStopOp  h0 h1)]

theorem member_courseStartOp {s : State} {h : CmdHdr} {w : List Word} {t : Txn} (a : Accepted s 0x0606 h w) (h0 : h.txn = true) (h1 : findTxn s h h.txid false = some t) :
    runOpcode 0x0606 h w s = some (.next (deliver (prepareMember 0x0606 courseStartOp h w s t).1 h 0x0606 (prepareMember 0x0606 courseStartOp h w s t).2)) := by
  have e : runOpcode 0x0606 h w s = some (execCourseStart h w s) := rfl
  rw [e, execCourseStart, member_later courseStartOp a _ (txn_body courseStartOp  h0 h1)]

theorem member_courseSwapOp {s : State} {h : CmdHdr} {w : List Word} {t : Txn} (a : Accepted s 0x0607 h w) (h0 : h.txn = true) (h1 : findTxn s h h.txid false = some t) :
    runOpcode 0x0607 h w s = some (.next (deliver (prepareMember 0x0607 courseSwapOp h w s t).1 h 0x0607 (prepareMember 0x0607 courseSwapOp h w s t).2)) := by
  have e : runOpcode 0x0607 h w s = some (execCourseSwap h w s) := rfl
  rw [e, execCourseSwap, member_later courseSwapOp a _ (fwd_body courseSwapOp _ h0 h1)]

theorem member_courseResumeOp {s : State} {h : CmdHdr} {w : List Word} {t : Txn} (a : Accepted s 0x0609 h w) (h0 : h.txn = true) (h1 : findTxn s h h.txid false = some t) :
    runOpcode 0x0609 h w s = some (.next (deliver (prepareMember 0x0609 courseResumeOp h w s t).1 h 0x0609 (prepareMember 0x0609 courseResumeOp h w s t).2)) := by
  have e : runOpcode 0x0609 h w s = some (execCourseResume h w s) := rfl
  rw [e, execCourseResume, member_later courseResumeOp a _ (fwd_body courseResumeOp _ h0 h1)]

theorem member_courseStopOp {s : State} {h : CmdHdr} {w : List Word} {t : Txn} (a : Accepted s 0x060A h w) (h0 : h.txn = true) (h1 : findTxn s h h.txid false = some t) :
    runOpcode 0x060A h w s = some (.next (deliver (prepareMember 0x060A courseStopOp h w s t).1 h 0x060A (prepareMember 0x060A courseStopOp h w s t).2)) := by
  have e : runOpcode 0x060A h w s = some (execCourseStop h w s) := rfl
  rw [e, execCourseStop, member_later courseStopOp a _ (fwd_body courseStopOp _ h0 h1)]

theorem member_axisStartOp {s : State} {h : CmdHdr} {w : List Word} {t : Txn} (a : Accepted s 0x0705 h w) (h0 : h.txn = true) (h1 : findTxn s h h.txid false = some t) :
    runOpcode 0x0705 h w s = some (.next (deliver (prepareMember 0x0705 axisStartOp h w s t).1 h 0x0705 (prepareMember 0x0705 axisStartOp h w s t).2)) := by
  have e : runOpcode 0x0705 h w s = some (execAxisStart h w s) := rfl
  rw [e, execAxisStart, member_later axisStartOp a _ (fwd_body axisStartOp _ h0 h1)]

theorem member_axisOffOp {s : State} {h : CmdHdr} {w : List Word} {t : Txn} (a : Accepted s 0x0707 h w) (h0 : h.txn = true) (h1 : findTxn s h h.txid false = some t) :
    runOpcode 0x0707 h w s = some (.next (deliver (prepareMember 0x0707 axisOffOp h w s t).1 h 0x0707 (prepareMember 0x0707 axisOffOp h w s t).2)) := by
  have e : runOpcode 0x0707 h w s = some (execAxisOff h w s) := rfl
  rw [e, execAxisOff, member_later axisOffOp a _ (fwd_body axisOffOp _ h0 h1)]

theorem member_flowAddOp {s : State} {h : CmdHdr} {w : List Word} {t : Txn} (a : Accepted s 0x0802 h w) (h0 : h.txn = true) (h1 : findTxn s h h.txid false = some t) :
    runOpcode 0x0802 h w s = some (.next (deliver (prepareMember 0x0802 flowAddOp h w s t).1 h 0x0802 (prepareMember 0x0802 flowAddOp h w s t).2)) := by
  have e : runOpcode 0x0802 h w s = some (execFlowAdd h w s) := rfl
  rw [e, execFlowAdd, member_run flowAddOp a _ (join_body flowAddOp  h0 h1)]

theorem member_flowWriteOp {s : State} {h : CmdHdr} {w : List Word} {t : Txn} (a : Accepted s 0x0803 h w) (h0 : h.txn = true) (h1 : findTxn s h h.txid false = some t) :
    runOpcode 0x0803 h w s = some (.next (deliver (prepareMember 0x0803 flowWriteOp h w s t).1 h 0x0803 (prepareMember 0x0803 flowWriteOp h w s t).2)) := by
  have e : runOpcode 0x0803 h w s = some (execFlowWrite h w s) := rfl
  rw [e, execFlowWrite, member_run flowWriteOp a _ (join_body flowWriteOp  h0 h1)]

theorem member_flowDeleteOp {s : State} {h : CmdHdr} {w : List Word} {t : Txn} (a : Accepted s 0x0804 h w) (h0 : h.txn = true) (h1 : findTxn s h h.txid false = some t) :
    runOpcode 0x0804 h w s = some (.next (deliver (prepareMember 0x0804 flowDeleteOp h w s t).1 h 0x0804 (prepareMember 0x0804 flowDeleteOp h w s t).2)) := by
  have e : runOpcode 0x0804 h w s = some (execFlowDelete h w s) := rfl
  rw [e, execFlowDelete, member_run flowDeleteOp a _ (join_body flowDeleteOp  h0 h1)]

theorem member_flowRecovResetOp {s : State} {h : CmdHdr} {w : List Word} {t : Txn} (a : Accepted s 0x0807 h w) (h0 : h.txn = true) (h1 : findTxn s h h.txid false = some t) :
    runOpcode 0x0807 h w s = some (.next (deliver (prepareMember 0x0807 flowRecovResetOp h w s t).1 h 0x0807 (prepareMember 0x0807 flowRecovResetOp h w s t).2)) := by
  have e : runOpcode 0x0807 h w s = some (execFlowRecovReset h w s) := rfl
  rw [e, execFlowRecovReset, member_later flowRecovResetOp a _ (txn_body flowRecovResetOp  h0 h1)]

theorem member_queueWriteOp {s : State} {h : CmdHdr} {w : List Word} {t : Txn} (a : Accepted s 0x0902 h w) (h0 : h.txn = true) (h1 : findTxn s h h.txid false = some t) :
    runOpcode 0x0902 h w s = some (.next (deliver (prepareMember 0x0902 queueWriteOp h w s t).1 h 0x0902 (prepareMember 0x0902 queueWriteOp h w s t).2)) := by
  have e : runOpcode 0x0902 h w s = some (execQueueWrite h w s) := rfl
  rw [e, execQueueWrite, member_run queueWriteOp a _ (join_body queueWriteOp  h0 h1)]

theorem member_serviceSetOp {s : State} {h : CmdHdr} {w : List Word} {t : Txn} (a : Accepted s 0x0904 h w) (h0 : h.txn = true) (h1 : findTxn s h h.txid false = some t) :
    runOpcode 0x0904 h w s = some (.next (deliver (prepareMember 0x0904 serviceSetOp h w s t).1 h 0x0904 (prepareMember 0x0904 serviceSetOp h w s t).2)) := by
  have e : runOpcode 0x0904 h w s = some (execServiceSet h w s) := rfl
  rw [e, execServiceSet, member_run serviceSetOp a _ (join_body serviceSetOp  h0 h1)]

theorem member_portShapeOp {s : State} {h : CmdHdr} {w : List Word} {t : Txn} (a : Accepted s 0x0905 h w) (h0 : h.txn = true) (h1 : findTxn s h h.txid false = some t) :
    runOpcode 0x0905 h w s = some (.next (deliver (prepareMember 0x0905 portShapeOp h w s t).1 h 0x0905 (prepareMember 0x0905 portShapeOp h w s t).2)) := by
  have e : runOpcode 0x0905 h w s = some (execPortShapeSet h w s) := rfl
  rw [e, execPortShapeSet, member_run portShapeOp a _ (join_body portShapeOp  h0 h1)]

theorem member_twinHandoverOp {s : State} {h : CmdHdr} {w : List Word} {t : Txn} (a : Accepted s 0x0A05 h w) (h0 : h.txn = true) (h1 : findTxn s h h.txid false = some t) :
    runOpcode 0x0A05 h w s = some (.next (deliver (prepareMember 0x0A05 twinHandoverOp h w s t).1 h 0x0A05 (prepareMember 0x0A05 twinHandoverOp h w s t).2)) := by
  have e : runOpcode 0x0A05 h w s = some (execTwinHandover h w s) := rfl
  rw [e, execTwinHandover, member_later twinHandoverOp a _ (txn_body twinHandoverOp  h0 h1)]

theorem member_sysRootReturnOp {s : State} {h : CmdHdr} {w : List Word} {t : Txn} (a : Accepted s 0x0E04 h w) (h0 : h.txn = true) (h1 : findTxn s h h.txid false = some t) :
    runOpcode 0x0E04 h w s = some (.next (deliver (prepareMember 0x0E04 sysRootReturnOp h w s t).1 h 0x0E04 (prepareMember 0x0E04 sysRootReturnOp h w s t).2)) := by
  have e : runOpcode 0x0E04 h w s = some (execSysRootReturn h w s) := rfl
  rw [e, execSysRootReturn, member_later sysRootReturnOp a _ (txn_body sysRootReturnOp  h0 h1)]

end Sys2Proof.Machine
end

