-- ==== Sys2Proof/Laws/Packets.lean ====
section
/-! SUPPORT. Bytes and packets: tables filled in order, words spelt by bytes, and the command ring after a packet is written and
taken. -/

namespace Sys2Proof.Machine

theorem Tbl.look_foldl_other {α : Type} [DecidableEq α] (f : Nat → Nat) (d : α) (z : List (α × Nat)) (t : Tbl α) (k : Nat)
    (h : ∀ e ∈ z, f e.2 ≠ k) : Tbl.look (z.foldl (fun t e => Tbl.put t (f e.2) e.1 d) t) k d = Tbl.look t k d := by
  induction z generalizing t with
  | nil => rfl
  | cons e z ih =>
    rw [List.foldl_cons, ih _ fun x hx => h x (List.mem_cons_of_mem _ hx)]
    exact Tbl.look_put_other _ _ _ _ _ (Ne.symm (h e List.mem_cons_self))

theorem Tbl.look_foldl_same {α : Type} [DecidableEq α] (f : Nat → Nat) (d : α) (z : List (α × Nat)) (t : Tbl α)
    (hw : Tbl.wf t d = true) (hz : z.Pairwise fun a b => f a.2 ≠ f b.2) (e : α × Nat) (he : e ∈ z) :
    Tbl.look (z.foldl (fun t e => Tbl.put t (f e.2) e.1 d) t) (f e.2) d = e.1 := by
  induction z generalizing t with
  | nil => cases he
  | cons x z ih =>
    rw [List.pairwise_cons] at hz
    rcases List.mem_cons.mp he with rfl | he
    · rw [List.foldl_cons, Tbl.look_foldl_other f d z _ _ fun y hy => Ne.symm (hz.1 y hy)]
      exact Tbl.look_put_same _ _ _ _ hw
    · exact ih _ (Tbl.put_wf _ _ _ _ hw) hz.2 he

/-- Words written from place F of a ring of 65,536 words lie at different places. -/
theorem zipIdx_apart {α : Type} (F : Nat) (l : List α) : ∀ n, n + l.length ≤ 65536 →
    (l.zipIdx n).Pairwise fun a b => (F + a.2) % 65536 ≠ (F + b.2) % 65536 := by
  induction l with
  | nil => intro n _; exact .nil
  | cons _ l ih =>
    intro n hn
    rw [List.length_cons] at hn
    rw [List.zipIdx_cons]
    refine .cons (fun y hy => ?_) (ih (n + 1) (by omega))
    have low := List.le_snd_of_mem_zipIdx hy
    have high := List.snd_lt_add_of_mem_zipIdx hy
    simp only [ne_eq]
    omega

theorem be_four (n : Nat) : be 4 n = [by8 (n / 2 ^ 24), by8 (n / 2 ^ 16), by8 (n / 2 ^ 8), by8 n] := by
  simp [be, le, List.range, List.range.loop]

theorem be_len (n : Nat) : (be 4 n).length = 4 := by simp [be, le]

theorem wordsBe_len (l : List Word) : (wordsBe l).length = 4 * l.length := by
  induction l with
  | nil => rfl
  | cons x l ih => rw [show wordsBe (x :: l) = be 4 x.toNat ++ wordsBe l from rfl, List.length_append, ih, be_len, List.length_cons]; omega

theorem ofBe_be (x : Word) : wd (ofBe (be 4 x.toNat)) = x := by
  have := x.isLt
  apply BitVec.eq_of_toNat_eq
  simp only [be_four, ofBe, List.foldl_cons, List.foldl_nil, by8, BitVec.toNat_ofNat, wd]
  omega

theorem toWordsBe_wordsBe (l : List Word) : toWordsBe l.length (wordsBe l) = l := by
  induction l with
  | nil => rfl
  | cons x l ih =>
    have e : wordsBe (x :: l) = be 4 x.toNat ++ wordsBe l := rfl
    have h4 := be_len x.toNat
    rw [List.length_cons, e]
    cases hb : be 4 x.toNat ++ wordsBe l with
    | nil => have := congrArg List.length hb; simp [h4] at this
    | cons y r =>
      rw [toWordsBe, ← hb, List.take_append_of_le_length (by omega), List.drop_append_of_le_length (by omega),
        List.take_of_length_le (by omega), List.drop_of_length_le (by omega), List.nil_append, ih, ofBe_be]
      simp

theorem ringStore_snoc (t : Tbl Word) (n F : Nat) (l : List Word) (x : Word) :
    ringStore t n F (l ++ [x]) = (ringStore t n F l).put ((F + l.length) % n) x 0 := by
  simp [ringStore, List.zipIdx_append]

theorem ringStore_look (t : Tbl Word) (F : Nat) (l : List Word) (hw : Tbl.wf t 0 = true) (hl : l.length ≤ 65536) (i : Nat) (hi : i < l.length) :
    (ringStore t 65536 F l).look ((F + i) % 65536) 0 = l[i] :=
  Tbl.look_foldl_same (fun k => (F + k) % 65536) 0 l.zipIdx t hw
    (zipIdx_apart F l 0 (by omega)) (l[i], i) (by simp [List.mem_zipIdx_iff_getElem?, hi])

theorem fillWords_packet (f : Fifo) (l : List Word) (hw : Tbl.wf f.ring 0 = true) (hf : f.front < 65536) (hh : f.head = f.front)
    (h5 : 5 ≤ l.length) (hn : l.length ≤ 4096) (hm : bits (prm l 0) 31 16 = 0x474D) (hl : bits (prm l 2) 31 16 = l.length) :
    ∀ pre r, l = pre ++ r → r ≠ [] →
      fillWords r { f with ring := ringStore f.ring 65536 f.front pre, front := (f.front + pre.length) % 65536, used := f.used + pre.length } =
        ({ f with
            ring := ringStore f.ring 65536 f.front l, front := (f.front + l.length) % 65536, used := f.used + l.length
            head := (f.front + l.length) % 65536, count := f.count + 1 }, none) := by
  intro pre r
  induction r generalizing pre with
  | nil => intro _ h; exact absurd rfl h
  | cons x r ih =>
    intro e _
    have el : l.length = pre.length + (r.length + 1) := by rw [e]; simp
    have e' : l = (pre ++ [x]) ++ r := by rw [e]; simp
    have ep : (pre ++ [x]).length = pre.length + 1 := by simp
    rw [fillWords]
    have hfil : ((f.front + pre.length) % 65536 + 1) % 65536 = (f.front + (pre.length + 1)) % 65536 := by omega
    have hcnt : ((f.front + (pre.length + 1)) % 65536 + 65536 - f.head) % 65536 = pre.length + 1 := by omega
    simp only [← ringStore_snoc, hfil, filling, hcnt, ringWord]
    have h0 : pre.length + 1 = 1 → bits x.toNat 31 16 = 0x474D := by
      intro hp
      have : pre = [] := by cases pre with | nil => rfl | cons => simp at hp
      rw [this] at e; rw [← hm, e]; rfl
    have h2 : 3 ≤ pre.length + 1 → bits ((ringStore f.ring 65536 f.front (pre ++ [x])).look ((f.head + 2) % 65536) 0).toNat 31 16 = l.length := by
      intro h3
      rw [hh, ringStore_look _ _ _ hw (by omega) 2 (by omega), ← hl]
      congr 1
      rw [prm, List.getD_eq_getElem?_getD, e', List.getElem?_append_left (by omega), List.getElem?_eq_getElem (by omega)]; rfl
    generalize hL : bits ((ringStore f.ring 65536 f.front (pre ++ [x])).look ((f.head + 2) % 65536) 0).toNat 31 16 = L at h2
    rw [if_neg (by simp only [Bool.and_eq_true, beq_iff_eq, bne_iff_ne, not_and, Decidable.not_not, decide_eq_true_eq]; exact h0),
      if_neg (by
        simp only [Bool.and_eq_true, Bool.or_eq_true, beq_iff_eq, decide_eq_true_eq, not_and]
        intro h3; have := h2 (by omega); omega)]
    by_cases hr : r = []
    · subst hr
      have : L = l.length := h2 (by simp at el; omega)
      rw [if_pos (by simp at el; simp; omega), fillWords]
      simp at el
      simp [e, ← hL, el, Nat.add_assoc]
    · have : 0 < r.length := List.length_pos_iff.mpr hr
      rw [if_neg (by simp only [Bool.and_eq_true, beq_iff_eq, decide_eq_true_eq, not_and]; intro h3; have := h2 h3; omega)]
      have := ih (pre ++ [x]) e' hr
      simp only [ep] at this
      rw [← this]
      simp [Nat.add_assoc]

theorem take_all (s : State) (f : Fifo) (l : List Word) (hw : Tbl.wf s.fifo.ring 0 = true) (hF : f.rd < 65536) (h5 : 5 ≤ l.length) (hn : l.length ≤ 4096)
    (hl : bits (prm l 2) 31 16 = l.length) (hr : f.ring = ringStore s.fifo.ring 65536 f.rd l) :
    takePacket { s with fifo := f } =
      ({ s with fifo := { f with rd := (f.rd + l.length) % 65536, used := f.used - l.length, count := f.count - 1 } }, l) := by
  have h2 : ringWord f (f.rd + 2) = prm l 2 := by
    rw [ringWord, hr, ringStore_look _ _ _ hw (by omega) 2 (by omega), prm, List.getD_eq_getElem?_getD, List.getElem?_eq_getElem (by omega)]; rfl
  simp only [takePacket, h2, hl]
  congr 1
  refine List.ext_getElem (by simp) fun i h1 h2 => ?_
  simp only [List.getElem_map, List.getElem_range]
  rw [hr, ringStore_look _ _ _ hw (by omega) i h2]

end Sys2Proof.Machine
end

