-- ==== Sys2Proof/Laws/PerInstr.lean ====
section
/-! SUPPORT. Per instruction: a command's constructor is the one its opcode, header and words name, its opcode has 16 bits, and its
operands are in their ranges where the command is well formed. -/

namespace Sys2Proof.Laws.Command

open Sys2Proof Sys2Proof.Machine

/-- What holds of each command as syntax (R282, R306); an event is no command. -/
def Statement (i : Instr) : Prop :=
  ∀ op h w, i.command = some (op, h, w) → commandOf op h w = some i ∧ op < 65536 ∧ (i.wf = true → cmdWf h w = true)

theorem idQuery (h : CmdHdr) (w : List Word) : Statement (.idQuery h w) :=
  fun _ _ _ e => ⟨commandOf_command e, command_op e, by cases e; exact id⟩
theorem echo (h : CmdHdr) (w : List Word) : Statement (.echo h w) :=
  fun _ _ _ e => ⟨commandOf_command e, command_op e, by cases e; exact id⟩
theorem clockQuery (h : CmdHdr) (w : List Word) : Statement (.clockQuery h w) :=
  fun _ _ _ e => ⟨commandOf_command e, command_op e, by cases e; exact id⟩
theorem reedTrim (h : CmdHdr) (w : List Word) : Statement (.reedTrim h w) :=
  fun _ _ _ e => ⟨commandOf_command e, command_op e, by cases e; exact id⟩
theorem clkoutSet (h : CmdHdr) (w : List Word) : Statement (.clkoutSet h w) :=
  fun _ _ _ e => ⟨commandOf_command e, command_op e, by cases e; exact id⟩
theorem parkSet (h : CmdHdr) (w : List Word) : Statement (.parkSet h w) :=
  fun _ _ _ e => ⟨commandOf_command e, command_op e, by cases e; exact id⟩
theorem resetIssue (h : CmdHdr) (w : List Word) : Statement (.resetIssue h w) :=
  fun _ _ _ e => ⟨commandOf_command e, command_op e, by cases e; exact id⟩
theorem standbyEnter (h : CmdHdr) (w : List Word) : Statement (.standbyEnter h w) :=
  fun _ _ _ e => ⟨commandOf_command e, command_op e, by cases e; exact id⟩
theorem portQuery (h : CmdHdr) (w : List Word) : Statement (.portQuery h w) :=
  fun _ _ _ e => ⟨commandOf_command e, command_op e, by cases e; exact id⟩
theorem portSet (h : CmdHdr) (w : List Word) : Statement (.portSet h w) :=
  fun _ _ _ e => ⟨commandOf_command e, command_op e, by cases e; exact id⟩
theorem portSleep (h : CmdHdr) (w : List Word) : Statement (.portSleep h w) :=
  fun _ _ _ e => ⟨commandOf_command e, command_op e, by cases e; exact id⟩
theorem portWake (h : CmdHdr) (w : List Word) : Statement (.portWake h w) :=
  fun _ _ _ e => ⟨commandOf_command e, command_op e, by cases e; exact id⟩
theorem laneSet (h : CmdHdr) (w : List Word) : Statement (.laneSet h w) :=
  fun _ _ _ e => ⟨commandOf_command e, command_op e, by cases e; exact id⟩
theorem laneRecal (h : CmdHdr) (w : List Word) : Statement (.laneRecal h w) :=
  fun _ _ _ e => ⟨commandOf_command e, command_op e, by cases e; exact id⟩
theorem portCountRead (h : CmdHdr) (w : List Word) : Statement (.portCountRead h w) :=
  fun _ _ _ e => ⟨commandOf_command e, command_op e, by cases e; exact id⟩
theorem portReset (h : CmdHdr) (w : List Word) : Statement (.portReset h w) :=
  fun _ _ _ e => ⟨commandOf_command e, command_op e, by cases e; exact id⟩
theorem timeQuery (h : CmdHdr) (w : List Word) : Statement (.timeQuery h w) :=
  fun _ _ _ e => ⟨commandOf_command e, command_op e, by cases e; exact id⟩
theorem timeSourceSet (h : CmdHdr) (w : List Word) : Statement (.timeSourceSet h w) :=
  fun _ _ _ e => ⟨commandOf_command e, command_op e, by cases e; exact id⟩
theorem timeStepPermit (h : CmdHdr) (w : List Word) : Statement (.timeStepPermit h w) :=
  fun _ _ _ e => ⟨commandOf_command e, command_op e, by cases e; exact id⟩
theorem timeRateSet (h : CmdHdr) (w : List Word) : Statement (.timeRateSet h w) :=
  fun _ _ _ e => ⟨commandOf_command e, command_op e, by cases e; exact id⟩
theorem timeLinkSet (h : CmdHdr) (w : List Word) : Statement (.timeLinkSet h w) :=
  fun _ _ _ e => ⟨commandOf_command e, command_op e, by cases e; exact id⟩
theorem timePortSet (h : CmdHdr) (w : List Word) : Statement (.timePortSet h w) :=
  fun _ _ _ e => ⟨commandOf_command e, command_op e, by cases e; exact id⟩
theorem pulseSet (h : CmdHdr) (w : List Word) : Statement (.pulseSet h w) :=
  fun _ _ _ e => ⟨commandOf_command e, command_op e, by cases e; exact id⟩
theorem pulseStop (h : CmdHdr) (w : List Word) : Statement (.pulseStop h w) :=
  fun _ _ _ e => ⟨commandOf_command e, command_op e, by cases e; exact id⟩
theorem pinRouteSet (h : CmdHdr) (w : List Word) : Statement (.pinRouteSet h w) :=
  fun _ _ _ e => ⟨commandOf_command e, command_op e, by cases e; exact id⟩
theorem captureSet (h : CmdHdr) (w : List Word) : Statement (.captureSet h w) :=
  fun _ _ _ e => ⟨commandOf_command e, command_op e, by cases e; exact id⟩
theorem tsringSet (h : CmdHdr) (w : List Word) : Statement (.tsringSet h w) :=
  fun _ _ _ e => ⟨commandOf_command e, command_op e, by cases e; exact id⟩
theorem valveQuery (h : CmdHdr) (w : List Word) : Statement (.valveQuery h w) :=
  fun _ _ _ e => ⟨commandOf_command e, command_op e, by cases e; exact id⟩
theorem valveSet (h : CmdHdr) (w : List Word) : Statement (.valveSet h w) :=
  fun _ _ _ e => ⟨commandOf_command e, command_op e, by cases e; exact id⟩
theorem valveWrite (h : CmdHdr) (w : List Word) : Statement (.valveWrite h w) :=
  fun _ _ _ e => ⟨commandOf_command e, command_op e, by cases e; exact id⟩
theorem valveRead (h : CmdHdr) (w : List Word) : Statement (.valveRead h w) :=
  fun _ _ _ e => ⟨commandOf_command e, command_op e, by cases e; exact id⟩
theorem valveStart (h : CmdHdr) (w : List Word) : Statement (.valveStart h w) :=
  fun _ _ _ e => ⟨commandOf_command e, command_op e, by cases e; exact id⟩
theorem valveSwap (h : CmdHdr) (w : List Word) : Statement (.valveSwap h w) :=
  fun _ _ _ e => ⟨commandOf_command e, command_op e, by cases e; exact id⟩
theorem valveStop (h : CmdHdr) (w : List Word) : Statement (.valveStop h w) :=
  fun _ _ _ e => ⟨commandOf_command e, command_op e, by cases e; exact id⟩
theorem preemptSet (h : CmdHdr) (w : List Word) : Statement (.preemptSet h w) :=
  fun _ _ _ e => ⟨commandOf_command e, command_op e, by cases e; exact id⟩
theorem preemptQuery (h : CmdHdr) (w : List Word) : Statement (.preemptQuery h w) :=
  fun _ _ _ e => ⟨commandOf_command e, command_op e, by cases e; exact id⟩
theorem courseQuery (h : CmdHdr) (w : List Word) : Statement (.courseQuery h w) :=
  fun _ _ _ e => ⟨commandOf_command e, command_op e, by cases e; exact id⟩
theorem courseSet (h : CmdHdr) (w : List Word) : Statement (.courseSet h w) :=
  fun _ _ _ e => ⟨commandOf_command e, command_op e, by cases e; exact id⟩
theorem bondWrite (h : CmdHdr) (w : List Word) : Statement (.bondWrite h w) :=
  fun _ _ _ e => ⟨commandOf_command e, command_op e, by cases e; exact id⟩
theorem frameSet (h : CmdHdr) (w : List Word) : Statement (.frameSet h w) :=
  fun _ _ _ e => ⟨commandOf_command e, command_op e, by cases e; exact id⟩
theorem safeImageWrite (h : CmdHdr) (w : List Word) : Statement (.safeImageWrite h w) :=
  fun _ _ _ e => ⟨commandOf_command e, command_op e, by cases e; exact id⟩
theorem courseStart (h : CmdHdr) (w : List Word) : Statement (.courseStart h w) :=
  fun _ _ _ e => ⟨commandOf_command e, command_op e, by cases e; exact id⟩
theorem courseSwap (h : CmdHdr) (w : List Word) : Statement (.courseSwap h w) :=
  fun _ _ _ e => ⟨commandOf_command e, command_op e, by cases e; exact id⟩
theorem courseSafe (h : CmdHdr) (w : List Word) : Statement (.courseSafe h w) :=
  fun _ _ _ e => ⟨commandOf_command e, command_op e, by cases e; exact id⟩
theorem courseResume (h : CmdHdr) (w : List Word) : Statement (.courseResume h w) :=
  fun _ _ _ e => ⟨commandOf_command e, command_op e, by cases e; exact id⟩
theorem courseStop (h : CmdHdr) (w : List Word) : Statement (.courseStop h w) :=
  fun _ _ _ e => ⟨commandOf_command e, command_op e, by cases e; exact id⟩
theorem courseLineSet (h : CmdHdr) (w : List Word) : Statement (.courseLineSet h w) :=
  fun _ _ _ e => ⟨commandOf_command e, command_op e, by cases e; exact id⟩
theorem axisQuery (h : CmdHdr) (w : List Word) : Statement (.axisQuery h w) :=
  fun _ _ _ e => ⟨commandOf_command e, command_op e, by cases e; exact id⟩
theorem axisSet (h : CmdHdr) (w : List Word) : Statement (.axisSet h w) :=
  fun _ _ _ e => ⟨commandOf_command e, command_op e, by cases e; exact id⟩
theorem reflexSet (h : CmdHdr) (w : List Word) : Statement (.reflexSet h w) :=
  fun _ _ _ e => ⟨commandOf_command e, command_op e, by cases e; exact id⟩
theorem reflexArm (h : CmdHdr) (w : List Word) : Statement (.reflexArm h w) :=
  fun _ _ _ e => ⟨commandOf_command e, command_op e, by cases e; exact id⟩
theorem axisStart (h : CmdHdr) (w : List Word) : Statement (.axisStart h w) :=
  fun _ _ _ e => ⟨commandOf_command e, command_op e, by cases e; exact id⟩
theorem axisQstop (h : CmdHdr) (w : List Word) : Statement (.axisQstop h w) :=
  fun _ _ _ e => ⟨commandOf_command e, command_op e, by cases e; exact id⟩
theorem axisOff (h : CmdHdr) (w : List Word) : Statement (.axisOff h w) :=
  fun _ _ _ e => ⟨commandOf_command e, command_op e, by cases e; exact id⟩
theorem segWrite (h : CmdHdr) (w : List Word) : Statement (.segWrite h w) :=
  fun _ _ _ e => ⟨commandOf_command e, command_op e, by cases e; exact id⟩
theorem digestQuery (h : CmdHdr) (w : List Word) : Statement (.digestQuery h w) :=
  fun _ _ _ e => ⟨commandOf_command e, command_op e, by cases e; exact id⟩
theorem flowQuery (h : CmdHdr) (w : List Word) : Statement (.flowQuery h w) :=
  fun _ _ _ e => ⟨commandOf_command e, command_op e, by cases e; exact id⟩
theorem flowAdd (h : CmdHdr) (w : List Word) : Statement (.flowAdd h w) :=
  fun _ _ _ e => ⟨commandOf_command e, command_op e, by cases e; exact id⟩
theorem flowWrite (h : CmdHdr) (w : List Word) : Statement (.flowWrite h w) :=
  fun _ _ _ e => ⟨commandOf_command e, command_op e, by cases e; exact id⟩
theorem flowDelete (h : CmdHdr) (w : List Word) : Statement (.flowDelete h w) :=
  fun _ _ _ e => ⟨commandOf_command e, command_op e, by cases e; exact id⟩
theorem flowPortSet (h : CmdHdr) (w : List Word) : Statement (.flowPortSet h w) :=
  fun _ _ _ e => ⟨commandOf_command e, command_op e, by cases e; exact id⟩
theorem flowLatentSet (h : CmdHdr) (w : List Word) : Statement (.flowLatentSet h w) :=
  fun _ _ _ e => ⟨commandOf_command e, command_op e, by cases e; exact id⟩
theorem flowRecovReset (h : CmdHdr) (w : List Word) : Statement (.flowRecovReset h w) :=
  fun _ _ _ e => ⟨commandOf_command e, command_op e, by cases e; exact id⟩
theorem flowCountRead (h : CmdHdr) (w : List Word) : Statement (.flowCountRead h w) :=
  fun _ _ _ e => ⟨commandOf_command e, command_op e, by cases e; exact id⟩
theorem flowTableQuery (h : CmdHdr) (w : List Word) : Statement (.flowTableQuery h w) :=
  fun _ _ _ e => ⟨commandOf_command e, command_op e, by cases e; exact id⟩
theorem queueQuery (h : CmdHdr) (w : List Word) : Statement (.queueQuery h w) :=
  fun _ _ _ e => ⟨commandOf_command e, command_op e, by cases e; exact id⟩
theorem queueWrite (h : CmdHdr) (w : List Word) : Statement (.queueWrite h w) :=
  fun _ _ _ e => ⟨commandOf_command e, command_op e, by cases e; exact id⟩
theorem queueFlush (h : CmdHdr) (w : List Word) : Statement (.queueFlush h w) :=
  fun _ _ _ e => ⟨commandOf_command e, command_op e, by cases e; exact id⟩
theorem serviceSet (h : CmdHdr) (w : List Word) : Statement (.serviceSet h w) :=
  fun _ _ _ e => ⟨commandOf_command e, command_op e, by cases e; exact id⟩
theorem portShapeSet (h : CmdHdr) (w : List Word) : Statement (.portShapeSet h w) :=
  fun _ _ _ e => ⟨commandOf_command e, command_op e, by cases e; exact id⟩
theorem bufferSet (h : CmdHdr) (w : List Word) : Statement (.bufferSet h w) :=
  fun _ _ _ e => ⟨commandOf_command e, command_op e, by cases e; exact id⟩
theorem ingressSet (h : CmdHdr) (w : List Word) : Statement (.ingressSet h w) :=
  fun _ _ _ e => ⟨commandOf_command e, command_op e, by cases e; exact id⟩
theorem bufferQuery (h : CmdHdr) (w : List Word) : Statement (.bufferQuery h w) :=
  fun _ _ _ e => ⟨commandOf_command e, command_op e, by cases e; exact id⟩
theorem twinQuery (h : CmdHdr) (w : List Word) : Statement (.twinQuery h w) :=
  fun _ _ _ e => ⟨commandOf_command e, command_op e, by cases e; exact id⟩
theorem twinSet (h : CmdHdr) (w : List Word) : Statement (.twinSet h w) :=
  fun _ _ _ e => ⟨commandOf_command e, command_op e, by cases e; exact id⟩
theorem twinLead (h : CmdHdr) (w : List Word) : Statement (.twinLead h w) :=
  fun _ _ _ e => ⟨commandOf_command e, command_op e, by cases e; exact id⟩
theorem twinFollow (h : CmdHdr) (w : List Word) : Statement (.twinFollow h w) :=
  fun _ _ _ e => ⟨commandOf_command e, command_op e, by cases e; exact id⟩
theorem twinHandover (h : CmdHdr) (w : List Word) : Statement (.twinHandover h w) :=
  fun _ _ _ e => ⟨commandOf_command e, command_op e, by cases e; exact id⟩
theorem twinSync (h : CmdHdr) (w : List Word) : Statement (.twinSync h w) :=
  fun _ _ _ e => ⟨commandOf_command e, command_op e, by cases e; exact id⟩
theorem twinOff (h : CmdHdr) (w : List Word) : Statement (.twinOff h w) :=
  fun _ _ _ e => ⟨commandOf_command e, command_op e, by cases e; exact id⟩
theorem faultQuery (h : CmdHdr) (w : List Word) : Statement (.faultQuery h w) :=
  fun _ _ _ e => ⟨commandOf_command e, command_op e, by cases e; exact id⟩
theorem faultSet (h : CmdHdr) (w : List Word) : Statement (.faultSet h w) :=
  fun _ _ _ e => ⟨commandOf_command e, command_op e, by cases e; exact id⟩
theorem faultClear (h : CmdHdr) (w : List Word) : Statement (.faultClear h w) :=
  fun _ _ _ e => ⟨commandOf_command e, command_op e, by cases e; exact id⟩
theorem faultnSet (h : CmdHdr) (w : List Word) : Statement (.faultnSet h w) :=
  fun _ _ _ e => ⟨commandOf_command e, command_op e, by cases e; exact id⟩
theorem lsoSet (h : CmdHdr) (w : List Word) : Statement (.lsoSet h w) :=
  fun _ _ _ e => ⟨commandOf_command e, command_op e, by cases e; exact id⟩
theorem secQuery (h : CmdHdr) (w : List Word) : Statement (.secQuery h w) :=
  fun _ _ _ e => ⟨commandOf_command e, command_op e, by cases e; exact id⟩
theorem imageStage (h : CmdHdr) (w : List Word) : Statement (.imageStage h w) :=
  fun _ _ _ e => ⟨commandOf_command e, command_op e, by cases e; exact id⟩
theorem imageVerify (h : CmdHdr) (w : List Word) : Statement (.imageVerify h w) :=
  fun _ _ _ e => ⟨commandOf_command e, command_op e, by cases e; exact id⟩
theorem imageActivate (h : CmdHdr) (w : List Word) : Statement (.imageActivate h w) :=
  fun _ _ _ e => ⟨commandOf_command e, command_op e, by cases e; exact id⟩
theorem attest (h : CmdHdr) (w : List Word) : Statement (.attest h w) :=
  fun _ _ _ e => ⟨commandOf_command e, command_op e, by cases e; exact id⟩
theorem rollbackAdvance (h : CmdHdr) (w : List Word) : Statement (.rollbackAdvance h w) :=
  fun _ _ _ e => ⟨commandOf_command e, command_op e, by cases e; exact id⟩
theorem traceSet (h : CmdHdr) (w : List Word) : Statement (.traceSet h w) :=
  fun _ _ _ e => ⟨commandOf_command e, command_op e, by cases e; exact id⟩
theorem traceQuery (h : CmdHdr) (w : List Word) : Statement (.traceQuery h w) :=
  fun _ _ _ e => ⟨commandOf_command e, command_op e, by cases e; exact id⟩
theorem archiveSet (h : CmdHdr) (w : List Word) : Statement (.archiveSet h w) :=
  fun _ _ _ e => ⟨commandOf_command e, command_op e, by cases e; exact id⟩
theorem archiveQuery (h : CmdHdr) (w : List Word) : Statement (.archiveQuery h w) :=
  fun _ _ _ e => ⟨commandOf_command e, command_op e, by cases e; exact id⟩
theorem sysQuery (h : CmdHdr) (w : List Word) : Statement (.sysQuery h w) :=
  fun _ _ _ e => ⟨commandOf_command e, command_op e, by cases e; exact id⟩
theorem sysSet (h : CmdHdr) (w : List Word) : Statement (.sysSet h w) :=
  fun _ _ _ e => ⟨commandOf_command e, command_op e, by cases e; exact id⟩
theorem sysRouteSet (h : CmdHdr) (w : List Word) : Statement (.sysRouteSet h w) :=
  fun _ _ _ e => ⟨commandOf_command e, command_op e, by cases e; exact id⟩
theorem sysRootReturn (h : CmdHdr) (w : List Word) : Statement (.sysRootReturn h w) :=
  fun _ _ _ e => ⟨commandOf_command e, command_op e, by cases e; exact id⟩
theorem hyithQuery (h : CmdHdr) (w : List Word) : Statement (.hyithQuery h w) :=
  fun _ _ _ e => ⟨commandOf_command e, command_op e, by cases e; exact id⟩
theorem txnOpen (h : CmdHdr) (w : List Word) : Statement (.txnOpen h w) :=
  fun _ _ _ e => ⟨commandOf_command e, command_op e, by cases e; exact id⟩
theorem txnCommit (h : CmdHdr) (w : List Word) : Statement (.txnCommit h w) :=
  fun _ _ _ e => ⟨commandOf_command e, command_op e, by cases e; exact id⟩
theorem txnAbort (h : CmdHdr) (w : List Word) : Statement (.txnAbort h w) :=
  fun _ _ _ e => ⟨commandOf_command e, command_op e, by cases e; exact id⟩
theorem txnQuery (h : CmdHdr) (w : List Word) : Statement (.txnQuery h w) :=
  fun _ _ _ e => ⟨commandOf_command e, command_op e, by cases e; exact id⟩
theorem txnCommitApply (txid : Nat) : Statement (.txnCommitApply txid) := fun _ _ _ e => nomatch e
theorem txnRollback (txid : Nat) : Statement (.txnRollback txid) := fun _ _ _ e => nomatch e
theorem txnExpired (txid : Nat) : Statement (.txnExpired txid) := fun _ _ _ e => nomatch e
theorem cmdFifoWrite (ofs : Nat) (data : List Word) (whole : Bool) (poisoned : Bool) : Statement (.cmdFifoWrite ofs data whole poisoned) :=
  fun _ _ _ e => nomatch e
theorem cmdFifoWriteMode1 (ofs : Nat) (data : List (Option Byte)) (poisoned : Bool) : Statement (.cmdFifoWriteMode1 ofs data poisoned) :=
  fun _ _ _ e => nomatch e
theorem cmdAbort : Statement .cmdAbort := fun _ _ _ e => nomatch e
theorem fifoModeWrite (mode : Bool) : Statement (.fifoModeWrite mode) := fun _ _ _ e => nomatch e
theorem rplRdWrite (v : BitVec 16) : Statement (.rplRdWrite v) := fun _ _ _ e => nomatch e
theorem evtRdWrite (v : BitVec 14) : Statement (.evtRdWrite v) := fun _ _ _ e => nomatch e
theorem commandTake (sel : PathSel) (parityBad : Bool) : Statement (.commandTake sel parityBad) := fun _ _ _ e => nomatch e
theorem hyithCommandSend (u : Nat) : Statement (.hyithCommandSend u) := fun _ _ _ e => nomatch e
theorem creditReceive (u : Nat) (blk : List Byte) : Statement (.creditReceive u blk) := fun _ _ _ e => nomatch e
theorem registerWrite (addr : Nat) (v : Word) (be : BitVec 4) : Statement (.registerWrite addr v be) := fun _ _ _ e => nomatch e
theorem nowNsRead : Statement .nowNsRead := fun _ _ _ e => nomatch e
theorem capNsRead (c : Nat) : Statement (.capNsRead c) := fun _ _ _ e => nomatch e
theorem digestLoRead (r : Nat) : Statement (.digestLoRead r) := fun _ _ _ e => nomatch e
theorem counterLoRead (addr : Nat) : Statement (.counterLoRead addr) := fun _ _ _ e => nomatch e
theorem rcRead (addr : Nat) : Statement (.rcRead addr) := fun _ _ _ e => nomatch e
theorem tsTailWrite (p : Nat) (v : BitVec 7) : Statement (.tsTailWrite p v) := fun _ _ _ e => nomatch e
theorem segPutDb (r : Nat) (v : Word) : Statement (.segPutDb r v) := fun _ _ _ e => nomatch e
theorem stagingWrite (ofs : Nat) (data : List Word) (whole : Bool) : Statement (.stagingWrite ofs data whole) :=
  fun _ _ _ e => nomatch e
theorem faultStickyW1c (loc : FaultLoc) (v : Word) : Statement (.faultStickyW1c loc v) := fun _ _ _ e => nomatch e
theorem faultnRelease : Statement .faultnRelease := fun _ _ _ e => nomatch e
theorem lsoDriveWrite (v : BitVec 8) : Statement (.lsoDriveWrite v) := fun _ _ _ e => nomatch e
theorem clkoutWrite (v : Word) : Statement (.clkoutWrite v) := fun _ _ _ e => nomatch e
theorem returnWrite : Statement .returnWrite := fun _ _ _ e => nomatch e
theorem wakeWrite : Statement .wakeWrite := fun _ _ _ e => nomatch e
theorem bootGo : Statement .bootGo := fun _ _ _ e => nomatch e
theorem moverSetWrite (m : Nat) (ofs : Nat) (v : Word) : Statement (.moverSetWrite m ofs v) := fun _ _ _ e => nomatch e
theorem moverGo (m : Nat) (ctrl : Word) : Statement (.moverGo m ctrl) := fun _ _ _ e => nomatch e
theorem moverAbort (m : Nat) : Statement (.moverAbort m) := fun _ _ _ e => nomatch e
theorem moverClear (m : Nat) : Statement (.moverClear m) := fun _ _ _ e => nomatch e
theorem ringCfgWrite (d : Nat) (r : Nat) (ofs : Nat) (v : Word) : Statement (.ringCfgWrite d r ofs v) := fun _ _ _ e => nomatch e
theorem crRdWrite (d : Nat) (r : Nat) (v : BitVec 17) : Statement (.crRdWrite d r v) := fun _ _ _ e => nomatch e
theorem moverBurstIssue (d : Nat) : Statement (.moverBurstIssue d) := fun _ _ _ e => nomatch e
theorem moverBurstComplete (m : Nat) (ok : Bool) (data : List Byte) : Statement (.moverBurstComplete m ok data) :=
  fun _ _ _ e => nomatch e
theorem moverListFetch (m : Nat) (dst : Bool) (ok : Bool) (entry : List Word) : Statement (.moverListFetch m dst ok entry) :=
  fun _ _ _ e => nomatch e
theorem moverRecordWrite (m : Nat) : Statement (.moverRecordWrite m) := fun _ _ _ e => nomatch e
theorem moverHandover (m : Nat) : Statement (.moverHandover m) := fun _ _ _ e => nomatch e
theorem timeWordSend (u : Nat) : Statement (.timeWordSend u) := fun _ _ _ e => nomatch e
theorem timeWordReceive (u : Nat) (blk : List Byte) (t16 : Nat) : Statement (.timeWordReceive u blk t16) :=
  fun _ _ _ e => nomatch e
theorem echoReceive (u : Nat) (blk : List Byte) : Statement (.echoReceive u blk) := fun _ _ _ e => nomatch e
theorem epochReceive (u : Nat) (blk : List Byte) : Statement (.epochReceive u blk) := fun _ _ _ e => nomatch e
theorem markReceive (u : Nat) (blk : List Byte) (reedEdges : Nat) : Statement (.markReceive u blk reedEdges) :=
  fun _ _ _ e => nomatch e
theorem rootReceive (u : Nat) (blk : List Byte) : Statement (.rootReceive u blk) := fun _ _ _ e => nomatch e
theorem offsetSample (ext : Int) (utc : Option (BitVec 16)) : Statement (.offsetSample ext utc) := fun _ _ _ e => nomatch e
theorem deferredStepApply : Statement .deferredStepApply := fun _ _ _ e => nomatch e
theorem holdover : Statement .holdover := fun _ _ _ e => nomatch e
theorem captureEdge (c : Nat) (falling : Bool) (t16 : Nat) : Statement (.captureEdge c falling t16) := fun _ _ _ e => nomatch e
theorem pulseEdge (u : Nat) : Statement (.pulseEdge u) := fun _ _ _ e => nomatch e
theorem lineBaseBoundary (n : Nat) : Statement (.lineBaseBoundary n) := fun _ _ _ e => nomatch e
theorem snapshotPublish (n : Nat) : Statement (.snapshotPublish n) := fun _ _ _ e => nomatch e
theorem digestPublish (r : Nat) (n : Nat) : Statement (.digestPublish r n) := fun _ _ _ e => nomatch e
theorem courseBoundary (p : Nat) (n : Nat) : Statement (.courseBoundary p n) := fun _ _ _ e => nomatch e
theorem courseBuildStart (p : Nat) (f : Nat) (n : Nat) : Statement (.courseBuildStart p f n) := fun _ _ _ e => nomatch e
theorem courseLaunch (p : Nat) (f : Nat) (n : Nat) : Statement (.courseLaunch p f n) := fun _ _ _ e => nomatch e
theorem brickReceive (p : Nat) (j : Nat) : Statement (.brickReceive p j) := fun _ _ _ e => nomatch e
theorem reflexActionApply : Statement .reflexActionApply := fun _ _ _ e => nomatch e
theorem arrClose (p : Nat) (f : Nat) (n : Nat) : Statement (.arrClose p f n) := fun _ _ _ e => nomatch e
theorem axisDecisionInstant (a : Nat) (n : Nat) : Statement (.axisDecisionInstant a n) := fun _ _ _ e => nomatch e
theorem axisBoundary (a : Nat) (n : Nat) : Statement (.axisBoundary a n) := fun _ _ _ e => nomatch e
theorem segmentFetch (a : Nat) (ok : Bool) : Statement (.segmentFetch a ok) := fun _ _ _ e => nomatch e
theorem valveEntryBoundary (p : Nat) (k : Nat) (i : Nat) : Statement (.valveEntryBoundary p k i) := fun _ _ _ e => nomatch e
theorem valveSwapInstant (p : Nat) : Statement (.valveSwapInstant p) := fun _ _ _ e => nomatch e
theorem valveStopInstant (p : Nat) : Statement (.valveStopInstant p) := fun _ _ _ e => nomatch e
theorem verifyTimeout (p : Nat) : Statement (.verifyTimeout p) := fun _ _ _ e => nomatch e
theorem mpacketReceive (p : Nat) (t16 : Nat) (m : MPacket) : Statement (.mpacketReceive p t16 m) := fun _ _ _ e => nomatch e
theorem frameReceive (p : Nat) (t16 : Nat) (bytes : List Byte) (symErr : Bool) : Statement (.frameReceive p t16 bytes symErr) :=
  fun _ _ _ e => nomatch e
theorem cutThroughDecision (p : Nat) (t16 : Nat) (head : List Byte) : Statement (.cutThroughDecision p t16 head) :=
  fun _ _ _ e => nomatch e
theorem egressSelect (p : Nat) : Statement (.egressSelect p) := fun _ _ _ e => nomatch e
theorem frameTransmitEnd (p : Nat) : Statement (.frameTransmitEnd p) := fun _ _ _ e => nomatch e
theorem spillReadback (q : Nat) : Statement (.spillReadback q) := fun _ _ _ e => nomatch e
theorem sweepVisit (v : SweepTarget) : Statement (.sweepVisit v) := fun _ _ _ e => nomatch e
theorem sweepPassEnd (d : Nat) : Statement (.sweepPassEnd d) := fun _ _ _ e => nomatch e
theorem pauseReceive (p : Nat) : Statement (.pauseReceive p) := fun _ _ _ e => nomatch e
theorem pfcReceive (p : Nat) : Statement (.pfcReceive p) := fun _ _ _ e => nomatch e
theorem pauseTimerExpire (p : Nat) (c : Nat) : Statement (.pauseTimerExpire p c) := fun _ _ _ e => nomatch e
theorem pauseWd (p : Nat) (c : Nat) : Statement (.pauseWd p c) := fun _ _ _ e => nomatch e
theorem pauseRefresh (p : Nat) (c : Nat) : Statement (.pauseRefresh p c) := fun _ _ _ e => nomatch e
theorem linkStateChange (p : Nat) (up remote : Bool) : Statement (.linkStateChange p up remote) := fun _ _ _ e => nomatch e
theorem inBandControlWord (p : Nat) (speed : Nat) (fullDuplex : Bool) (link : Bool) : Statement (.inBandControlWord p speed fullDuplex link) :=
  fun _ _ _ e => nomatch e
theorem laneAlignLoss (q : Nat) : Statement (.laneAlignLoss q) := fun _ _ _ e => nomatch e
theorem recalDone (lane : Nat) (ok : Bool) : Statement (.recalDone lane ok) := fun _ _ _ e => nomatch e
theorem recalRetry (lane : Nat) : Statement (.recalRetry lane) := fun _ _ _ e => nomatch e
theorem pcsRestartDone (p : Nat) : Statement (.pcsRestartDone p) := fun _ _ _ e => nomatch e
theorem ddrAlert (d : Nat) (persists : Bool) : Statement (.ddrAlert d persists) := fun _ _ _ e => nomatch e
theorem ddrEventn (d : Nat) (low : Bool) : Statement (.ddrEventn d low) := fun _ _ _ e => nomatch e
theorem faultSourceFire (loc : FaultLoc) (src : Nat) (pair : Nat) (standing : Bool) : Statement (.faultSourceFire loc src pair standing) :=
  fun _ _ _ e => nomatch e
theorem faultWindowClose (loc : FaultLoc) (src : Nat) : Statement (.faultWindowClose loc src) := fun _ _ _ e => nomatch e
theorem quarantineSquelch (p : Nat) : Statement (.quarantineSquelch p) := fun _ _ _ e => nomatch e
theorem reactionRegionReset (r : Nat) : Statement (.reactionRegionReset r) := fun _ _ _ e => nomatch e
theorem faultnPulseEnd : Statement .faultnPulseEnd := fun _ _ _ e => nomatch e
theorem resetMaskEnd (k : ResetKind) : Statement (.resetMaskEnd k) := fun _ _ _ e => nomatch e
theorem clockTrip (clk : Nat) : Statement (.clockTrip clk) := fun _ _ _ e => nomatch e
theorem oscWaitEnd : Statement .oscWaitEnd := fun _ _ _ e => nomatch e
theorem pllLock : Statement .pllLock := fun _ _ _ e => nomatch e
theorem pllLockTimeout : Statement .pllLockTimeout := fun _ _ _ e => nomatch e
theorem rampStep : Statement .rampStep := fun _ _ _ e => nomatch e
theorem reedQual (q : Bool) : Statement (.reedQual q) := fun _ _ _ e => nomatch e
theorem refclkQualified : Statement .refclkQualified := fun _ _ _ e => nomatch e
theorem meterGateEnd (counts : List Nat) : Statement (.meterGateEnd counts) := fun _ _ _ e => nomatch e
theorem reedTrimRound (edges : Nat) : Statement (.reedTrimRound edges) := fun _ _ _ e => nomatch e
theorem por (oscDly : BitVec 3) (bootSrc : BitVec 2) : Statement (.por oscDly bootSrc) := fun _ _ _ e => nomatch e
theorem pinReset (low : Bool) (oscDly : BitVec 3) (bootSrc : BitVec 2) : Statement (.pinReset low oscDly bootSrc) :=
  fun _ _ _ e => nomatch e
theorem perstn (low : Bool) : Statement (.perstn low) := fun _ _ _ e => nomatch e
theorem resetBegin (k : ResetKind) : Statement (.resetBegin k) := fun _ _ _ e => nomatch e
theorem resetRelease (k : ResetKind) : Statement (.resetRelease k) := fun _ _ _ e => nomatch e
theorem controlHandover : Statement .controlHandover := fun _ _ _ e => nomatch e
theorem lockstepRejoin : Statement .lockstepRejoin := fun _ _ _ e => nomatch e
theorem coreMemoryError : Statement .coreMemoryError := fun _ _ _ e => nomatch e
theorem lockstepMismatch : Statement .lockstepMismatch := fun _ _ _ e => nomatch e
theorem gateHandshakeDone : Statement .gateHandshakeDone := fun _ _ _ e => nomatch e
theorem gateHandshakeTimeout : Statement .gateHandshakeTimeout := fun _ _ _ e => nomatch e
theorem unparkDone (k : ResetKind) : Statement (.unparkDone k) := fun _ _ _ e => nomatch e
theorem bootStart : Statement .bootStart := fun _ _ _ e => nomatch e
theorem imageLoadDone (slot0 : Option (List Byte)) (slot1 : Option (List Byte)) : Statement (.imageLoadDone slot0 slot1) :=
  fun _ _ _ e => nomatch e
theorem firmwareRunning : Statement .firmwareRunning := fun _ _ _ e => nomatch e
theorem stageDone (bytes : Option (List Byte)) : Statement (.stageDone bytes) := fun _ _ _ e => nomatch e
theorem verifyDone : Statement .verifyDone := fun _ _ _ e => nomatch e
theorem activationFlip : Statement .activationFlip := fun _ _ _ e => nomatch e
theorem activationResume : Statement .activationResume := fun _ _ _ e => nomatch e
theorem firmwareReady : Statement .firmwareReady := fun _ _ _ e => nomatch e
theorem fallback : Statement .fallback := fun _ _ _ e => nomatch e
theorem leadInEdge (t : Nat) : Statement (.leadInEdge t) := fun _ _ _ e => nomatch e
theorem claimDead : Statement .claimDead := fun _ _ _ e => nomatch e
theorem breathInEdge (t : Nat) : Statement (.breathInEdge t) := fun _ _ _ e => nomatch e
theorem breathWordReceive (u : Nat) (blk : List Byte) (t : Nat) : Statement (.breathWordReceive u blk t) :=
  fun _ _ _ e => nomatch e
theorem lone (m : Nat) : Statement (.lone m) := fun _ _ _ e => nomatch e
theorem twinFrameReceive (u : Nat) (t16 : Nat) (bytes : List Byte) : Statement (.twinFrameReceive u t16 bytes) :=
  fun _ _ _ e => nomatch e
theorem twinFrameSend (u : Nat) : Statement (.twinFrameSend u) := fun _ _ _ e => nomatch e
theorem brickRecordReceive : Statement .brickRecordReceive := fun _ _ _ e => nomatch e
theorem directRecordReceive : Statement .directRecordReceive := fun _ _ _ e => nomatch e
theorem commandRecordReceive : Statement .commandRecordReceive := fun _ _ _ e => nomatch e
theorem axsyncRecordReceive : Statement .axsyncRecordReceive := fun _ _ _ e => nomatch e
theorem digestBlockReceive (u : Nat) (blk : List Byte) : Statement (.digestBlockReceive u blk) := fun _ _ _ e => nomatch e
theorem digestDeadline (n : Nat) : Statement (.digestDeadline n) := fun _ _ _ e => nomatch e
theorem followerArrClose (p : Nat) (f : Nat) (n : Nat) : Statement (.followerArrClose p f n) := fun _ _ _ e => nomatch e
theorem handoverReceive (u : Nat) (blk : List Byte) : Statement (.handoverReceive u blk) := fun _ _ _ e => nomatch e
theorem handoverBoundary : Statement .handoverBoundary := fun _ _ _ e => nomatch e
theorem masterTimeout : Statement .masterTimeout := fun _ _ _ e => nomatch e
theorem traceRecordWrite (d : Nat) : Statement (.traceRecordWrite d) := fun _ _ _ e => nomatch e
theorem traceGap (d : Nat) : Statement (.traceGap d) := fun _ _ _ e => nomatch e
theorem bellRecordSend : Statement .bellRecordSend := fun _ _ _ e => nomatch e
theorem bellGap : Statement .bellGap := fun _ _ _ e => nomatch e
theorem archiveLatch : Statement .archiveLatch := fun _ _ _ e => nomatch e
theorem archiveRecordDone : Statement .archiveRecordDone := fun _ _ _ e => nomatch e
theorem tapInstruction (testEn : Bool) (i : TapInstr) : Statement (.tapInstruction testEn i) := fun _ _ _ e => nomatch e
theorem courseHoldStart (p : Nat) (f : Nat) (n : Nat) : Statement (.courseHoldStart p f n) := fun _ _ _ e => nomatch e
theorem forwardedCommandCommit : Statement .forwardedCommandCommit := fun _ _ _ e => nomatch e
theorem completerAbortRead (bar : Nat) (addr : Nat) (dwords : Nat) : Statement (.completerAbortRead bar addr dwords) :=
  fun _ _ _ e => nomatch e
theorem functionLevelReset (pf1 : Bool) : Statement (.functionLevelReset pf1) := fun _ _ _ e => nomatch e
theorem railRestored (loc : FaultLoc) (pair : Nat) : Statement (.railRestored loc pair) := fun _ _ _ e => nomatch e

end Sys2Proof.Laws.Command
end

