-- ==== Sys2Proof/Laws/State.lean ====
section
/-! SUPPORT. The fields of State after each basic update: every one but the field the update is for is as before. -/

namespace Sys2Proof.Machine

/-! setPort -/

@[simp] theorem setPort_time (s : State) (p : Nat) (v : Port) : (setPort s p v).time = s.time := rfl
@[simp] theorem setPort_line (s : State) (p : Nat) (v : Port) : (setPort s p v).line = s.line := rfl
@[simp] theorem setPort_pulse (s : State) (p : Nat) (v : Port) : (setPort s p v).pulse = s.pulse := rfl
@[simp] theorem setPort_lanes (s : State) (p : Nat) (v : Port) : (setPort s p v).lanes = s.lanes := rfl
@[simp] theorem setPort_axes (s : State) (p : Nat) (v : Port) : (setPort s p v).axes = s.axes := rfl
@[simp] theorem setPort_digests (s : State) (p : Nat) (v : Port) : (setPort s p v).digests = s.digests := rfl
@[simp] theorem setPort_image (s : State) (p : Nat) (v : Port) : (setPort s p v).image = s.image := rfl
@[simp] theorem setPort_reflex (s : State) (p : Nat) (v : Port) : (setPort s p v).reflex = s.reflex := rfl
@[simp] theorem setPort_traffic (s : State) (p : Nat) (v : Port) : (setPort s p v).traffic = s.traffic := rfl
@[simp] theorem setPort_ddr (s : State) (p : Nat) (v : Port) : (setPort s p v).ddr = s.ddr := rfl
@[simp] theorem setPort_ddrc (s : State) (p : Nat) (v : Port) : (setPort s p v).ddrc = s.ddrc := rfl
@[simp] theorem setPort_chans (s : State) (p : Nat) (v : Port) : (setPort s p v).chans = s.chans := rfl
@[simp] theorem setPort_rings (s : State) (p : Nat) (v : Port) : (setPort s p v).rings = s.rings := rfl
@[simp] theorem setPort_mdies (s : State) (p : Nat) (v : Port) : (setPort s p v).mdies = s.mdies := rfl
@[simp] theorem setPort_twin (s : State) (p : Nat) (v : Port) : (setPort s p v).twin = s.twin := rfl
@[simp] theorem setPort_mirror (s : State) (p : Nat) (v : Port) : (setPort s p v).mirror = s.mirror := rfl
@[simp] theorem setPort_hlinks (s : State) (p : Nat) (v : Port) : (setPort s p v).hlinks = s.hlinks := rfl
@[simp] theorem setPort_sys (s : State) (p : Nat) (v : Port) : (setPort s p v).sys = s.sys := rfl
@[simp] theorem setPort_fifo (s : State) (p : Nat) (v : Port) : (setPort s p v).fifo = s.fifo := rfl
@[simp] theorem setPort_mgmtQ (s : State) (p : Nat) (v : Port) : (setPort s p v).mgmtQ = s.mgmtQ := rfl
@[simp] theorem setPort_hyithQ (s : State) (p : Nat) (v : Port) : (setPort s p v).hyithQ = s.hyithQ := rfl
@[simp] theorem setPort_relayed (s : State) (p : Nat) (v : Port) : (setPort s p v).relayed = s.relayed := rfl
@[simp] theorem setPort_txns (s : State) (p : Nat) (v : Port) : (setPort s p v).txns = s.txns := rfl
@[simp] theorem setPort_faults (s : State) (p : Nat) (v : Port) : (setPort s p v).faults = s.faults := rfl
@[simp] theorem setPort_vecs (s : State) (p : Nat) (v : Port) : (setPort s p v).vecs = s.vecs := rfl
@[simp] theorem setPort_rails (s : State) (p : Nat) (v : Port) : (setPort s p v).rails = s.rails := rfl
@[simp] theorem setPort_faultPend (s : State) (p : Nat) (v : Port) : (setPort s p v).faultPend = s.faultPend := rfl
@[simp] theorem setPort_safety (s : State) (p : Nat) (v : Port) : (setPort s p v).safety = s.safety := rfl
@[simp] theorem setPort_clock (s : State) (p : Nat) (v : Port) : (setPort s p v).clock = s.clock := rfl
@[simp] theorem setPort_trimRun (s : State) (p : Nat) (v : Port) : (setPort s p v).trimRun = s.trimRun := rfl
@[simp] theorem setPort_power (s : State) (p : Nat) (v : Port) : (setPort s p v).power = s.power := rfl
@[simp] theorem setPort_otp (s : State) (p : Nat) (v : Port) : (setPort s p v).otp = s.otp := rfl
@[simp] theorem setPort_sec (s : State) (p : Nat) (v : Port) : (setPort s p v).sec = s.sec := rfl
@[simp] theorem setPort_trace (s : State) (p : Nat) (v : Port) : (setPort s p v).trace = s.trace := rfl
@[simp] theorem setPort_arch (s : State) (p : Nat) (v : Port) : (setPort s p v).arch = s.arch := rfl
@[simp] theorem setPort_tap (s : State) (p : Nat) (v : Port) : (setPort s p v).tap = s.tap := rfl
@[simp] theorem setPort_pins (s : State) (p : Nat) (v : Port) : (setPort s p v).pins = s.pins := rfl
@[simp] theorem setPort_pcie (s : State) (p : Nat) (v : Port) : (setPort s p v).pcie = s.pcie := rfl
@[simp] theorem setPort_regs (s : State) (p : Nat) (v : Port) : (setPort s p v).regs = s.regs := rfl
@[simp] theorem setPort_hiLatch (s : State) (p : Nat) (v : Port) : (setPort s p v).hiLatch = s.hiLatch := rfl
@[simp] theorem setPort_free (s : State) (p : Nat) (v : Port) : (setPort s p v).free = s.free := rfl
@[simp] theorem setPort_pending (s : State) (p : Nat) (v : Port) : (setPort s p v).pending = s.pending := rfl
@[simp] theorem setPort_fresh (s : State) (p : Nat) (v : Port) : (setPort s p v).fresh = s.fresh := rfl
@[simp] theorem setPort_served (s : State) (p : Nat) (v : Port) : (setPort s p v).served = s.served := rfl
@[simp] theorem setPort_out (s : State) (p : Nat) (v : Port) : (setPort s p v).out = s.out := rfl

/-! modPort -/

@[simp] theorem modPort_time (s : State) (p : Nat) (f : Port → Port) : (modPort s p f).time = s.time := rfl
@[simp] theorem modPort_line (s : State) (p : Nat) (f : Port → Port) : (modPort s p f).line = s.line := rfl
@[simp] theorem modPort_pulse (s : State) (p : Nat) (f : Port → Port) : (modPort s p f).pulse = s.pulse := rfl
@[simp] theorem modPort_lanes (s : State) (p : Nat) (f : Port → Port) : (modPort s p f).lanes = s.lanes := rfl
@[simp] theorem modPort_axes (s : State) (p : Nat) (f : Port → Port) : (modPort s p f).axes = s.axes := rfl
@[simp] theorem modPort_digests (s : State) (p : Nat) (f : Port → Port) : (modPort s p f).digests = s.digests := rfl
@[simp] theorem modPort_image (s : State) (p : Nat) (f : Port → Port) : (modPort s p f).image = s.image := rfl
@[simp] theorem modPort_reflex (s : State) (p : Nat) (f : Port → Port) : (modPort s p f).reflex = s.reflex := rfl
@[simp] theorem modPort_traffic (s : State) (p : Nat) (f : Port → Port) : (modPort s p f).traffic = s.traffic := rfl
@[simp] theorem modPort_ddr (s : State) (p : Nat) (f : Port → Port) : (modPort s p f).ddr = s.ddr := rfl
@[simp] theorem modPort_ddrc (s : State) (p : Nat) (f : Port → Port) : (modPort s p f).ddrc = s.ddrc := rfl
@[simp] theorem modPort_chans (s : State) (p : Nat) (f : Port → Port) : (modPort s p f).chans = s.chans := rfl
@[simp] theorem modPort_rings (s : State) (p : Nat) (f : Port → Port) : (modPort s p f).rings = s.rings := rfl
@[simp] theorem modPort_mdies (s : State) (p : Nat) (f : Port → Port) : (modPort s p f).mdies = s.mdies := rfl
@[simp] theorem modPort_twin (s : State) (p : Nat) (f : Port → Port) : (modPort s p f).twin = s.twin := rfl
@[simp] theorem modPort_mirror (s : State) (p : Nat) (f : Port → Port) : (modPort s p f).mirror = s.mirror := rfl
@[simp] theorem modPort_hlinks (s : State) (p : Nat) (f : Port → Port) : (modPort s p f).hlinks = s.hlinks := rfl
@[simp] theorem modPort_sys (s : State) (p : Nat) (f : Port → Port) : (modPort s p f).sys = s.sys := rfl
@[simp] theorem modPort_fifo (s : State) (p : Nat) (f : Port → Port) : (modPort s p f).fifo = s.fifo := rfl
@[simp] theorem modPort_mgmtQ (s : State) (p : Nat) (f : Port → Port) : (modPort s p f).mgmtQ = s.mgmtQ := rfl
@[simp] theorem modPort_hyithQ (s : State) (p : Nat) (f : Port → Port) : (modPort s p f).hyithQ = s.hyithQ := rfl
@[simp] theorem modPort_relayed (s : State) (p : Nat) (f : Port → Port) : (modPort s p f).relayed = s.relayed := rfl
@[simp] theorem modPort_txns (s : State) (p : Nat) (f : Port → Port) : (modPort s p f).txns = s.txns := rfl
@[simp] theorem modPort_faults (s : State) (p : Nat) (f : Port → Port) : (modPort s p f).faults = s.faults := rfl
@[simp] theorem modPort_vecs (s : State) (p : Nat) (f : Port → Port) : (modPort s p f).vecs = s.vecs := rfl
@[simp] theorem modPort_rails (s : State) (p : Nat) (f : Port → Port) : (modPort s p f).rails = s.rails := rfl
@[simp] theorem modPort_faultPend (s : State) (p : Nat) (f : Port → Port) : (modPort s p f).faultPend = s.faultPend := rfl
@[simp] theorem modPort_safety (s : State) (p : Nat) (f : Port → Port) : (modPort s p f).safety = s.safety := rfl
@[simp] theorem modPort_clock (s : State) (p : Nat) (f : Port → Port) : (modPort s p f).clock = s.clock := rfl
@[simp] theorem modPort_trimRun (s : State) (p : Nat) (f : Port → Port) : (modPort s p f).trimRun = s.trimRun := rfl
@[simp] theorem modPort_power (s : State) (p : Nat) (f : Port → Port) : (modPort s p f).power = s.power := rfl
@[simp] theorem modPort_otp (s : State) (p : Nat) (f : Port → Port) : (modPort s p f).otp = s.otp := rfl
@[simp] theorem modPort_sec (s : State) (p : Nat) (f : Port → Port) : (modPort s p f).sec = s.sec := rfl
@[simp] theorem modPort_trace (s : State) (p : Nat) (f : Port → Port) : (modPort s p f).trace = s.trace := rfl
@[simp] theorem modPort_arch (s : State) (p : Nat) (f : Port → Port) : (modPort s p f).arch = s.arch := rfl
@[simp] theorem modPort_tap (s : State) (p : Nat) (f : Port → Port) : (modPort s p f).tap = s.tap := rfl
@[simp] theorem modPort_pins (s : State) (p : Nat) (f : Port → Port) : (modPort s p f).pins = s.pins := rfl
@[simp] theorem modPort_pcie (s : State) (p : Nat) (f : Port → Port) : (modPort s p f).pcie = s.pcie := rfl
@[simp] theorem modPort_regs (s : State) (p : Nat) (f : Port → Port) : (modPort s p f).regs = s.regs := rfl
@[simp] theorem modPort_hiLatch (s : State) (p : Nat) (f : Port → Port) : (modPort s p f).hiLatch = s.hiLatch := rfl
@[simp] theorem modPort_free (s : State) (p : Nat) (f : Port → Port) : (modPort s p f).free = s.free := rfl
@[simp] theorem modPort_pending (s : State) (p : Nat) (f : Port → Port) : (modPort s p f).pending = s.pending := rfl
@[simp] theorem modPort_fresh (s : State) (p : Nat) (f : Port → Port) : (modPort s p f).fresh = s.fresh := rfl
@[simp] theorem modPort_served (s : State) (p : Nat) (f : Port → Port) : (modPort s p f).served = s.served := rfl
@[simp] theorem modPort_out (s : State) (p : Nat) (f : Port → Port) : (modPort s p f).out = s.out := rfl

/-! setAxis -/

@[simp] theorem setAxis_time (s : State) (a : Nat) (v : Axis) : (setAxis s a v).time = s.time := rfl
@[simp] theorem setAxis_line (s : State) (a : Nat) (v : Axis) : (setAxis s a v).line = s.line := rfl
@[simp] theorem setAxis_pulse (s : State) (a : Nat) (v : Axis) : (setAxis s a v).pulse = s.pulse := rfl
@[simp] theorem setAxis_ports (s : State) (a : Nat) (v : Axis) : (setAxis s a v).ports = s.ports := rfl
@[simp] theorem setAxis_lanes (s : State) (a : Nat) (v : Axis) : (setAxis s a v).lanes = s.lanes := rfl
@[simp] theorem setAxis_digests (s : State) (a : Nat) (v : Axis) : (setAxis s a v).digests = s.digests := rfl
@[simp] theorem setAxis_image (s : State) (a : Nat) (v : Axis) : (setAxis s a v).image = s.image := rfl
@[simp] theorem setAxis_reflex (s : State) (a : Nat) (v : Axis) : (setAxis s a v).reflex = s.reflex := rfl
@[simp] theorem setAxis_traffic (s : State) (a : Nat) (v : Axis) : (setAxis s a v).traffic = s.traffic := rfl
@[simp] theorem setAxis_ddr (s : State) (a : Nat) (v : Axis) : (setAxis s a v).ddr = s.ddr := rfl
@[simp] theorem setAxis_ddrc (s : State) (a : Nat) (v : Axis) : (setAxis s a v).ddrc = s.ddrc := rfl
@[simp] theorem setAxis_chans (s : State) (a : Nat) (v : Axis) : (setAxis s a v).chans = s.chans := rfl
@[simp] theorem setAxis_rings (s : State) (a : Nat) (v : Axis) : (setAxis s a v).rings = s.rings := rfl
@[simp] theorem setAxis_mdies (s : State) (a : Nat) (v : Axis) : (setAxis s a v).mdies = s.mdies := rfl
@[simp] theorem setAxis_twin (s : State) (a : Nat) (v : Axis) : (setAxis s a v).twin = s.twin := rfl
@[simp] theorem setAxis_mirror (s : State) (a : Nat) (v : Axis) : (setAxis s a v).mirror = s.mirror := rfl
@[simp] theorem setAxis_hlinks (s : State) (a : Nat) (v : Axis) : (setAxis s a v).hlinks = s.hlinks := rfl
@[simp] theorem setAxis_sys (s : State) (a : Nat) (v : Axis) : (setAxis s a v).sys = s.sys := rfl
@[simp] theorem setAxis_fifo (s : State) (a : Nat) (v : Axis) : (setAxis s a v).fifo = s.fifo := rfl
@[simp] theorem setAxis_mgmtQ (s : State) (a : Nat) (v : Axis) : (setAxis s a v).mgmtQ = s.mgmtQ := rfl
@[simp] theorem setAxis_hyithQ (s : State) (a : Nat) (v : Axis) : (setAxis s a v).hyithQ = s.hyithQ := rfl
@[simp] theorem setAxis_relayed (s : State) (a : Nat) (v : Axis) : (setAxis s a v).relayed = s.relayed := rfl
@[simp] theorem setAxis_txns (s : State) (a : Nat) (v : Axis) : (setAxis s a v).txns = s.txns := rfl
@[simp] theorem setAxis_faults (s : State) (a : Nat) (v : Axis) : (setAxis s a v).faults = s.faults := rfl
@[simp] theorem setAxis_vecs (s : State) (a : Nat) (v : Axis) : (setAxis s a v).vecs = s.vecs := rfl
@[simp] theorem setAxis_rails (s : State) (a : Nat) (v : Axis) : (setAxis s a v).rails = s.rails := rfl
@[simp] theorem setAxis_faultPend (s : State) (a : Nat) (v : Axis) : (setAxis s a v).faultPend = s.faultPend := rfl
@[simp] theorem setAxis_safety (s : State) (a : Nat) (v : Axis) : (setAxis s a v).safety = s.safety := rfl
@[simp] theorem setAxis_clock (s : State) (a : Nat) (v : Axis) : (setAxis s a v).clock = s.clock := rfl
@[simp] theorem setAxis_trimRun (s : State) (a : Nat) (v : Axis) : (setAxis s a v).trimRun = s.trimRun := rfl
@[simp] theorem setAxis_power (s : State) (a : Nat) (v : Axis) : (setAxis s a v).power = s.power := rfl
@[simp] theorem setAxis_otp (s : State) (a : Nat) (v : Axis) : (setAxis s a v).otp = s.otp := rfl
@[simp] theorem setAxis_sec (s : State) (a : Nat) (v : Axis) : (setAxis s a v).sec = s.sec := rfl
@[simp] theorem setAxis_trace (s : State) (a : Nat) (v : Axis) : (setAxis s a v).trace = s.trace := rfl
@[simp] theorem setAxis_arch (s : State) (a : Nat) (v : Axis) : (setAxis s a v).arch = s.arch := rfl
@[simp] theorem setAxis_tap (s : State) (a : Nat) (v : Axis) : (setAxis s a v).tap = s.tap := rfl
@[simp] theorem setAxis_pins (s : State) (a : Nat) (v : Axis) : (setAxis s a v).pins = s.pins := rfl
@[simp] theorem setAxis_pcie (s : State) (a : Nat) (v : Axis) : (setAxis s a v).pcie = s.pcie := rfl
@[simp] theorem setAxis_regs (s : State) (a : Nat) (v : Axis) : (setAxis s a v).regs = s.regs := rfl
@[simp] theorem setAxis_hiLatch (s : State) (a : Nat) (v : Axis) : (setAxis s a v).hiLatch = s.hiLatch := rfl
@[simp] theorem setAxis_free (s : State) (a : Nat) (v : Axis) : (setAxis s a v).free = s.free := rfl
@[simp] theorem setAxis_pending (s : State) (a : Nat) (v : Axis) : (setAxis s a v).pending = s.pending := rfl
@[simp] theorem setAxis_fresh (s : State) (a : Nat) (v : Axis) : (setAxis s a v).fresh = s.fresh := rfl
@[simp] theorem setAxis_served (s : State) (a : Nat) (v : Axis) : (setAxis s a v).served = s.served := rfl
@[simp] theorem setAxis_out (s : State) (a : Nat) (v : Axis) : (setAxis s a v).out = s.out := rfl

/-! modAxis -/

@[simp] theorem modAxis_time (s : State) (a : Nat) (f : Axis → Axis) : (modAxis s a f).time = s.time := rfl
@[simp] theorem modAxis_line (s : State) (a : Nat) (f : Axis → Axis) : (modAxis s a f).line = s.line := rfl
@[simp] theorem modAxis_pulse (s : State) (a : Nat) (f : Axis → Axis) : (modAxis s a f).pulse = s.pulse := rfl
@[simp] theorem modAxis_ports (s : State) (a : Nat) (f : Axis → Axis) : (modAxis s a f).ports = s.ports := rfl
@[simp] theorem modAxis_lanes (s : State) (a : Nat) (f : Axis → Axis) : (modAxis s a f).lanes = s.lanes := rfl
@[simp] theorem modAxis_digests (s : State) (a : Nat) (f : Axis → Axis) : (modAxis s a f).digests = s.digests := rfl
@[simp] theorem modAxis_image (s : State) (a : Nat) (f : Axis → Axis) : (modAxis s a f).image = s.image := rfl
@[simp] theorem modAxis_reflex (s : State) (a : Nat) (f : Axis → Axis) : (modAxis s a f).reflex = s.reflex := rfl
@[simp] theorem modAxis_traffic (s : State) (a : Nat) (f : Axis → Axis) : (modAxis s a f).traffic = s.traffic := rfl
@[simp] theorem modAxis_ddr (s : State) (a : Nat) (f : Axis → Axis) : (modAxis s a f).ddr = s.ddr := rfl
@[simp] theorem modAxis_ddrc (s : State) (a : Nat) (f : Axis → Axis) : (modAxis s a f).ddrc = s.ddrc := rfl
@[simp] theorem modAxis_chans (s : State) (a : Nat) (f : Axis → Axis) : (modAxis s a f).chans = s.chans := rfl
@[simp] theorem modAxis_rings (s : State) (a : Nat) (f : Axis → Axis) : (modAxis s a f).rings = s.rings := rfl
@[simp] theorem modAxis_mdies (s : State) (a : Nat) (f : Axis → Axis) : (modAxis s a f).mdies = s.mdies := rfl
@[simp] theorem modAxis_twin (s : State) (a : Nat) (f : Axis → Axis) : (modAxis s a f).twin = s.twin := rfl
@[simp] theorem modAxis_mirror (s : State) (a : Nat) (f : Axis → Axis) : (modAxis s a f).mirror = s.mirror := rfl
@[simp] theorem modAxis_hlinks (s : State) (a : Nat) (f : Axis → Axis) : (modAxis s a f).hlinks = s.hlinks := rfl
@[simp] theorem modAxis_sys (s : State) (a : Nat) (f : Axis → Axis) : (modAxis s a f).sys = s.sys := rfl
@[simp] theorem modAxis_fifo (s : State) (a : Nat) (f : Axis → Axis) : (modAxis s a f).fifo = s.fifo := rfl
@[simp] theorem modAxis_mgmtQ (s : State) (a : Nat) (f : Axis → Axis) : (modAxis s a f).mgmtQ = s.mgmtQ := rfl
@[simp] theorem modAxis_hyithQ (s : State) (a : Nat) (f : Axis → Axis) : (modAxis s a f).hyithQ = s.hyithQ := rfl
@[simp] theorem modAxis_relayed (s : State) (a : Nat) (f : Axis → Axis) : (modAxis s a f).relayed = s.relayed := rfl
@[simp] theorem modAxis_txns (s : State) (a : Nat) (f : Axis → Axis) : (modAxis s a f).txns = s.txns := rfl
@[simp] theorem modAxis_faults (s : State) (a : Nat) (f : Axis → Axis) : (modAxis s a f).faults = s.faults := rfl
@[simp] theorem modAxis_vecs (s : State) (a : Nat) (f : Axis → Axis) : (modAxis s a f).vecs = s.vecs := rfl
@[simp] theorem modAxis_rails (s : State) (a : Nat) (f : Axis → Axis) : (modAxis s a f).rails = s.rails := rfl
@[simp] theorem modAxis_faultPend (s : State) (a : Nat) (f : Axis → Axis) : (modAxis s a f).faultPend = s.faultPend := rfl
@[simp] theorem modAxis_safety (s : State) (a : Nat) (f : Axis → Axis) : (modAxis s a f).safety = s.safety := rfl
@[simp] theorem modAxis_clock (s : State) (a : Nat) (f : Axis → Axis) : (modAxis s a f).clock = s.clock := rfl
@[simp] theorem modAxis_trimRun (s : State) (a : Nat) (f : Axis → Axis) : (modAxis s a f).trimRun = s.trimRun := rfl
@[simp] theorem modAxis_power (s : State) (a : Nat) (f : Axis → Axis) : (modAxis s a f).power = s.power := rfl
@[simp] theorem modAxis_otp (s : State) (a : Nat) (f : Axis → Axis) : (modAxis s a f).otp = s.otp := rfl
@[simp] theorem modAxis_sec (s : State) (a : Nat) (f : Axis → Axis) : (modAxis s a f).sec = s.sec := rfl
@[simp] theorem modAxis_trace (s : State) (a : Nat) (f : Axis → Axis) : (modAxis s a f).trace = s.trace := rfl
@[simp] theorem modAxis_arch (s : State) (a : Nat) (f : Axis → Axis) : (modAxis s a f).arch = s.arch := rfl
@[simp] theorem modAxis_tap (s : State) (a : Nat) (f : Axis → Axis) : (modAxis s a f).tap = s.tap := rfl
@[simp] theorem modAxis_pins (s : State) (a : Nat) (f : Axis → Axis) : (modAxis s a f).pins = s.pins := rfl
@[simp] theorem modAxis_pcie (s : State) (a : Nat) (f : Axis → Axis) : (modAxis s a f).pcie = s.pcie := rfl
@[simp] theorem modAxis_regs (s : State) (a : Nat) (f : Axis → Axis) : (modAxis s a f).regs = s.regs := rfl
@[simp] theorem modAxis_hiLatch (s : State) (a : Nat) (f : Axis → Axis) : (modAxis s a f).hiLatch = s.hiLatch := rfl
@[simp] theorem modAxis_free (s : State) (a : Nat) (f : Axis → Axis) : (modAxis s a f).free = s.free := rfl
@[simp] theorem modAxis_pending (s : State) (a : Nat) (f : Axis → Axis) : (modAxis s a f).pending = s.pending := rfl
@[simp] theorem modAxis_fresh (s : State) (a : Nat) (f : Axis → Axis) : (modAxis s a f).fresh = s.fresh := rfl
@[simp] theorem modAxis_served (s : State) (a : Nat) (f : Axis → Axis) : (modAxis s a f).served = s.served := rfl
@[simp] theorem modAxis_out (s : State) (a : Nat) (f : Axis → Axis) : (modAxis s a f).out = s.out := rfl

/-! emit -/

@[simp] theorem emit_time (s : State) (o : Output) : (emit s o).time = s.time := rfl
@[simp] theorem emit_line (s : State) (o : Output) : (emit s o).line = s.line := rfl
@[simp] theorem emit_pulse (s : State) (o : Output) : (emit s o).pulse = s.pulse := rfl
@[simp] theorem emit_ports (s : State) (o : Output) : (emit s o).ports = s.ports := rfl
@[simp] theorem emit_lanes (s : State) (o : Output) : (emit s o).lanes = s.lanes := rfl
@[simp] theorem emit_axes (s : State) (o : Output) : (emit s o).axes = s.axes := rfl
@[simp] theorem emit_digests (s : State) (o : Output) : (emit s o).digests = s.digests := rfl
@[simp] theorem emit_image (s : State) (o : Output) : (emit s o).image = s.image := rfl
@[simp] theorem emit_reflex (s : State) (o : Output) : (emit s o).reflex = s.reflex := rfl
@[simp] theorem emit_traffic (s : State) (o : Output) : (emit s o).traffic = s.traffic := rfl
@[simp] theorem emit_ddr (s : State) (o : Output) : (emit s o).ddr = s.ddr := rfl
@[simp] theorem emit_ddrc (s : State) (o : Output) : (emit s o).ddrc = s.ddrc := rfl
@[simp] theorem emit_chans (s : State) (o : Output) : (emit s o).chans = s.chans := rfl
@[simp] theorem emit_rings (s : State) (o : Output) : (emit s o).rings = s.rings := rfl
@[simp] theorem emit_mdies (s : State) (o : Output) : (emit s o).mdies = s.mdies := rfl
@[simp] theorem emit_twin (s : State) (o : Output) : (emit s o).twin = s.twin := rfl
@[simp] theorem emit_mirror (s : State) (o : Output) : (emit s o).mirror = s.mirror := rfl
@[simp] theorem emit_hlinks (s : State) (o : Output) : (emit s o).hlinks = s.hlinks := rfl
@[simp] theorem emit_sys (s : State) (o : Output) : (emit s o).sys = s.sys := rfl
@[simp] theorem emit_fifo (s : State) (o : Output) : (emit s o).fifo = s.fifo := rfl
@[simp] theorem emit_mgmtQ (s : State) (o : Output) : (emit s o).mgmtQ = s.mgmtQ := rfl
@[simp] theorem emit_hyithQ (s : State) (o : Output) : (emit s o).hyithQ = s.hyithQ := rfl
@[simp] theorem emit_relayed (s : State) (o : Output) : (emit s o).relayed = s.relayed := rfl
@[simp] theorem emit_txns (s : State) (o : Output) : (emit s o).txns = s.txns := rfl
@[simp] theorem emit_faults (s : State) (o : Output) : (emit s o).faults = s.faults := rfl
@[simp] theorem emit_vecs (s : State) (o : Output) : (emit s o).vecs = s.vecs := rfl
@[simp] theorem emit_rails (s : State) (o : Output) : (emit s o).rails = s.rails := rfl
@[simp] theorem emit_faultPend (s : State) (o : Output) : (emit s o).faultPend = s.faultPend := rfl
@[simp] theorem emit_safety (s : State) (o : Output) : (emit s o).safety = s.safety := rfl
@[simp] theorem emit_clock (s : State) (o : Output) : (emit s o).clock = s.clock := rfl
@[simp] theorem emit_trimRun (s : State) (o : Output) : (emit s o).trimRun = s.trimRun := rfl
@[simp] theorem emit_power (s : State) (o : Output) : (emit s o).power = s.power := rfl
@[simp] theorem emit_otp (s : State) (o : Output) : (emit s o).otp = s.otp := rfl
@[simp] theorem emit_sec (s : State) (o : Output) : (emit s o).sec = s.sec := rfl
@[simp] theorem emit_trace (s : State) (o : Output) : (emit s o).trace = s.trace := rfl
@[simp] theorem emit_arch (s : State) (o : Output) : (emit s o).arch = s.arch := rfl
@[simp] theorem emit_tap (s : State) (o : Output) : (emit s o).tap = s.tap := rfl
@[simp] theorem emit_pins (s : State) (o : Output) : (emit s o).pins = s.pins := rfl
@[simp] theorem emit_pcie (s : State) (o : Output) : (emit s o).pcie = s.pcie := rfl
@[simp] theorem emit_regs (s : State) (o : Output) : (emit s o).regs = s.regs := rfl
@[simp] theorem emit_hiLatch (s : State) (o : Output) : (emit s o).hiLatch = s.hiLatch := rfl
@[simp] theorem emit_free (s : State) (o : Output) : (emit s o).free = s.free := rfl
@[simp] theorem emit_pending (s : State) (o : Output) : (emit s o).pending = s.pending := rfl
@[simp] theorem emit_fresh (s : State) (o : Output) : (emit s o).fresh = s.fresh := rfl
@[simp] theorem emit_served (s : State) (o : Output) : (emit s o).served = s.served := rfl

/-! useFree -/

@[simp] theorem useFree_time (s : State) : (useFree s).time = s.time := rfl
@[simp] theorem useFree_line (s : State) : (useFree s).line = s.line := rfl
@[simp] theorem useFree_pulse (s : State) : (useFree s).pulse = s.pulse := rfl
@[simp] theorem useFree_ports (s : State) : (useFree s).ports = s.ports := rfl
@[simp] theorem useFree_lanes (s : State) : (useFree s).lanes = s.lanes := rfl
@[simp] theorem useFree_axes (s : State) : (useFree s).axes = s.axes := rfl
@[simp] theorem useFree_digests (s : State) : (useFree s).digests = s.digests := rfl
@[simp] theorem useFree_image (s : State) : (useFree s).image = s.image := rfl
@[simp] theorem useFree_reflex (s : State) : (useFree s).reflex = s.reflex := rfl
@[simp] theorem useFree_traffic (s : State) : (useFree s).traffic = s.traffic := rfl
@[simp] theorem useFree_ddr (s : State) : (useFree s).ddr = s.ddr := rfl
@[simp] theorem useFree_ddrc (s : State) : (useFree s).ddrc = s.ddrc := rfl
@[simp] theorem useFree_chans (s : State) : (useFree s).chans = s.chans := rfl
@[simp] theorem useFree_rings (s : State) : (useFree s).rings = s.rings := rfl
@[simp] theorem useFree_mdies (s : State) : (useFree s).mdies = s.mdies := rfl
@[simp] theorem useFree_twin (s : State) : (useFree s).twin = s.twin := rfl
@[simp] theorem useFree_mirror (s : State) : (useFree s).mirror = s.mirror := rfl
@[simp] theorem useFree_hlinks (s : State) : (useFree s).hlinks = s.hlinks := rfl
@[simp] theorem useFree_sys (s : State) : (useFree s).sys = s.sys := rfl
@[simp] theorem useFree_fifo (s : State) : (useFree s).fifo = s.fifo := rfl
@[simp] theorem useFree_mgmtQ (s : State) : (useFree s).mgmtQ = s.mgmtQ := rfl
@[simp] theorem useFree_hyithQ (s : State) : (useFree s).hyithQ = s.hyithQ := rfl
@[simp] theorem useFree_relayed (s : State) : (useFree s).relayed = s.relayed := rfl
@[simp] theorem useFree_txns (s : State) : (useFree s).txns = s.txns := rfl
@[simp] theorem useFree_faults (s : State) : (useFree s).faults = s.faults := rfl
@[simp] theorem useFree_vecs (s : State) : (useFree s).vecs = s.vecs := rfl
@[simp] theorem useFree_rails (s : State) : (useFree s).rails = s.rails := rfl
@[simp] theorem useFree_faultPend (s : State) : (useFree s).faultPend = s.faultPend := rfl
@[simp] theorem useFree_safety (s : State) : (useFree s).safety = s.safety := rfl
@[simp] theorem useFree_clock (s : State) : (useFree s).clock = s.clock := rfl
@[simp] theorem useFree_trimRun (s : State) : (useFree s).trimRun = s.trimRun := rfl
@[simp] theorem useFree_power (s : State) : (useFree s).power = s.power := rfl
@[simp] theorem useFree_otp (s : State) : (useFree s).otp = s.otp := rfl
@[simp] theorem useFree_sec (s : State) : (useFree s).sec = s.sec := rfl
@[simp] theorem useFree_trace (s : State) : (useFree s).trace = s.trace := rfl
@[simp] theorem useFree_arch (s : State) : (useFree s).arch = s.arch := rfl
@[simp] theorem useFree_tap (s : State) : (useFree s).tap = s.tap := rfl
@[simp] theorem useFree_pins (s : State) : (useFree s).pins = s.pins := rfl
@[simp] theorem useFree_pcie (s : State) : (useFree s).pcie = s.pcie := rfl
@[simp] theorem useFree_regs (s : State) : (useFree s).regs = s.regs := rfl
@[simp] theorem useFree_hiLatch (s : State) : (useFree s).hiLatch = s.hiLatch := rfl
@[simp] theorem useFree_pending (s : State) : (useFree s).pending = s.pending := rfl
@[simp] theorem useFree_fresh (s : State) : (useFree s).fresh = s.fresh := rfl
@[simp] theorem useFree_served (s : State) : (useFree s).served = s.served := rfl
@[simp] theorem useFree_out (s : State) : (useFree s).out = s.out := rfl

/-! setReg -/

@[simp] theorem setReg_time (s : State) (a v : Nat) : (setReg s a v).time = s.time := rfl
@[simp] theorem setReg_line (s : State) (a v : Nat) : (setReg s a v).line = s.line := rfl
@[simp] theorem setReg_pulse (s : State) (a v : Nat) : (setReg s a v).pulse = s.pulse := rfl
@[simp] theorem setReg_ports (s : State) (a v : Nat) : (setReg s a v).ports = s.ports := rfl
@[simp] theorem setReg_lanes (s : State) (a v : Nat) : (setReg s a v).lanes = s.lanes := rfl
@[simp] theorem setReg_axes (s : State) (a v : Nat) : (setReg s a v).axes = s.axes := rfl
@[simp] theorem setReg_digests (s : State) (a v : Nat) : (setReg s a v).digests = s.digests := rfl
@[simp] theorem setReg_image (s : State) (a v : Nat) : (setReg s a v).image = s.image := rfl
@[simp] theorem setReg_reflex (s : State) (a v : Nat) : (setReg s a v).reflex = s.reflex := rfl
@[simp] theorem setReg_traffic (s : State) (a v : Nat) : (setReg s a v).traffic = s.traffic := rfl
@[simp] theorem setReg_ddr (s : State) (a v : Nat) : (setReg s a v).ddr = s.ddr := rfl
@[simp] theorem setReg_ddrc (s : State) (a v : Nat) : (setReg s a v).ddrc = s.ddrc := rfl
@[simp] theorem setReg_chans (s : State) (a v : Nat) : (setReg s a v).chans = s.chans := rfl
@[simp] theorem setReg_rings (s : State) (a v : Nat) : (setReg s a v).rings = s.rings := rfl
@[simp] theorem setReg_mdies (s : State) (a v : Nat) : (setReg s a v).mdies = s.mdies := rfl
@[simp] theorem setReg_twin (s : State) (a v : Nat) : (setReg s a v).twin = s.twin := rfl
@[simp] theorem setReg_mirror (s : State) (a v : Nat) : (setReg s a v).mirror = s.mirror := rfl
@[simp] theorem setReg_hlinks (s : State) (a v : Nat) : (setReg s a v).hlinks = s.hlinks := rfl
@[simp] theorem setReg_sys (s : State) (a v : Nat) : (setReg s a v).sys = s.sys := rfl
@[simp] theorem setReg_fifo (s : State) (a v : Nat) : (setReg s a v).fifo = s.fifo := rfl
@[simp] theorem setReg_mgmtQ (s : State) (a v : Nat) : (setReg s a v).mgmtQ = s.mgmtQ := rfl
@[simp] theorem setReg_hyithQ (s : State) (a v : Nat) : (setReg s a v).hyithQ = s.hyithQ := rfl
@[simp] theorem setReg_relayed (s : State) (a v : Nat) : (setReg s a v).relayed = s.relayed := rfl
@[simp] theorem setReg_txns (s : State) (a v : Nat) : (setReg s a v).txns = s.txns := rfl
@[simp] theorem setReg_faults (s : State) (a v : Nat) : (setReg s a v).faults = s.faults := rfl
@[simp] theorem setReg_vecs (s : State) (a v : Nat) : (setReg s a v).vecs = s.vecs := rfl
@[simp] theorem setReg_rails (s : State) (a v : Nat) : (setReg s a v).rails = s.rails := rfl
@[simp] theorem setReg_faultPend (s : State) (a v : Nat) : (setReg s a v).faultPend = s.faultPend := rfl
@[simp] theorem setReg_safety (s : State) (a v : Nat) : (setReg s a v).safety = s.safety := rfl
@[simp] theorem setReg_clock (s : State) (a v : Nat) : (setReg s a v).clock = s.clock := rfl
@[simp] theorem setReg_trimRun (s : State) (a v : Nat) : (setReg s a v).trimRun = s.trimRun := rfl
@[simp] theorem setReg_power (s : State) (a v : Nat) : (setReg s a v).power = s.power := rfl
@[simp] theorem setReg_otp (s : State) (a v : Nat) : (setReg s a v).otp = s.otp := rfl
@[simp] theorem setReg_sec (s : State) (a v : Nat) : (setReg s a v).sec = s.sec := rfl
@[simp] theorem setReg_trace (s : State) (a v : Nat) : (setReg s a v).trace = s.trace := rfl
@[simp] theorem setReg_arch (s : State) (a v : Nat) : (setReg s a v).arch = s.arch := rfl
@[simp] theorem setReg_tap (s : State) (a v : Nat) : (setReg s a v).tap = s.tap := rfl
@[simp] theorem setReg_pins (s : State) (a v : Nat) : (setReg s a v).pins = s.pins := rfl
@[simp] theorem setReg_pcie (s : State) (a v : Nat) : (setReg s a v).pcie = s.pcie := rfl
@[simp] theorem setReg_hiLatch (s : State) (a v : Nat) : (setReg s a v).hiLatch = s.hiLatch := rfl
@[simp] theorem setReg_free (s : State) (a v : Nat) : (setReg s a v).free = s.free := rfl
@[simp] theorem setReg_pending (s : State) (a v : Nat) : (setReg s a v).pending = s.pending := rfl
@[simp] theorem setReg_fresh (s : State) (a v : Nat) : (setReg s a v).fresh = s.fresh := rfl
@[simp] theorem setReg_served (s : State) (a v : Nat) : (setReg s a v).served = s.served := rfl
@[simp] theorem setReg_out (s : State) (a v : Nat) : (setReg s a v).out = s.out := rfl

/-! pendFault -/

@[simp] theorem pendFault_time (s : State) (l : FaultLoc) (i : Nat) : (pendFault s l i).time = s.time := rfl
@[simp] theorem pendFault_line (s : State) (l : FaultLoc) (i : Nat) : (pendFault s l i).line = s.line := rfl
@[simp] theorem pendFault_pulse (s : State) (l : FaultLoc) (i : Nat) : (pendFault s l i).pulse = s.pulse := rfl
@[simp] theorem pendFault_ports (s : State) (l : FaultLoc) (i : Nat) : (pendFault s l i).ports = s.ports := rfl
@[simp] theorem pendFault_lanes (s : State) (l : FaultLoc) (i : Nat) : (pendFault s l i).lanes = s.lanes := rfl
@[simp] theorem pendFault_axes (s : State) (l : FaultLoc) (i : Nat) : (pendFault s l i).axes = s.axes := rfl
@[simp] theorem pendFault_digests (s : State) (l : FaultLoc) (i : Nat) : (pendFault s l i).digests = s.digests := rfl
@[simp] theorem pendFault_image (s : State) (l : FaultLoc) (i : Nat) : (pendFault s l i).image = s.image := rfl
@[simp] theorem pendFault_reflex (s : State) (l : FaultLoc) (i : Nat) : (pendFault s l i).reflex = s.reflex := rfl
@[simp] theorem pendFault_traffic (s : State) (l : FaultLoc) (i : Nat) : (pendFault s l i).traffic = s.traffic := rfl
@[simp] theorem pendFault_ddr (s : State) (l : FaultLoc) (i : Nat) : (pendFault s l i).ddr = s.ddr := rfl
@[simp] theorem pendFault_ddrc (s : State) (l : FaultLoc) (i : Nat) : (pendFault s l i).ddrc = s.ddrc := rfl
@[simp] theorem pendFault_chans (s : State) (l : FaultLoc) (i : Nat) : (pendFault s l i).chans = s.chans := rfl
@[simp] theorem pendFault_rings (s : State) (l : FaultLoc) (i : Nat) : (pendFault s l i).rings = s.rings := rfl
@[simp] theorem pendFault_mdies (s : State) (l : FaultLoc) (i : Nat) : (pendFault s l i).mdies = s.mdies := rfl
@[simp] theorem pendFault_twin (s : State) (l : FaultLoc) (i : Nat) : (pendFault s l i).twin = s.twin := rfl
@[simp] theorem pendFault_mirror (s : State) (l : FaultLoc) (i : Nat) : (pendFault s l i).mirror = s.mirror := rfl
@[simp] theorem pendFault_hlinks (s : State) (l : FaultLoc) (i : Nat) : (pendFault s l i).hlinks = s.hlinks := rfl
@[simp] theorem pendFault_sys (s : State) (l : FaultLoc) (i : Nat) : (pendFault s l i).sys = s.sys := rfl
@[simp] theorem pendFault_fifo (s : State) (l : FaultLoc) (i : Nat) : (pendFault s l i).fifo = s.fifo := rfl
@[simp] theorem pendFault_mgmtQ (s : State) (l : FaultLoc) (i : Nat) : (pendFault s l i).mgmtQ = s.mgmtQ := rfl
@[simp] theorem pendFault_hyithQ (s : State) (l : FaultLoc) (i : Nat) : (pendFault s l i).hyithQ = s.hyithQ := rfl
@[simp] theorem pendFault_relayed (s : State) (l : FaultLoc) (i : Nat) : (pendFault s l i).relayed = s.relayed := rfl
@[simp] theorem pendFault_txns (s : State) (l : FaultLoc) (i : Nat) : (pendFault s l i).txns = s.txns := rfl
@[simp] theorem pendFault_faults (s : State) (l : FaultLoc) (i : Nat) : (pendFault s l i).faults = s.faults := rfl
@[simp] theorem pendFault_vecs (s : State) (l : FaultLoc) (i : Nat) : (pendFault s l i).vecs = s.vecs := rfl
@[simp] theorem pendFault_rails (s : State) (l : FaultLoc) (i : Nat) : (pendFault s l i).rails = s.rails := rfl
@[simp] theorem pendFault_safety (s : State) (l : FaultLoc) (i : Nat) : (pendFault s l i).safety = s.safety := rfl
@[simp] theorem pendFault_clock (s : State) (l : FaultLoc) (i : Nat) : (pendFault s l i).clock = s.clock := rfl
@[simp] theorem pendFault_trimRun (s : State) (l : FaultLoc) (i : Nat) : (pendFault s l i).trimRun = s.trimRun := rfl
@[simp] theorem pendFault_power (s : State) (l : FaultLoc) (i : Nat) : (pendFault s l i).power = s.power := rfl
@[simp] theorem pendFault_otp (s : State) (l : FaultLoc) (i : Nat) : (pendFault s l i).otp = s.otp := rfl
@[simp] theorem pendFault_sec (s : State) (l : FaultLoc) (i : Nat) : (pendFault s l i).sec = s.sec := rfl
@[simp] theorem pendFault_trace (s : State) (l : FaultLoc) (i : Nat) : (pendFault s l i).trace = s.trace := rfl
@[simp] theorem pendFault_arch (s : State) (l : FaultLoc) (i : Nat) : (pendFault s l i).arch = s.arch := rfl
@[simp] theorem pendFault_tap (s : State) (l : FaultLoc) (i : Nat) : (pendFault s l i).tap = s.tap := rfl
@[simp] theorem pendFault_pins (s : State) (l : FaultLoc) (i : Nat) : (pendFault s l i).pins = s.pins := rfl
@[simp] theorem pendFault_pcie (s : State) (l : FaultLoc) (i : Nat) : (pendFault s l i).pcie = s.pcie := rfl
@[simp] theorem pendFault_regs (s : State) (l : FaultLoc) (i : Nat) : (pendFault s l i).regs = s.regs := rfl
@[simp] theorem pendFault_hiLatch (s : State) (l : FaultLoc) (i : Nat) : (pendFault s l i).hiLatch = s.hiLatch := rfl
@[simp] theorem pendFault_free (s : State) (l : FaultLoc) (i : Nat) : (pendFault s l i).free = s.free := rfl
@[simp] theorem pendFault_pending (s : State) (l : FaultLoc) (i : Nat) : (pendFault s l i).pending = s.pending := rfl
@[simp] theorem pendFault_fresh (s : State) (l : FaultLoc) (i : Nat) : (pendFault s l i).fresh = s.fresh := rfl
@[simp] theorem pendFault_served (s : State) (l : FaultLoc) (i : Nat) : (pendFault s l i).served = s.served := rfl
@[simp] theorem pendFault_out (s : State) (l : FaultLoc) (i : Nat) : (pendFault s l i).out = s.out := rfl

/-! ddrWrite -/

@[simp] theorem ddrWrite_time (s : State) (d a : Nat) (l : List Byte) : (ddrWrite s d a l).time = s.time := rfl
@[simp] theorem ddrWrite_line (s : State) (d a : Nat) (l : List Byte) : (ddrWrite s d a l).line = s.line := rfl
@[simp] theorem ddrWrite_pulse (s : State) (d a : Nat) (l : List Byte) : (ddrWrite s d a l).pulse = s.pulse := rfl
@[simp] theorem ddrWrite_ports (s : State) (d a : Nat) (l : List Byte) : (ddrWrite s d a l).ports = s.ports := rfl
@[simp] theorem ddrWrite_lanes (s : State) (d a : Nat) (l : List Byte) : (ddrWrite s d a l).lanes = s.lanes := rfl
@[simp] theorem ddrWrite_axes (s : State) (d a : Nat) (l : List Byte) : (ddrWrite s d a l).axes = s.axes := rfl
@[simp] theorem ddrWrite_digests (s : State) (d a : Nat) (l : List Byte) : (ddrWrite s d a l).digests = s.digests := rfl
@[simp] theorem ddrWrite_image (s : State) (d a : Nat) (l : List Byte) : (ddrWrite s d a l).image = s.image := rfl
@[simp] theorem ddrWrite_reflex (s : State) (d a : Nat) (l : List Byte) : (ddrWrite s d a l).reflex = s.reflex := rfl
@[simp] theorem ddrWrite_traffic (s : State) (d a : Nat) (l : List Byte) : (ddrWrite s d a l).traffic = s.traffic := rfl
@[simp] theorem ddrWrite_ddrc (s : State) (d a : Nat) (l : List Byte) : (ddrWrite s d a l).ddrc = s.ddrc := rfl
@[simp] theorem ddrWrite_chans (s : State) (d a : Nat) (l : List Byte) : (ddrWrite s d a l).chans = s.chans := rfl
@[simp] theorem ddrWrite_rings (s : State) (d a : Nat) (l : List Byte) : (ddrWrite s d a l).rings = s.rings := rfl
@[simp] theorem ddrWrite_mdies (s : State) (d a : Nat) (l : List Byte) : (ddrWrite s d a l).mdies = s.mdies := rfl
@[simp] theorem ddrWrite_twin (s : State) (d a : Nat) (l : List Byte) : (ddrWrite s d a l).twin = s.twin := rfl
@[simp] theorem ddrWrite_mirror (s : State) (d a : Nat) (l : List Byte) : (ddrWrite s d a l).mirror = s.mirror := rfl
@[simp] theorem ddrWrite_hlinks (s : State) (d a : Nat) (l : List Byte) : (ddrWrite s d a l).hlinks = s.hlinks := rfl
@[simp] theorem ddrWrite_sys (s : State) (d a : Nat) (l : List Byte) : (ddrWrite s d a l).sys = s.sys := rfl
@[simp] theorem ddrWrite_fifo (s : State) (d a : Nat) (l : List Byte) : (ddrWrite s d a l).fifo = s.fifo := rfl
@[simp] theorem ddrWrite_mgmtQ (s : State) (d a : Nat) (l : List Byte) : (ddrWrite s d a l).mgmtQ = s.mgmtQ := rfl
@[simp] theorem ddrWrite_hyithQ (s : State) (d a : Nat) (l : List Byte) : (ddrWrite s d a l).hyithQ = s.hyithQ := rfl
@[simp] theorem ddrWrite_relayed (s : State) (d a : Nat) (l : List Byte) : (ddrWrite s d a l).relayed = s.relayed := rfl
@[simp] theorem ddrWrite_txns (s : State) (d a : Nat) (l : List Byte) : (ddrWrite s d a l).txns = s.txns := rfl
@[simp] theorem ddrWrite_faults (s : State) (d a : Nat) (l : List Byte) : (ddrWrite s d a l).faults = s.faults := rfl
@[simp] theorem ddrWrite_vecs (s : State) (d a : Nat) (l : List Byte) : (ddrWrite s d a l).vecs = s.vecs := rfl
@[simp] theorem ddrWrite_rails (s : State) (d a : Nat) (l : List Byte) : (ddrWrite s d a l).rails = s.rails := rfl
@[simp] theorem ddrWrite_faultPend (s : State) (d a : Nat) (l : List Byte) : (ddrWrite s d a l).faultPend = s.faultPend := rfl
@[simp] theorem ddrWrite_safety (s : State) (d a : Nat) (l : List Byte) : (ddrWrite s d a l).safety = s.safety := rfl
@[simp] theorem ddrWrite_clock (s : State) (d a : Nat) (l : List Byte) : (ddrWrite s d a l).clock = s.clock := rfl
@[simp] theorem ddrWrite_trimRun (s : State) (d a : Nat) (l : List Byte) : (ddrWrite s d a l).trimRun = s.trimRun := rfl
@[simp] theorem ddrWrite_power (s : State) (d a : Nat) (l : List Byte) : (ddrWrite s d a l).power = s.power := rfl
@[simp] theorem ddrWrite_otp (s : State) (d a : Nat) (l : List Byte) : (ddrWrite s d a l).otp = s.otp := rfl
@[simp] theorem ddrWrite_sec (s : State) (d a : Nat) (l : List Byte) : (ddrWrite s d a l).sec = s.sec := rfl
@[simp] theorem ddrWrite_trace (s : State) (d a : Nat) (l : List Byte) : (ddrWrite s d a l).trace = s.trace := rfl
@[simp] theorem ddrWrite_arch (s : State) (d a : Nat) (l : List Byte) : (ddrWrite s d a l).arch = s.arch := rfl
@[simp] theorem ddrWrite_tap (s : State) (d a : Nat) (l : List Byte) : (ddrWrite s d a l).tap = s.tap := rfl
@[simp] theorem ddrWrite_pins (s : State) (d a : Nat) (l : List Byte) : (ddrWrite s d a l).pins = s.pins := rfl
@[simp] theorem ddrWrite_pcie (s : State) (d a : Nat) (l : List Byte) : (ddrWrite s d a l).pcie = s.pcie := rfl
@[simp] theorem ddrWrite_regs (s : State) (d a : Nat) (l : List Byte) : (ddrWrite s d a l).regs = s.regs := rfl
@[simp] theorem ddrWrite_hiLatch (s : State) (d a : Nat) (l : List Byte) : (ddrWrite s d a l).hiLatch = s.hiLatch := rfl
@[simp] theorem ddrWrite_free (s : State) (d a : Nat) (l : List Byte) : (ddrWrite s d a l).free = s.free := rfl
@[simp] theorem ddrWrite_pending (s : State) (d a : Nat) (l : List Byte) : (ddrWrite s d a l).pending = s.pending := rfl
@[simp] theorem ddrWrite_fresh (s : State) (d a : Nat) (l : List Byte) : (ddrWrite s d a l).fresh = s.fresh := rfl
@[simp] theorem ddrWrite_served (s : State) (d a : Nat) (l : List Byte) : (ddrWrite s d a l).served = s.served := rfl
@[simp] theorem ddrWrite_out (s : State) (d a : Nat) (l : List Byte) : (ddrWrite s d a l).out = s.out := rfl

/-! atNs -/

@[simp] theorem atNs_line (s : State) (t : Nat) : (atNs s t).line = s.line := rfl
@[simp] theorem atNs_pulse (s : State) (t : Nat) : (atNs s t).pulse = s.pulse := rfl
@[simp] theorem atNs_ports (s : State) (t : Nat) : (atNs s t).ports = s.ports := rfl
@[simp] theorem atNs_lanes (s : State) (t : Nat) : (atNs s t).lanes = s.lanes := rfl
@[simp] theorem atNs_axes (s : State) (t : Nat) : (atNs s t).axes = s.axes := rfl
@[simp] theorem atNs_digests (s : State) (t : Nat) : (atNs s t).digests = s.digests := rfl
@[simp] theorem atNs_image (s : State) (t : Nat) : (atNs s t).image = s.image := rfl
@[simp] theorem atNs_reflex (s : State) (t : Nat) : (atNs s t).reflex = s.reflex := rfl
@[simp] theorem atNs_traffic (s : State) (t : Nat) : (atNs s t).traffic = s.traffic := rfl
@[simp] theorem atNs_ddr (s : State) (t : Nat) : (atNs s t).ddr = s.ddr := rfl
@[simp] theorem atNs_ddrc (s : State) (t : Nat) : (atNs s t).ddrc = s.ddrc := rfl
@[simp] theorem atNs_chans (s : State) (t : Nat) : (atNs s t).chans = s.chans := rfl
@[simp] theorem atNs_rings (s : State) (t : Nat) : (atNs s t).rings = s.rings := rfl
@[simp] theorem atNs_mdies (s : State) (t : Nat) : (atNs s t).mdies = s.mdies := rfl
@[simp] theorem atNs_twin (s : State) (t : Nat) : (atNs s t).twin = s.twin := rfl
@[simp] theorem atNs_mirror (s : State) (t : Nat) : (atNs s t).mirror = s.mirror := rfl
@[simp] theorem atNs_hlinks (s : State) (t : Nat) : (atNs s t).hlinks = s.hlinks := rfl
@[simp] theorem atNs_sys (s : State) (t : Nat) : (atNs s t).sys = s.sys := rfl
@[simp] theorem atNs_fifo (s : State) (t : Nat) : (atNs s t).fifo = s.fifo := rfl
@[simp] theorem atNs_mgmtQ (s : State) (t : Nat) : (atNs s t).mgmtQ = s.mgmtQ := rfl
@[simp] theorem atNs_hyithQ (s : State) (t : Nat) : (atNs s t).hyithQ = s.hyithQ := rfl
@[simp] theorem atNs_relayed (s : State) (t : Nat) : (atNs s t).relayed = s.relayed := rfl
@[simp] theorem atNs_txns (s : State) (t : Nat) : (atNs s t).txns = s.txns := rfl
@[simp] theorem atNs_faults (s : State) (t : Nat) : (atNs s t).faults = s.faults := rfl
@[simp] theorem atNs_vecs (s : State) (t : Nat) : (atNs s t).vecs = s.vecs := rfl
@[simp] theorem atNs_rails (s : State) (t : Nat) : (atNs s t).rails = s.rails := rfl
@[simp] theorem atNs_faultPend (s : State) (t : Nat) : (atNs s t).faultPend = s.faultPend := rfl
@[simp] theorem atNs_safety (s : State) (t : Nat) : (atNs s t).safety = s.safety := rfl
@[simp] theorem atNs_clock (s : State) (t : Nat) : (atNs s t).clock = s.clock := rfl
@[simp] theorem atNs_trimRun (s : State) (t : Nat) : (atNs s t).trimRun = s.trimRun := rfl
@[simp] theorem atNs_power (s : State) (t : Nat) : (atNs s t).power = s.power := rfl
@[simp] theorem atNs_otp (s : State) (t : Nat) : (atNs s t).otp = s.otp := rfl
@[simp] theorem atNs_sec (s : State) (t : Nat) : (atNs s t).sec = s.sec := rfl
@[simp] theorem atNs_trace (s : State) (t : Nat) : (atNs s t).trace = s.trace := rfl
@[simp] theorem atNs_arch (s : State) (t : Nat) : (atNs s t).arch = s.arch := rfl
@[simp] theorem atNs_tap (s : State) (t : Nat) : (atNs s t).tap = s.tap := rfl
@[simp] theorem atNs_pins (s : State) (t : Nat) : (atNs s t).pins = s.pins := rfl
@[simp] theorem atNs_pcie (s : State) (t : Nat) : (atNs s t).pcie = s.pcie := rfl
@[simp] theorem atNs_regs (s : State) (t : Nat) : (atNs s t).regs = s.regs := rfl
@[simp] theorem atNs_hiLatch (s : State) (t : Nat) : (atNs s t).hiLatch = s.hiLatch := rfl
@[simp] theorem atNs_free (s : State) (t : Nat) : (atNs s t).free = s.free := rfl
@[simp] theorem atNs_pending (s : State) (t : Nat) : (atNs s t).pending = s.pending := rfl
@[simp] theorem atNs_fresh (s : State) (t : Nat) : (atNs s t).fresh = s.fresh := rfl
@[simp] theorem atNs_served (s : State) (t : Nat) : (atNs s t).served = s.served := rfl
@[simp] theorem atNs_out (s : State) (t : Nat) : (atNs s t).out = s.out := rfl

/-! at16 -/

@[simp] theorem at16_line (s : State) (t : Nat) : (at16 s t).line = s.line := rfl
@[simp] theorem at16_pulse (s : State) (t : Nat) : (at16 s t).pulse = s.pulse := rfl
@[simp] theorem at16_ports (s : State) (t : Nat) : (at16 s t).ports = s.ports := rfl
@[simp] theorem at16_lanes (s : State) (t : Nat) : (at16 s t).lanes = s.lanes := rfl
@[simp] theorem at16_axes (s : State) (t : Nat) : (at16 s t).axes = s.axes := rfl
@[simp] theorem at16_digests (s : State) (t : Nat) : (at16 s t).digests = s.digests := rfl
@[simp] theorem at16_image (s : State) (t : Nat) : (at16 s t).image = s.image := rfl
@[simp] theorem at16_reflex (s : State) (t : Nat) : (at16 s t).reflex = s.reflex := rfl
@[simp] theorem at16_traffic (s : State) (t : Nat) : (at16 s t).traffic = s.traffic := rfl
@[simp] theorem at16_ddr (s : State) (t : Nat) : (at16 s t).ddr = s.ddr := rfl
@[simp] theorem at16_ddrc (s : State) (t : Nat) : (at16 s t).ddrc = s.ddrc := rfl
@[simp] theorem at16_chans (s : State) (t : Nat) : (at16 s t).chans = s.chans := rfl
@[simp] theorem at16_rings (s : State) (t : Nat) : (at16 s t).rings = s.rings := rfl
@[simp] theorem at16_mdies (s : State) (t : Nat) : (at16 s t).mdies = s.mdies := rfl
@[simp] theorem at16_twin (s : State) (t : Nat) : (at16 s t).twin = s.twin := rfl
@[simp] theorem at16_mirror (s : State) (t : Nat) : (at16 s t).mirror = s.mirror := rfl
@[simp] theorem at16_hlinks (s : State) (t : Nat) : (at16 s t).hlinks = s.hlinks := rfl
@[simp] theorem at16_sys (s : State) (t : Nat) : (at16 s t).sys = s.sys := rfl
@[simp] theorem at16_fifo (s : State) (t : Nat) : (at16 s t).fifo = s.fifo := rfl
@[simp] theorem at16_mgmtQ (s : State) (t : Nat) : (at16 s t).mgmtQ = s.mgmtQ := rfl
@[simp] theorem at16_hyithQ (s : State) (t : Nat) : (at16 s t).hyithQ = s.hyithQ := rfl
@[simp] theorem at16_relayed (s : State) (t : Nat) : (at16 s t).relayed = s.relayed := rfl
@[simp] theorem at16_txns (s : State) (t : Nat) : (at16 s t).txns = s.txns := rfl
@[simp] theorem at16_faults (s : State) (t : Nat) : (at16 s t).faults = s.faults := rfl
@[simp] theorem at16_vecs (s : State) (t : Nat) : (at16 s t).vecs = s.vecs := rfl
@[simp] theorem at16_rails (s : State) (t : Nat) : (at16 s t).rails = s.rails := rfl
@[simp] theorem at16_faultPend (s : State) (t : Nat) : (at16 s t).faultPend = s.faultPend := rfl
@[simp] theorem at16_safety (s : State) (t : Nat) : (at16 s t).safety = s.safety := rfl
@[simp] theorem at16_clock (s : State) (t : Nat) : (at16 s t).clock = s.clock := rfl
@[simp] theorem at16_trimRun (s : State) (t : Nat) : (at16 s t).trimRun = s.trimRun := rfl
@[simp] theorem at16_power (s : State) (t : Nat) : (at16 s t).power = s.power := rfl
@[simp] theorem at16_otp (s : State) (t : Nat) : (at16 s t).otp = s.otp := rfl
@[simp] theorem at16_sec (s : State) (t : Nat) : (at16 s t).sec = s.sec := rfl
@[simp] theorem at16_trace (s : State) (t : Nat) : (at16 s t).trace = s.trace := rfl
@[simp] theorem at16_arch (s : State) (t : Nat) : (at16 s t).arch = s.arch := rfl
@[simp] theorem at16_tap (s : State) (t : Nat) : (at16 s t).tap = s.tap := rfl
@[simp] theorem at16_pins (s : State) (t : Nat) : (at16 s t).pins = s.pins := rfl
@[simp] theorem at16_pcie (s : State) (t : Nat) : (at16 s t).pcie = s.pcie := rfl
@[simp] theorem at16_regs (s : State) (t : Nat) : (at16 s t).regs = s.regs := rfl
@[simp] theorem at16_hiLatch (s : State) (t : Nat) : (at16 s t).hiLatch = s.hiLatch := rfl
@[simp] theorem at16_free (s : State) (t : Nat) : (at16 s t).free = s.free := rfl
@[simp] theorem at16_pending (s : State) (t : Nat) : (at16 s t).pending = s.pending := rfl
@[simp] theorem at16_fresh (s : State) (t : Nat) : (at16 s t).fresh = s.fresh := rfl
@[simp] theorem at16_served (s : State) (t : Nat) : (at16 s t).served = s.served := rfl
@[simp] theorem at16_out (s : State) (t : Nat) : (at16 s t).out = s.out := rfl

/-! modHlink -/

@[simp] theorem modHlink_time (s : State) (u : Nat) (f : HLink → HLink) : (modHlink s u f).time = s.time := rfl
@[simp] theorem modHlink_line (s : State) (u : Nat) (f : HLink → HLink) : (modHlink s u f).line = s.line := rfl
@[simp] theorem modHlink_pulse (s : State) (u : Nat) (f : HLink → HLink) : (modHlink s u f).pulse = s.pulse := rfl
@[simp] theorem modHlink_ports (s : State) (u : Nat) (f : HLink → HLink) : (modHlink s u f).ports = s.ports := rfl
@[simp] theorem modHlink_lanes (s : State) (u : Nat) (f : HLink → HLink) : (modHlink s u f).lanes = s.lanes := rfl
@[simp] theorem modHlink_axes (s : State) (u : Nat) (f : HLink → HLink) : (modHlink s u f).axes = s.axes := rfl
@[simp] theorem modHlink_digests (s : State) (u : Nat) (f : HLink → HLink) : (modHlink s u f).digests = s.digests := rfl
@[simp] theorem modHlink_image (s : State) (u : Nat) (f : HLink → HLink) : (modHlink s u f).image = s.image := rfl
@[simp] theorem modHlink_reflex (s : State) (u : Nat) (f : HLink → HLink) : (modHlink s u f).reflex = s.reflex := rfl
@[simp] theorem modHlink_traffic (s : State) (u : Nat) (f : HLink → HLink) : (modHlink s u f).traffic = s.traffic := rfl
@[simp] theorem modHlink_ddr (s : State) (u : Nat) (f : HLink → HLink) : (modHlink s u f).ddr = s.ddr := rfl
@[simp] theorem modHlink_ddrc (s : State) (u : Nat) (f : HLink → HLink) : (modHlink s u f).ddrc = s.ddrc := rfl
@[simp] theorem modHlink_chans (s : State) (u : Nat) (f : HLink → HLink) : (modHlink s u f).chans = s.chans := rfl
@[simp] theorem modHlink_rings (s : State) (u : Nat) (f : HLink → HLink) : (modHlink s u f).rings = s.rings := rfl
@[simp] theorem modHlink_mdies (s : State) (u : Nat) (f : HLink → HLink) : (modHlink s u f).mdies = s.mdies := rfl
@[simp] theorem modHlink_twin (s : State) (u : Nat) (f : HLink → HLink) : (modHlink s u f).twin = s.twin := rfl
@[simp] theorem modHlink_mirror (s : State) (u : Nat) (f : HLink → HLink) : (modHlink s u f).mirror = s.mirror := rfl
@[simp] theorem modHlink_sys (s : State) (u : Nat) (f : HLink → HLink) : (modHlink s u f).sys = s.sys := rfl
@[simp] theorem modHlink_fifo (s : State) (u : Nat) (f : HLink → HLink) : (modHlink s u f).fifo = s.fifo := rfl
@[simp] theorem modHlink_mgmtQ (s : State) (u : Nat) (f : HLink → HLink) : (modHlink s u f).mgmtQ = s.mgmtQ := rfl
@[simp] theorem modHlink_hyithQ (s : State) (u : Nat) (f : HLink → HLink) : (modHlink s u f).hyithQ = s.hyithQ := rfl
@[simp] theorem modHlink_relayed (s : State) (u : Nat) (f : HLink → HLink) : (modHlink s u f).relayed = s.relayed := rfl
@[simp] theorem modHlink_txns (s : State) (u : Nat) (f : HLink → HLink) : (modHlink s u f).txns = s.txns := rfl
@[simp] theorem modHlink_faults (s : State) (u : Nat) (f : HLink → HLink) : (modHlink s u f).faults = s.faults := rfl
@[simp] theorem modHlink_vecs (s : State) (u : Nat) (f : HLink → HLink) : (modHlink s u f).vecs = s.vecs := rfl
@[simp] theorem modHlink_rails (s : State) (u : Nat) (f : HLink → HLink) : (modHlink s u f).rails = s.rails := rfl
@[simp] theorem modHlink_faultPend (s : State) (u : Nat) (f : HLink → HLink) : (modHlink s u f).faultPend = s.faultPend := rfl
@[simp] theorem modHlink_safety (s : State) (u : Nat) (f : HLink → HLink) : (modHlink s u f).safety = s.safety := rfl
@[simp] theorem modHlink_clock (s : State) (u : Nat) (f : HLink → HLink) : (modHlink s u f).clock = s.clock := rfl
@[simp] theorem modHlink_trimRun (s : State) (u : Nat) (f : HLink → HLink) : (modHlink s u f).trimRun = s.trimRun := rfl
@[simp] theorem modHlink_power (s : State) (u : Nat) (f : HLink → HLink) : (modHlink s u f).power = s.power := rfl
@[simp] theorem modHlink_otp (s : State) (u : Nat) (f : HLink → HLink) : (modHlink s u f).otp = s.otp := rfl
@[simp] theorem modHlink_sec (s : State) (u : Nat) (f : HLink → HLink) : (modHlink s u f).sec = s.sec := rfl
@[simp] theorem modHlink_trace (s : State) (u : Nat) (f : HLink → HLink) : (modHlink s u f).trace = s.trace := rfl
@[simp] theorem modHlink_arch (s : State) (u : Nat) (f : HLink → HLink) : (modHlink s u f).arch = s.arch := rfl
@[simp] theorem modHlink_tap (s : State) (u : Nat) (f : HLink → HLink) : (modHlink s u f).tap = s.tap := rfl
@[simp] theorem modHlink_pins (s : State) (u : Nat) (f : HLink → HLink) : (modHlink s u f).pins = s.pins := rfl
@[simp] theorem modHlink_pcie (s : State) (u : Nat) (f : HLink → HLink) : (modHlink s u f).pcie = s.pcie := rfl
@[simp] theorem modHlink_regs (s : State) (u : Nat) (f : HLink → HLink) : (modHlink s u f).regs = s.regs := rfl
@[simp] theorem modHlink_hiLatch (s : State) (u : Nat) (f : HLink → HLink) : (modHlink s u f).hiLatch = s.hiLatch := rfl
@[simp] theorem modHlink_free (s : State) (u : Nat) (f : HLink → HLink) : (modHlink s u f).free = s.free := rfl
@[simp] theorem modHlink_pending (s : State) (u : Nat) (f : HLink → HLink) : (modHlink s u f).pending = s.pending := rfl
@[simp] theorem modHlink_fresh (s : State) (u : Nat) (f : HLink → HLink) : (modHlink s u f).fresh = s.fresh := rfl
@[simp] theorem modHlink_served (s : State) (u : Nat) (f : HLink → HLink) : (modHlink s u f).served = s.served := rfl
@[simp] theorem modHlink_out (s : State) (u : Nat) (f : HLink → HLink) : (modHlink s u f).out = s.out := rfl

/-! modChan -/

@[simp] theorem modChan_time (s : State) (m : Nat) (f : Chan → Chan) : (modChan s m f).time = s.time := rfl
@[simp] theorem modChan_line (s : State) (m : Nat) (f : Chan → Chan) : (modChan s m f).line = s.line := rfl
@[simp] theorem modChan_pulse (s : State) (m : Nat) (f : Chan → Chan) : (modChan s m f).pulse = s.pulse := rfl
@[simp] theorem modChan_ports (s : State) (m : Nat) (f : Chan → Chan) : (modChan s m f).ports = s.ports := rfl
@[simp] theorem modChan_lanes (s : State) (m : Nat) (f : Chan → Chan) : (modChan s m f).lanes = s.lanes := rfl
@[simp] theorem modChan_axes (s : State) (m : Nat) (f : Chan → Chan) : (modChan s m f).axes = s.axes := rfl
@[simp] theorem modChan_digests (s : State) (m : Nat) (f : Chan → Chan) : (modChan s m f).digests = s.digests := rfl
@[simp] theorem modChan_image (s : State) (m : Nat) (f : Chan → Chan) : (modChan s m f).image = s.image := rfl
@[simp] theorem modChan_reflex (s : State) (m : Nat) (f : Chan → Chan) : (modChan s m f).reflex = s.reflex := rfl
@[simp] theorem modChan_traffic (s : State) (m : Nat) (f : Chan → Chan) : (modChan s m f).traffic = s.traffic := rfl
@[simp] theorem modChan_ddr (s : State) (m : Nat) (f : Chan → Chan) : (modChan s m f).ddr = s.ddr := rfl
@[simp] theorem modChan_ddrc (s : State) (m : Nat) (f : Chan → Chan) : (modChan s m f).ddrc = s.ddrc := rfl
@[simp] theorem modChan_rings (s : State) (m : Nat) (f : Chan → Chan) : (modChan s m f).rings = s.rings := rfl
@[simp] theorem modChan_mdies (s : State) (m : Nat) (f : Chan → Chan) : (modChan s m f).mdies = s.mdies := rfl
@[simp] theorem modChan_twin (s : State) (m : Nat) (f : Chan → Chan) : (modChan s m f).twin = s.twin := rfl
@[simp] theorem modChan_mirror (s : State) (m : Nat) (f : Chan → Chan) : (modChan s m f).mirror = s.mirror := rfl
@[simp] theorem modChan_hlinks (s : State) (m : Nat) (f : Chan → Chan) : (modChan s m f).hlinks = s.hlinks := rfl
@[simp] theorem modChan_sys (s : State) (m : Nat) (f : Chan → Chan) : (modChan s m f).sys = s.sys := rfl
@[simp] theorem modChan_fifo (s : State) (m : Nat) (f : Chan → Chan) : (modChan s m f).fifo = s.fifo := rfl
@[simp] theorem modChan_mgmtQ (s : State) (m : Nat) (f : Chan → Chan) : (modChan s m f).mgmtQ = s.mgmtQ := rfl
@[simp] theorem modChan_hyithQ (s : State) (m : Nat) (f : Chan → Chan) : (modChan s m f).hyithQ = s.hyithQ := rfl
@[simp] theorem modChan_relayed (s : State) (m : Nat) (f : Chan → Chan) : (modChan s m f).relayed = s.relayed := rfl
@[simp] theorem modChan_txns (s : State) (m : Nat) (f : Chan → Chan) : (modChan s m f).txns = s.txns := rfl
@[simp] theorem modChan_faults (s : State) (m : Nat) (f : Chan → Chan) : (modChan s m f).faults = s.faults := rfl
@[simp] theorem modChan_vecs (s : State) (m : Nat) (f : Chan → Chan) : (modChan s m f).vecs = s.vecs := rfl
@[simp] theorem modChan_rails (s : State) (m : Nat) (f : Chan → Chan) : (modChan s m f).rails = s.rails := rfl
@[simp] theorem modChan_faultPend (s : State) (m : Nat) (f : Chan → Chan) : (modChan s m f).faultPend = s.faultPend := rfl
@[simp] theorem modChan_safety (s : State) (m : Nat) (f : Chan → Chan) : (modChan s m f).safety = s.safety := rfl
@[simp] theorem modChan_clock (s : State) (m : Nat) (f : Chan → Chan) : (modChan s m f).clock = s.clock := rfl
@[simp] theorem modChan_trimRun (s : State) (m : Nat) (f : Chan → Chan) : (modChan s m f).trimRun = s.trimRun := rfl
@[simp] theorem modChan_power (s : State) (m : Nat) (f : Chan → Chan) : (modChan s m f).power = s.power := rfl
@[simp] theorem modChan_otp (s : State) (m : Nat) (f : Chan → Chan) : (modChan s m f).otp = s.otp := rfl
@[simp] theorem modChan_sec (s : State) (m : Nat) (f : Chan → Chan) : (modChan s m f).sec = s.sec := rfl
@[simp] theorem modChan_trace (s : State) (m : Nat) (f : Chan → Chan) : (modChan s m f).trace = s.trace := rfl
@[simp] theorem modChan_arch (s : State) (m : Nat) (f : Chan → Chan) : (modChan s m f).arch = s.arch := rfl
@[simp] theorem modChan_tap (s : State) (m : Nat) (f : Chan → Chan) : (modChan s m f).tap = s.tap := rfl
@[simp] theorem modChan_pins (s : State) (m : Nat) (f : Chan → Chan) : (modChan s m f).pins = s.pins := rfl
@[simp] theorem modChan_pcie (s : State) (m : Nat) (f : Chan → Chan) : (modChan s m f).pcie = s.pcie := rfl
@[simp] theorem modChan_regs (s : State) (m : Nat) (f : Chan → Chan) : (modChan s m f).regs = s.regs := rfl
@[simp] theorem modChan_hiLatch (s : State) (m : Nat) (f : Chan → Chan) : (modChan s m f).hiLatch = s.hiLatch := rfl
@[simp] theorem modChan_free (s : State) (m : Nat) (f : Chan → Chan) : (modChan s m f).free = s.free := rfl
@[simp] theorem modChan_pending (s : State) (m : Nat) (f : Chan → Chan) : (modChan s m f).pending = s.pending := rfl
@[simp] theorem modChan_fresh (s : State) (m : Nat) (f : Chan → Chan) : (modChan s m f).fresh = s.fresh := rfl
@[simp] theorem modChan_served (s : State) (m : Nat) (f : Chan → Chan) : (modChan s m f).served = s.served := rfl
@[simp] theorem modChan_out (s : State) (m : Nat) (f : Chan → Chan) : (modChan s m f).out = s.out := rfl

/-! setFlow -/

@[simp] theorem setFlow_time (s : State) (f : Nat) (c : Ctx) : (setFlow s f c).time = s.time := rfl
@[simp] theorem setFlow_line (s : State) (f : Nat) (c : Ctx) : (setFlow s f c).line = s.line := rfl
@[simp] theorem setFlow_pulse (s : State) (f : Nat) (c : Ctx) : (setFlow s f c).pulse = s.pulse := rfl
@[simp] theorem setFlow_ports (s : State) (f : Nat) (c : Ctx) : (setFlow s f c).ports = s.ports := rfl
@[simp] theorem setFlow_lanes (s : State) (f : Nat) (c : Ctx) : (setFlow s f c).lanes = s.lanes := rfl
@[simp] theorem setFlow_axes (s : State) (f : Nat) (c : Ctx) : (setFlow s f c).axes = s.axes := rfl
@[simp] theorem setFlow_digests (s : State) (f : Nat) (c : Ctx) : (setFlow s f c).digests = s.digests := rfl
@[simp] theorem setFlow_image (s : State) (f : Nat) (c : Ctx) : (setFlow s f c).image = s.image := rfl
@[simp] theorem setFlow_reflex (s : State) (f : Nat) (c : Ctx) : (setFlow s f c).reflex = s.reflex := rfl
@[simp] theorem setFlow_ddr (s : State) (f : Nat) (c : Ctx) : (setFlow s f c).ddr = s.ddr := rfl
@[simp] theorem setFlow_ddrc (s : State) (f : Nat) (c : Ctx) : (setFlow s f c).ddrc = s.ddrc := rfl
@[simp] theorem setFlow_chans (s : State) (f : Nat) (c : Ctx) : (setFlow s f c).chans = s.chans := rfl
@[simp] theorem setFlow_rings (s : State) (f : Nat) (c : Ctx) : (setFlow s f c).rings = s.rings := rfl
@[simp] theorem setFlow_mdies (s : State) (f : Nat) (c : Ctx) : (setFlow s f c).mdies = s.mdies := rfl
@[simp] theorem setFlow_twin (s : State) (f : Nat) (c : Ctx) : (setFlow s f c).twin = s.twin := rfl
@[simp] theorem setFlow_mirror (s : State) (f : Nat) (c : Ctx) : (setFlow s f c).mirror = s.mirror := rfl
@[simp] theorem setFlow_hlinks (s : State) (f : Nat) (c : Ctx) : (setFlow s f c).hlinks = s.hlinks := rfl
@[simp] theorem setFlow_sys (s : State) (f : Nat) (c : Ctx) : (setFlow s f c).sys = s.sys := rfl
@[simp] theorem setFlow_fifo (s : State) (f : Nat) (c : Ctx) : (setFlow s f c).fifo = s.fifo := rfl
@[simp] theorem setFlow_mgmtQ (s : State) (f : Nat) (c : Ctx) : (setFlow s f c).mgmtQ = s.mgmtQ := rfl
@[simp] theorem setFlow_hyithQ (s : State) (f : Nat) (c : Ctx) : (setFlow s f c).hyithQ = s.hyithQ := rfl
@[simp] theorem setFlow_relayed (s : State) (f : Nat) (c : Ctx) : (setFlow s f c).relayed = s.relayed := rfl
@[simp] theorem setFlow_txns (s : State) (f : Nat) (c : Ctx) : (setFlow s f c).txns = s.txns := rfl
@[simp] theorem setFlow_faults (s : State) (f : Nat) (c : Ctx) : (setFlow s f c).faults = s.faults := rfl
@[simp] theorem setFlow_vecs (s : State) (f : Nat) (c : Ctx) : (setFlow s f c).vecs = s.vecs := rfl
@[simp] theorem setFlow_rails (s : State) (f : Nat) (c : Ctx) : (setFlow s f c).rails = s.rails := rfl
@[simp] theorem setFlow_faultPend (s : State) (f : Nat) (c : Ctx) : (setFlow s f c).faultPend = s.faultPend := rfl
@[simp] theorem setFlow_safety (s : State) (f : Nat) (c : Ctx) : (setFlow s f c).safety = s.safety := rfl
@[simp] theorem setFlow_clock (s : State) (f : Nat) (c : Ctx) : (setFlow s f c).clock = s.clock := rfl
@[simp] theorem setFlow_trimRun (s : State) (f : Nat) (c : Ctx) : (setFlow s f c).trimRun = s.trimRun := rfl
@[simp] theorem setFlow_power (s : State) (f : Nat) (c : Ctx) : (setFlow s f c).power = s.power := rfl
@[simp] theorem setFlow_otp (s : State) (f : Nat) (c : Ctx) : (setFlow s f c).otp = s.otp := rfl
@[simp] theorem setFlow_sec (s : State) (f : Nat) (c : Ctx) : (setFlow s f c).sec = s.sec := rfl
@[simp] theorem setFlow_trace (s : State) (f : Nat) (c : Ctx) : (setFlow s f c).trace = s.trace := rfl
@[simp] theorem setFlow_arch (s : State) (f : Nat) (c : Ctx) : (setFlow s f c).arch = s.arch := rfl
@[simp] theorem setFlow_tap (s : State) (f : Nat) (c : Ctx) : (setFlow s f c).tap = s.tap := rfl
@[simp] theorem setFlow_pins (s : State) (f : Nat) (c : Ctx) : (setFlow s f c).pins = s.pins := rfl
@[simp] theorem setFlow_pcie (s : State) (f : Nat) (c : Ctx) : (setFlow s f c).pcie = s.pcie := rfl
@[simp] theorem setFlow_regs (s : State) (f : Nat) (c : Ctx) : (setFlow s f c).regs = s.regs := rfl
@[simp] theorem setFlow_hiLatch (s : State) (f : Nat) (c : Ctx) : (setFlow s f c).hiLatch = s.hiLatch := rfl
@[simp] theorem setFlow_free (s : State) (f : Nat) (c : Ctx) : (setFlow s f c).free = s.free := rfl
@[simp] theorem setFlow_pending (s : State) (f : Nat) (c : Ctx) : (setFlow s f c).pending = s.pending := rfl
@[simp] theorem setFlow_fresh (s : State) (f : Nat) (c : Ctx) : (setFlow s f c).fresh = s.fresh := rfl
@[simp] theorem setFlow_served (s : State) (f : Nat) (c : Ctx) : (setFlow s f c).served = s.served := rfl
@[simp] theorem setFlow_out (s : State) (f : Nat) (c : Ctx) : (setFlow s f c).out = s.out := rfl

/-! modLane -/

@[simp] theorem modLane_time (s : State) (q : Nat) (f : Lane → Lane) : (modLane s q f).time = s.time := rfl
@[simp] theorem modLane_line (s : State) (q : Nat) (f : Lane → Lane) : (modLane s q f).line = s.line := rfl
@[simp] theorem modLane_ports (s : State) (q : Nat) (f : Lane → Lane) : (modLane s q f).ports = s.ports := rfl
@[simp] theorem modLane_axes (s : State) (q : Nat) (f : Lane → Lane) : (modLane s q f).axes = s.axes := rfl
@[simp] theorem modLane_ddr (s : State) (q : Nat) (f : Lane → Lane) : (modLane s q f).ddr = s.ddr := rfl
@[simp] theorem modLane_twin (s : State) (q : Nat) (f : Lane → Lane) : (modLane s q f).twin = s.twin := rfl
@[simp] theorem modLane_sys (s : State) (q : Nat) (f : Lane → Lane) : (modLane s q f).sys = s.sys := rfl
@[simp] theorem modLane_fifo (s : State) (q : Nat) (f : Lane → Lane) : (modLane s q f).fifo = s.fifo := rfl
@[simp] theorem modLane_txns (s : State) (q : Nat) (f : Lane → Lane) : (modLane s q f).txns = s.txns := rfl
@[simp] theorem modLane_power (s : State) (q : Nat) (f : Lane → Lane) : (modLane s q f).power = s.power := rfl
@[simp] theorem modLane_otp (s : State) (q : Nat) (f : Lane → Lane) : (modLane s q f).otp = s.otp := rfl
@[simp] theorem modLane_sec (s : State) (q : Nat) (f : Lane → Lane) : (modLane s q f).sec = s.sec := rfl
@[simp] theorem modLane_clock (s : State) (q : Nat) (f : Lane → Lane) : (modLane s q f).clock = s.clock := rfl
@[simp] theorem modLane_regs (s : State) (q : Nat) (f : Lane → Lane) : (modLane s q f).regs = s.regs := rfl
@[simp] theorem modLane_pending (s : State) (q : Nat) (f : Lane → Lane) : (modLane s q f).pending = s.pending := rfl
@[simp] theorem modLane_fresh (s : State) (q : Nat) (f : Lane → Lane) : (modLane s q f).fresh = s.fresh := rfl
@[simp] theorem modLane_served (s : State) (q : Nat) (f : Lane → Lane) : (modLane s q f).served = s.served := rfl
@[simp] theorem modLane_out (s : State) (q : Nat) (f : Lane → Lane) : (modLane s q f).out = s.out := rfl
@[simp] theorem modLane_traffic (s : State) (q : Nat) (f : Lane → Lane) : (modLane s q f).traffic = s.traffic := rfl
@[simp] theorem modLane_safety (s : State) (q : Nat) (f : Lane → Lane) : (modLane s q f).safety = s.safety := rfl

/-! modDigest -/

@[simp] theorem modDigest_time (s : State) (r : Nat) (f : Digest → Digest) : (modDigest s r f).time = s.time := rfl
@[simp] theorem modDigest_line (s : State) (r : Nat) (f : Digest → Digest) : (modDigest s r f).line = s.line := rfl
@[simp] theorem modDigest_ports (s : State) (r : Nat) (f : Digest → Digest) : (modDigest s r f).ports = s.ports := rfl
@[simp] theorem modDigest_axes (s : State) (r : Nat) (f : Digest → Digest) : (modDigest s r f).axes = s.axes := rfl
@[simp] theorem modDigest_ddr (s : State) (r : Nat) (f : Digest → Digest) : (modDigest s r f).ddr = s.ddr := rfl
@[simp] theorem modDigest_twin (s : State) (r : Nat) (f : Digest → Digest) : (modDigest s r f).twin = s.twin := rfl
@[simp] theorem modDigest_sys (s : State) (r : Nat) (f : Digest → Digest) : (modDigest s r f).sys = s.sys := rfl
@[simp] theorem modDigest_fifo (s : State) (r : Nat) (f : Digest → Digest) : (modDigest s r f).fifo = s.fifo := rfl
@[simp] theorem modDigest_txns (s : State) (r : Nat) (f : Digest → Digest) : (modDigest s r f).txns = s.txns := rfl
@[simp] theorem modDigest_power (s : State) (r : Nat) (f : Digest → Digest) : (modDigest s r f).power = s.power := rfl
@[simp] theorem modDigest_otp (s : State) (r : Nat) (f : Digest → Digest) : (modDigest s r f).otp = s.otp := rfl
@[simp] theorem modDigest_sec (s : State) (r : Nat) (f : Digest → Digest) : (modDigest s r f).sec = s.sec := rfl
@[simp] theorem modDigest_clock (s : State) (r : Nat) (f : Digest → Digest) : (modDigest s r f).clock = s.clock := rfl
@[simp] theorem modDigest_regs (s : State) (r : Nat) (f : Digest → Digest) : (modDigest s r f).regs = s.regs := rfl
@[simp] theorem modDigest_pending (s : State) (r : Nat) (f : Digest → Digest) : (modDigest s r f).pending = s.pending := rfl
@[simp] theorem modDigest_fresh (s : State) (r : Nat) (f : Digest → Digest) : (modDigest s r f).fresh = s.fresh := rfl
@[simp] theorem modDigest_served (s : State) (r : Nat) (f : Digest → Digest) : (modDigest s r f).served = s.served := rfl
@[simp] theorem modDigest_out (s : State) (r : Nat) (f : Digest → Digest) : (modDigest s r f).out = s.out := rfl
@[simp] theorem modDigest_traffic (s : State) (r : Nat) (f : Digest → Digest) : (modDigest s r f).traffic = s.traffic := rfl
@[simp] theorem modDigest_safety (s : State) (r : Nat) (f : Digest → Digest) : (modDigest s r f).safety = s.safety := rfl

/-! modDdrChan -/

@[simp] theorem modDdrChan_time (s : State) (d : Nat) (f : DdrChan → DdrChan) : (modDdrChan s d f).time = s.time := rfl
@[simp] theorem modDdrChan_line (s : State) (d : Nat) (f : DdrChan → DdrChan) : (modDdrChan s d f).line = s.line := rfl
@[simp] theorem modDdrChan_ports (s : State) (d : Nat) (f : DdrChan → DdrChan) : (modDdrChan s d f).ports = s.ports := rfl
@[simp] theorem modDdrChan_axes (s : State) (d : Nat) (f : DdrChan → DdrChan) : (modDdrChan s d f).axes = s.axes := rfl
@[simp] theorem modDdrChan_ddr (s : State) (d : Nat) (f : DdrChan → DdrChan) : (modDdrChan s d f).ddr = s.ddr := rfl
@[simp] theorem modDdrChan_twin (s : State) (d : Nat) (f : DdrChan → DdrChan) : (modDdrChan s d f).twin = s.twin := rfl
@[simp] theorem modDdrChan_sys (s : State) (d : Nat) (f : DdrChan → DdrChan) : (modDdrChan s d f).sys = s.sys := rfl
@[simp] theorem modDdrChan_fifo (s : State) (d : Nat) (f : DdrChan → DdrChan) : (modDdrChan s d f).fifo = s.fifo := rfl
@[simp] theorem modDdrChan_txns (s : State) (d : Nat) (f : DdrChan → DdrChan) : (modDdrChan s d f).txns = s.txns := rfl
@[simp] theorem modDdrChan_power (s : State) (d : Nat) (f : DdrChan → DdrChan) : (modDdrChan s d f).power = s.power := rfl
@[simp] theorem modDdrChan_otp (s : State) (d : Nat) (f : DdrChan → DdrChan) : (modDdrChan s d f).otp = s.otp := rfl
@[simp] theorem modDdrChan_sec (s : State) (d : Nat) (f : DdrChan → DdrChan) : (modDdrChan s d f).sec = s.sec := rfl
@[simp] theorem modDdrChan_clock (s : State) (d : Nat) (f : DdrChan → DdrChan) : (modDdrChan s d f).clock = s.clock := rfl
@[simp] theorem modDdrChan_regs (s : State) (d : Nat) (f : DdrChan → DdrChan) : (modDdrChan s d f).regs = s.regs := rfl
@[simp] theorem modDdrChan_pending (s : State) (d : Nat) (f : DdrChan → DdrChan) : (modDdrChan s d f).pending = s.pending := rfl
@[simp] theorem modDdrChan_fresh (s : State) (d : Nat) (f : DdrChan → DdrChan) : (modDdrChan s d f).fresh = s.fresh := rfl
@[simp] theorem modDdrChan_served (s : State) (d : Nat) (f : DdrChan → DdrChan) : (modDdrChan s d f).served = s.served := rfl
@[simp] theorem modDdrChan_out (s : State) (d : Nat) (f : DdrChan → DdrChan) : (modDdrChan s d f).out = s.out := rfl
@[simp] theorem modDdrChan_traffic (s : State) (d : Nat) (f : DdrChan → DdrChan) : (modDdrChan s d f).traffic = s.traffic := rfl
@[simp] theorem modDdrChan_safety (s : State) (d : Nat) (f : DdrChan → DdrChan) : (modDdrChan s d f).safety = s.safety := rfl

/-! setQcfg -/

@[simp] theorem setQcfg_time (s : State) (q : Nat) (c : QCfg) : (setQcfg s q c).time = s.time := rfl
@[simp] theorem setQcfg_line (s : State) (q : Nat) (c : QCfg) : (setQcfg s q c).line = s.line := rfl
@[simp] theorem setQcfg_ports (s : State) (q : Nat) (c : QCfg) : (setQcfg s q c).ports = s.ports := rfl
@[simp] theorem setQcfg_axes (s : State) (q : Nat) (c : QCfg) : (setQcfg s q c).axes = s.axes := rfl
@[simp] theorem setQcfg_ddr (s : State) (q : Nat) (c : QCfg) : (setQcfg s q c).ddr = s.ddr := rfl
@[simp] theorem setQcfg_twin (s : State) (q : Nat) (c : QCfg) : (setQcfg s q c).twin = s.twin := rfl
@[simp] theorem setQcfg_sys (s : State) (q : Nat) (c : QCfg) : (setQcfg s q c).sys = s.sys := rfl
@[simp] theorem setQcfg_fifo (s : State) (q : Nat) (c : QCfg) : (setQcfg s q c).fifo = s.fifo := rfl
@[simp] theorem setQcfg_txns (s : State) (q : Nat) (c : QCfg) : (setQcfg s q c).txns = s.txns := rfl
@[simp] theorem setQcfg_power (s : State) (q : Nat) (c : QCfg) : (setQcfg s q c).power = s.power := rfl
@[simp] theorem setQcfg_otp (s : State) (q : Nat) (c : QCfg) : (setQcfg s q c).otp = s.otp := rfl
@[simp] theorem setQcfg_sec (s : State) (q : Nat) (c : QCfg) : (setQcfg s q c).sec = s.sec := rfl
@[simp] theorem setQcfg_clock (s : State) (q : Nat) (c : QCfg) : (setQcfg s q c).clock = s.clock := rfl
@[simp] theorem setQcfg_regs (s : State) (q : Nat) (c : QCfg) : (setQcfg s q c).regs = s.regs := rfl
@[simp] theorem setQcfg_pending (s : State) (q : Nat) (c : QCfg) : (setQcfg s q c).pending = s.pending := rfl
@[simp] theorem setQcfg_fresh (s : State) (q : Nat) (c : QCfg) : (setQcfg s q c).fresh = s.fresh := rfl
@[simp] theorem setQcfg_served (s : State) (q : Nat) (c : QCfg) : (setQcfg s q c).served = s.served := rfl
@[simp] theorem setQcfg_out (s : State) (q : Nat) (c : QCfg) : (setQcfg s q c).out = s.out := rfl
@[simp] theorem setQcfg_safety (s : State) (q : Nat) (c : QCfg) : (setQcfg s q c).safety = s.safety := rfl

/-! setQdyn -/

@[simp] theorem setQdyn_time (s : State) (q : Nat) (d : QDyn) : (setQdyn s q d).time = s.time := rfl
@[simp] theorem setQdyn_line (s : State) (q : Nat) (d : QDyn) : (setQdyn s q d).line = s.line := rfl
@[simp] theorem setQdyn_ports (s : State) (q : Nat) (d : QDyn) : (setQdyn s q d).ports = s.ports := rfl
@[simp] theorem setQdyn_axes (s : State) (q : Nat) (d : QDyn) : (setQdyn s q d).axes = s.axes := rfl
@[simp] theorem setQdyn_ddr (s : State) (q : Nat) (d : QDyn) : (setQdyn s q d).ddr = s.ddr := rfl
@[simp] theorem setQdyn_twin (s : State) (q : Nat) (d : QDyn) : (setQdyn s q d).twin = s.twin := rfl
@[simp] theorem setQdyn_sys (s : State) (q : Nat) (d : QDyn) : (setQdyn s q d).sys = s.sys := rfl
@[simp] theorem setQdyn_fifo (s : State) (q : Nat) (d : QDyn) : (setQdyn s q d).fifo = s.fifo := rfl
@[simp] theorem setQdyn_txns (s : State) (q : Nat) (d : QDyn) : (setQdyn s q d).txns = s.txns := rfl
@[simp] theorem setQdyn_power (s : State) (q : Nat) (d : QDyn) : (setQdyn s q d).power = s.power := rfl
@[simp] theorem setQdyn_otp (s : State) (q : Nat) (d : QDyn) : (setQdyn s q d).otp = s.otp := rfl
@[simp] theorem setQdyn_sec (s : State) (q : Nat) (d : QDyn) : (setQdyn s q d).sec = s.sec := rfl
@[simp] theorem setQdyn_clock (s : State) (q : Nat) (d : QDyn) : (setQdyn s q d).clock = s.clock := rfl
@[simp] theorem setQdyn_regs (s : State) (q : Nat) (d : QDyn) : (setQdyn s q d).regs = s.regs := rfl
@[simp] theorem setQdyn_pending (s : State) (q : Nat) (d : QDyn) : (setQdyn s q d).pending = s.pending := rfl
@[simp] theorem setQdyn_fresh (s : State) (q : Nat) (d : QDyn) : (setQdyn s q d).fresh = s.fresh := rfl
@[simp] theorem setQdyn_served (s : State) (q : Nat) (d : QDyn) : (setQdyn s q d).served = s.served := rfl
@[simp] theorem setQdyn_out (s : State) (q : Nat) (d : QDyn) : (setQdyn s q d).out = s.out := rfl
@[simp] theorem setQdyn_safety (s : State) (q : Nat) (d : QDyn) : (setQdyn s q d).safety = s.safety := rfl

/-! setSvcDyn -/

@[simp] theorem setSvcDyn_time (s : State) (p k : Nat) (d : SvcDyn) : (setSvcDyn s p k d).time = s.time := rfl
@[simp] theorem setSvcDyn_line (s : State) (p k : Nat) (d : SvcDyn) : (setSvcDyn s p k d).line = s.line := rfl
@[simp] theorem setSvcDyn_ports (s : State) (p k : Nat) (d : SvcDyn) : (setSvcDyn s p k d).ports = s.ports := rfl
@[simp] theorem setSvcDyn_axes (s : State) (p k : Nat) (d : SvcDyn) : (setSvcDyn s p k d).axes = s.axes := rfl
@[simp] theorem setSvcDyn_ddr (s : State) (p k : Nat) (d : SvcDyn) : (setSvcDyn s p k d).ddr = s.ddr := rfl
@[simp] theorem setSvcDyn_twin (s : State) (p k : Nat) (d : SvcDyn) : (setSvcDyn s p k d).twin = s.twin := rfl
@[simp] theorem setSvcDyn_sys (s : State) (p k : Nat) (d : SvcDyn) : (setSvcDyn s p k d).sys = s.sys := rfl
@[simp] theorem setSvcDyn_fifo (s : State) (p k : Nat) (d : SvcDyn) : (setSvcDyn s p k d).fifo = s.fifo := rfl
@[simp] theorem setSvcDyn_txns (s : State) (p k : Nat) (d : SvcDyn) : (setSvcDyn s p k d).txns = s.txns := rfl
@[simp] theorem setSvcDyn_power (s : State) (p k : Nat) (d : SvcDyn) : (setSvcDyn s p k d).power = s.power := rfl
@[simp] theorem setSvcDyn_otp (s : State) (p k : Nat) (d : SvcDyn) : (setSvcDyn s p k d).otp = s.otp := rfl
@[simp] theorem setSvcDyn_sec (s : State) (p k : Nat) (d : SvcDyn) : (setSvcDyn s p k d).sec = s.sec := rfl
@[simp] theorem setSvcDyn_clock (s : State) (p k : Nat) (d : SvcDyn) : (setSvcDyn s p k d).clock = s.clock := rfl
@[simp] theorem setSvcDyn_regs (s : State) (p k : Nat) (d : SvcDyn) : (setSvcDyn s p k d).regs = s.regs := rfl
@[simp] theorem setSvcDyn_pending (s : State) (p k : Nat) (d : SvcDyn) : (setSvcDyn s p k d).pending = s.pending := rfl
@[simp] theorem setSvcDyn_fresh (s : State) (p k : Nat) (d : SvcDyn) : (setSvcDyn s p k d).fresh = s.fresh := rfl
@[simp] theorem setSvcDyn_served (s : State) (p k : Nat) (d : SvcDyn) : (setSvcDyn s p k d).served = s.served := rfl
@[simp] theorem setSvcDyn_out (s : State) (p k : Nat) (d : SvcDyn) : (setSvcDyn s p k d).out = s.out := rfl
@[simp] theorem setSvcDyn_safety (s : State) (p k : Nat) (d : SvcDyn) : (setSvcDyn s p k d).safety = s.safety := rfl

/-! setCopies -/

@[simp] theorem setCopies_time (s : State) (q : Nat) (l : List Copy) : (setCopies s q l).time = s.time := rfl
@[simp] theorem setCopies_line (s : State) (q : Nat) (l : List Copy) : (setCopies s q l).line = s.line := rfl
@[simp] theorem setCopies_ports (s : State) (q : Nat) (l : List Copy) : (setCopies s q l).ports = s.ports := rfl
@[simp] theorem setCopies_axes (s : State) (q : Nat) (l : List Copy) : (setCopies s q l).axes = s.axes := rfl
@[simp] theorem setCopies_ddr (s : State) (q : Nat) (l : List Copy) : (setCopies s q l).ddr = s.ddr := rfl
@[simp] theorem setCopies_twin (s : State) (q : Nat) (l : List Copy) : (setCopies s q l).twin = s.twin := rfl
@[simp] theorem setCopies_sys (s : State) (q : Nat) (l : List Copy) : (setCopies s q l).sys = s.sys := rfl
@[simp] theorem setCopies_fifo (s : State) (q : Nat) (l : List Copy) : (setCopies s q l).fifo = s.fifo := rfl
@[simp] theorem setCopies_txns (s : State) (q : Nat) (l : List Copy) : (setCopies s q l).txns = s.txns := rfl
@[simp] theorem setCopies_power (s : State) (q : Nat) (l : List Copy) : (setCopies s q l).power = s.power := rfl
@[simp] theorem setCopies_otp (s : State) (q : Nat) (l : List Copy) : (setCopies s q l).otp = s.otp := rfl
@[simp] theorem setCopies_sec (s : State) (q : Nat) (l : List Copy) : (setCopies s q l).sec = s.sec := rfl
@[simp] theorem setCopies_clock (s : State) (q : Nat) (l : List Copy) : (setCopies s q l).clock = s.clock := rfl
@[simp] theorem setCopies_regs (s : State) (q : Nat) (l : List Copy) : (setCopies s q l).regs = s.regs := rfl
@[simp] theorem setCopies_pending (s : State) (q : Nat) (l : List Copy) : (setCopies s q l).pending = s.pending := rfl
@[simp] theorem setCopies_fresh (s : State) (q : Nat) (l : List Copy) : (setCopies s q l).fresh = s.fresh := rfl
@[simp] theorem setCopies_served (s : State) (q : Nat) (l : List Copy) : (setCopies s q l).served = s.served := rfl
@[simp] theorem setCopies_out (s : State) (q : Nat) (l : List Copy) : (setCopies s q l).out = s.out := rfl
@[simp] theorem setCopies_safety (s : State) (q : Nat) (l : List Copy) : (setCopies s q l).safety = s.safety := rfl

/-! setFrame -/

@[simp] theorem setFrame_time (s : State) (k : Nat) (f : Frame) : (setFrame s k f).time = s.time := rfl
@[simp] theorem setFrame_line (s : State) (k : Nat) (f : Frame) : (setFrame s k f).line = s.line := rfl
@[simp] theorem setFrame_ports (s : State) (k : Nat) (f : Frame) : (setFrame s k f).ports = s.ports := rfl
@[simp] theorem setFrame_axes (s : State) (k : Nat) (f : Frame) : (setFrame s k f).axes = s.axes := rfl
@[simp] theorem setFrame_ddr (s : State) (k : Nat) (f : Frame) : (setFrame s k f).ddr = s.ddr := rfl
@[simp] theorem setFrame_twin (s : State) (k : Nat) (f : Frame) : (setFrame s k f).twin = s.twin := rfl
@[simp] theorem setFrame_sys (s : State) (k : Nat) (f : Frame) : (setFrame s k f).sys = s.sys := rfl
@[simp] theorem setFrame_fifo (s : State) (k : Nat) (f : Frame) : (setFrame s k f).fifo = s.fifo := rfl
@[simp] theorem setFrame_txns (s : State) (k : Nat) (f : Frame) : (setFrame s k f).txns = s.txns := rfl
@[simp] theorem setFrame_power (s : State) (k : Nat) (f : Frame) : (setFrame s k f).power = s.power := rfl
@[simp] theorem setFrame_otp (s : State) (k : Nat) (f : Frame) : (setFrame s k f).otp = s.otp := rfl
@[simp] theorem setFrame_sec (s : State) (k : Nat) (f : Frame) : (setFrame s k f).sec = s.sec := rfl
@[simp] theorem setFrame_clock (s : State) (k : Nat) (f : Frame) : (setFrame s k f).clock = s.clock := rfl
@[simp] theorem setFrame_regs (s : State) (k : Nat) (f : Frame) : (setFrame s k f).regs = s.regs := rfl
@[simp] theorem setFrame_pending (s : State) (k : Nat) (f : Frame) : (setFrame s k f).pending = s.pending := rfl
@[simp] theorem setFrame_fresh (s : State) (k : Nat) (f : Frame) : (setFrame s k f).fresh = s.fresh := rfl
@[simp] theorem setFrame_served (s : State) (k : Nat) (f : Frame) : (setFrame s k f).served = s.served := rfl
@[simp] theorem setFrame_out (s : State) (k : Nat) (f : Frame) : (setFrame s k f).out = s.out := rfl
@[simp] theorem setFrame_safety (s : State) (k : Nat) (f : Frame) : (setFrame s k f).safety = s.safety := rfl

/-! setClock -/

@[simp] theorem setClock_time (s : State) (c : Clock) : (setClock s c).time = s.time := rfl
@[simp] theorem setClock_line (s : State) (c : Clock) : (setClock s c).line = s.line := rfl
@[simp] theorem setClock_ports (s : State) (c : Clock) : (setClock s c).ports = s.ports := rfl
@[simp] theorem setClock_axes (s : State) (c : Clock) : (setClock s c).axes = s.axes := rfl
@[simp] theorem setClock_ddr (s : State) (c : Clock) : (setClock s c).ddr = s.ddr := rfl
@[simp] theorem setClock_twin (s : State) (c : Clock) : (setClock s c).twin = s.twin := rfl
@[simp] theorem setClock_sys (s : State) (c : Clock) : (setClock s c).sys = s.sys := rfl
@[simp] theorem setClock_fifo (s : State) (c : Clock) : (setClock s c).fifo = s.fifo := rfl
@[simp] theorem setClock_txns (s : State) (c : Clock) : (setClock s c).txns = s.txns := rfl
@[simp] theorem setClock_power (s : State) (c : Clock) : (setClock s c).power = s.power := rfl
@[simp] theorem setClock_otp (s : State) (c : Clock) : (setClock s c).otp = s.otp := rfl
@[simp] theorem setClock_sec (s : State) (c : Clock) : (setClock s c).sec = s.sec := rfl
@[simp] theorem setClock_regs (s : State) (c : Clock) : (setClock s c).regs = s.regs := rfl
@[simp] theorem setClock_pending (s : State) (c : Clock) : (setClock s c).pending = s.pending := rfl
@[simp] theorem setClock_fresh (s : State) (c : Clock) : (setClock s c).fresh = s.fresh := rfl
@[simp] theorem setClock_served (s : State) (c : Clock) : (setClock s c).served = s.served := rfl
@[simp] theorem setClock_out (s : State) (c : Clock) : (setClock s c).out = s.out := rfl
@[simp] theorem setClock_traffic (s : State) (c : Clock) : (setClock s c).traffic = s.traffic := rfl
@[simp] theorem setClock_safety (s : State) (c : Clock) : (setClock s c).safety = s.safety := rfl

/-! modTxn -/

@[simp] theorem modTxn_time (s : State) (id : Nat) (f : Txn → Txn) : (modTxn s id f).time = s.time := rfl
@[simp] theorem modTxn_line (s : State) (id : Nat) (f : Txn → Txn) : (modTxn s id f).line = s.line := rfl
@[simp] theorem modTxn_ports (s : State) (id : Nat) (f : Txn → Txn) : (modTxn s id f).ports = s.ports := rfl
@[simp] theorem modTxn_axes (s : State) (id : Nat) (f : Txn → Txn) : (modTxn s id f).axes = s.axes := rfl
@[simp] theorem modTxn_ddr (s : State) (id : Nat) (f : Txn → Txn) : (modTxn s id f).ddr = s.ddr := rfl
@[simp] theorem modTxn_twin (s : State) (id : Nat) (f : Txn → Txn) : (modTxn s id f).twin = s.twin := rfl
@[simp] theorem modTxn_sys (s : State) (id : Nat) (f : Txn → Txn) : (modTxn s id f).sys = s.sys := rfl
@[simp] theorem modTxn_fifo (s : State) (id : Nat) (f : Txn → Txn) : (modTxn s id f).fifo = s.fifo := rfl
@[simp] theorem modTxn_power (s : State) (id : Nat) (f : Txn → Txn) : (modTxn s id f).power = s.power := rfl
@[simp] theorem modTxn_otp (s : State) (id : Nat) (f : Txn → Txn) : (modTxn s id f).otp = s.otp := rfl
@[simp] theorem modTxn_sec (s : State) (id : Nat) (f : Txn → Txn) : (modTxn s id f).sec = s.sec := rfl
@[simp] theorem modTxn_clock (s : State) (id : Nat) (f : Txn → Txn) : (modTxn s id f).clock = s.clock := rfl
@[simp] theorem modTxn_regs (s : State) (id : Nat) (f : Txn → Txn) : (modTxn s id f).regs = s.regs := rfl
@[simp] theorem modTxn_pending (s : State) (id : Nat) (f : Txn → Txn) : (modTxn s id f).pending = s.pending := rfl
@[simp] theorem modTxn_fresh (s : State) (id : Nat) (f : Txn → Txn) : (modTxn s id f).fresh = s.fresh := rfl
@[simp] theorem modTxn_served (s : State) (id : Nat) (f : Txn → Txn) : (modTxn s id f).served = s.served := rfl
@[simp] theorem modTxn_out (s : State) (id : Nat) (f : Txn → Txn) : (modTxn s id f).out = s.out := rfl
@[simp] theorem modTxn_traffic (s : State) (id : Nat) (f : Txn → Txn) : (modTxn s id f).traffic = s.traffic := rfl
@[simp] theorem modTxn_safety (s : State) (id : Nat) (f : Txn → Txn) : (modTxn s id f).safety = s.safety := rfl

/-! closeTxn -/

@[simp] theorem closeTxn_time (s : State) (id : Nat) : (closeTxn s id).time = s.time := rfl
@[simp] theorem closeTxn_line (s : State) (id : Nat) : (closeTxn s id).line = s.line := rfl
@[simp] theorem closeTxn_ports (s : State) (id : Nat) : (closeTxn s id).ports = s.ports := rfl
@[simp] theorem closeTxn_axes (s : State) (id : Nat) : (closeTxn s id).axes = s.axes := rfl
@[simp] theorem closeTxn_ddr (s : State) (id : Nat) : (closeTxn s id).ddr = s.ddr := rfl
@[simp] theorem closeTxn_twin (s : State) (id : Nat) : (closeTxn s id).twin = s.twin := rfl
@[simp] theorem closeTxn_sys (s : State) (id : Nat) : (closeTxn s id).sys = s.sys := rfl
@[simp] theorem closeTxn_fifo (s : State) (id : Nat) : (closeTxn s id).fifo = s.fifo := rfl
@[simp] theorem closeTxn_power (s : State) (id : Nat) : (closeTxn s id).power = s.power := rfl
@[simp] theorem closeTxn_otp (s : State) (id : Nat) : (closeTxn s id).otp = s.otp := rfl
@[simp] theorem closeTxn_sec (s : State) (id : Nat) : (closeTxn s id).sec = s.sec := rfl
@[simp] theorem closeTxn_clock (s : State) (id : Nat) : (closeTxn s id).clock = s.clock := rfl
@[simp] theorem closeTxn_regs (s : State) (id : Nat) : (closeTxn s id).regs = s.regs := rfl
@[simp] theorem closeTxn_pending (s : State) (id : Nat) : (closeTxn s id).pending = s.pending := rfl
@[simp] theorem closeTxn_fresh (s : State) (id : Nat) : (closeTxn s id).fresh = s.fresh := rfl
@[simp] theorem closeTxn_served (s : State) (id : Nat) : (closeTxn s id).served = s.served := rfl
@[simp] theorem closeTxn_out (s : State) (id : Nat) : (closeTxn s id).out = s.out := rfl
@[simp] theorem closeTxn_traffic (s : State) (id : Nat) : (closeTxn s id).traffic = s.traffic := rfl
@[simp] theorem closeTxn_safety (s : State) (id : Nat) : (closeTxn s id).safety = s.safety := rfl

/-! setSrc -/

@[simp] theorem setSrc_time (s : State) (l : FaultLoc) (i : Nat) (f : FaultSrc → FaultSrc) : (setSrc s l i f).time = s.time := rfl
@[simp] theorem setSrc_line (s : State) (l : FaultLoc) (i : Nat) (f : FaultSrc → FaultSrc) : (setSrc s l i f).line = s.line := rfl
@[simp] theorem setSrc_ports (s : State) (l : FaultLoc) (i : Nat) (f : FaultSrc → FaultSrc) : (setSrc s l i f).ports = s.ports := rfl
@[simp] theorem setSrc_axes (s : State) (l : FaultLoc) (i : Nat) (f : FaultSrc → FaultSrc) : (setSrc s l i f).axes = s.axes := rfl
@[simp] theorem setSrc_ddr (s : State) (l : FaultLoc) (i : Nat) (f : FaultSrc → FaultSrc) : (setSrc s l i f).ddr = s.ddr := rfl
@[simp] theorem setSrc_twin (s : State) (l : FaultLoc) (i : Nat) (f : FaultSrc → FaultSrc) : (setSrc s l i f).twin = s.twin := rfl
@[simp] theorem setSrc_sys (s : State) (l : FaultLoc) (i : Nat) (f : FaultSrc → FaultSrc) : (setSrc s l i f).sys = s.sys := rfl
@[simp] theorem setSrc_fifo (s : State) (l : FaultLoc) (i : Nat) (f : FaultSrc → FaultSrc) : (setSrc s l i f).fifo = s.fifo := rfl
@[simp] theorem setSrc_txns (s : State) (l : FaultLoc) (i : Nat) (f : FaultSrc → FaultSrc) : (setSrc s l i f).txns = s.txns := rfl
@[simp] theorem setSrc_power (s : State) (l : FaultLoc) (i : Nat) (f : FaultSrc → FaultSrc) : (setSrc s l i f).power = s.power := rfl
@[simp] theorem setSrc_otp (s : State) (l : FaultLoc) (i : Nat) (f : FaultSrc → FaultSrc) : (setSrc s l i f).otp = s.otp := rfl
@[simp] theorem setSrc_sec (s : State) (l : FaultLoc) (i : Nat) (f : FaultSrc → FaultSrc) : (setSrc s l i f).sec = s.sec := rfl
@[simp] theorem setSrc_clock (s : State) (l : FaultLoc) (i : Nat) (f : FaultSrc → FaultSrc) : (setSrc s l i f).clock = s.clock := rfl
@[simp] theorem setSrc_regs (s : State) (l : FaultLoc) (i : Nat) (f : FaultSrc → FaultSrc) : (setSrc s l i f).regs = s.regs := rfl
@[simp] theorem setSrc_pending (s : State) (l : FaultLoc) (i : Nat) (f : FaultSrc → FaultSrc) : (setSrc s l i f).pending = s.pending := rfl
@[simp] theorem setSrc_fresh (s : State) (l : FaultLoc) (i : Nat) (f : FaultSrc → FaultSrc) : (setSrc s l i f).fresh = s.fresh := rfl
@[simp] theorem setSrc_served (s : State) (l : FaultLoc) (i : Nat) (f : FaultSrc → FaultSrc) : (setSrc s l i f).served = s.served := rfl
@[simp] theorem setSrc_out (s : State) (l : FaultLoc) (i : Nat) (f : FaultSrc → FaultSrc) : (setSrc s l i f).out = s.out := rfl
@[simp] theorem setSrc_traffic (s : State) (l : FaultLoc) (i : Nat) (f : FaultSrc → FaultSrc) : (setSrc s l i f).traffic = s.traffic := rfl
@[simp] theorem setSrc_safety (s : State) (l : FaultLoc) (i : Nat) (f : FaultSrc → FaultSrc) : (setSrc s l i f).safety = s.safety := rfl

/-! takePend -/

@[simp] theorem takePend_time (s : State) (l : FaultLoc) (i : Nat) : (takePend s l i).time = s.time := rfl
@[simp] theorem takePend_line (s : State) (l : FaultLoc) (i : Nat) : (takePend s l i).line = s.line := rfl
@[simp] theorem takePend_ports (s : State) (l : FaultLoc) (i : Nat) : (takePend s l i).ports = s.ports := rfl
@[simp] theorem takePend_axes (s : State) (l : FaultLoc) (i : Nat) : (takePend s l i).axes = s.axes := rfl
@[simp] theorem takePend_ddr (s : State) (l : FaultLoc) (i : Nat) : (takePend s l i).ddr = s.ddr := rfl
@[simp] theorem takePend_twin (s : State) (l : FaultLoc) (i : Nat) : (takePend s l i).twin = s.twin := rfl
@[simp] theorem takePend_sys (s : State) (l : FaultLoc) (i : Nat) : (takePend s l i).sys = s.sys := rfl
@[simp] theorem takePend_fifo (s : State) (l : FaultLoc) (i : Nat) : (takePend s l i).fifo = s.fifo := rfl
@[simp] theorem takePend_txns (s : State) (l : FaultLoc) (i : Nat) : (takePend s l i).txns = s.txns := rfl
@[simp] theorem takePend_power (s : State) (l : FaultLoc) (i : Nat) : (takePend s l i).power = s.power := rfl
@[simp] theorem takePend_otp (s : State) (l : FaultLoc) (i : Nat) : (takePend s l i).otp = s.otp := rfl
@[simp] theorem takePend_sec (s : State) (l : FaultLoc) (i : Nat) : (takePend s l i).sec = s.sec := rfl
@[simp] theorem takePend_clock (s : State) (l : FaultLoc) (i : Nat) : (takePend s l i).clock = s.clock := rfl
@[simp] theorem takePend_regs (s : State) (l : FaultLoc) (i : Nat) : (takePend s l i).regs = s.regs := rfl
@[simp] theorem takePend_pending (s : State) (l : FaultLoc) (i : Nat) : (takePend s l i).pending = s.pending := rfl
@[simp] theorem takePend_fresh (s : State) (l : FaultLoc) (i : Nat) : (takePend s l i).fresh = s.fresh := rfl
@[simp] theorem takePend_served (s : State) (l : FaultLoc) (i : Nat) : (takePend s l i).served = s.served := rfl
@[simp] theorem takePend_out (s : State) (l : FaultLoc) (i : Nat) : (takePend s l i).out = s.out := rfl
@[simp] theorem takePend_traffic (s : State) (l : FaultLoc) (i : Nat) : (takePend s l i).traffic = s.traffic := rfl
@[simp] theorem takePend_safety (s : State) (l : FaultLoc) (i : Nat) : (takePend s l i).safety = s.safety := rfl

/-! modFdie -/

@[simp] theorem modFdie_time (s : State) (d : Nat) (f : FlowDie → FlowDie) : (modFdie s d f).time = s.time := rfl
@[simp] theorem modFdie_line (s : State) (d : Nat) (f : FlowDie → FlowDie) : (modFdie s d f).line = s.line := rfl
@[simp] theorem modFdie_ports (s : State) (d : Nat) (f : FlowDie → FlowDie) : (modFdie s d f).ports = s.ports := rfl
@[simp] theorem modFdie_axes (s : State) (d : Nat) (f : FlowDie → FlowDie) : (modFdie s d f).axes = s.axes := rfl
@[simp] theorem modFdie_ddr (s : State) (d : Nat) (f : FlowDie → FlowDie) : (modFdie s d f).ddr = s.ddr := rfl
@[simp] theorem modFdie_twin (s : State) (d : Nat) (f : FlowDie → FlowDie) : (modFdie s d f).twin = s.twin := rfl
@[simp] theorem modFdie_sys (s : State) (d : Nat) (f : FlowDie → FlowDie) : (modFdie s d f).sys = s.sys := rfl
@[simp] theorem modFdie_fifo (s : State) (d : Nat) (f : FlowDie → FlowDie) : (modFdie s d f).fifo = s.fifo := rfl
@[simp] theorem modFdie_txns (s : State) (d : Nat) (f : FlowDie → FlowDie) : (modFdie s d f).txns = s.txns := rfl
@[simp] theorem modFdie_power (s : State) (d : Nat) (f : FlowDie → FlowDie) : (modFdie s d f).power = s.power := rfl
@[simp] theorem modFdie_otp (s : State) (d : Nat) (f : FlowDie → FlowDie) : (modFdie s d f).otp = s.otp := rfl
@[simp] theorem modFdie_sec (s : State) (d : Nat) (f : FlowDie → FlowDie) : (modFdie s d f).sec = s.sec := rfl
@[simp] theorem modFdie_clock (s : State) (d : Nat) (f : FlowDie → FlowDie) : (modFdie s d f).clock = s.clock := rfl
@[simp] theorem modFdie_regs (s : State) (d : Nat) (f : FlowDie → FlowDie) : (modFdie s d f).regs = s.regs := rfl
@[simp] theorem modFdie_pending (s : State) (d : Nat) (f : FlowDie → FlowDie) : (modFdie s d f).pending = s.pending := rfl
@[simp] theorem modFdie_fresh (s : State) (d : Nat) (f : FlowDie → FlowDie) : (modFdie s d f).fresh = s.fresh := rfl
@[simp] theorem modFdie_served (s : State) (d : Nat) (f : FlowDie → FlowDie) : (modFdie s d f).served = s.served := rfl
@[simp] theorem modFdie_out (s : State) (d : Nat) (f : FlowDie → FlowDie) : (modFdie s d f).out = s.out := rfl
@[simp] theorem modFdie_safety (s : State) (d : Nat) (f : FlowDie → FlowDie) : (modFdie s d f).safety = s.safety := rfl

/-! modTlink -/

@[simp] theorem modTlink_line (s : State) (u : Nat) (f : TimeLink → TimeLink) : (modTlink s u f).line = s.line := rfl
@[simp] theorem modTlink_ports (s : State) (u : Nat) (f : TimeLink → TimeLink) : (modTlink s u f).ports = s.ports := rfl
@[simp] theorem modTlink_axes (s : State) (u : Nat) (f : TimeLink → TimeLink) : (modTlink s u f).axes = s.axes := rfl
@[simp] theorem modTlink_ddr (s : State) (u : Nat) (f : TimeLink → TimeLink) : (modTlink s u f).ddr = s.ddr := rfl
@[simp] theorem modTlink_twin (s : State) (u : Nat) (f : TimeLink → TimeLink) : (modTlink s u f).twin = s.twin := rfl
@[simp] theorem modTlink_sys (s : State) (u : Nat) (f : TimeLink → TimeLink) : (modTlink s u f).sys = s.sys := rfl
@[simp] theorem modTlink_fifo (s : State) (u : Nat) (f : TimeLink → TimeLink) : (modTlink s u f).fifo = s.fifo := rfl
@[simp] theorem modTlink_txns (s : State) (u : Nat) (f : TimeLink → TimeLink) : (modTlink s u f).txns = s.txns := rfl
@[simp] theorem modTlink_power (s : State) (u : Nat) (f : TimeLink → TimeLink) : (modTlink s u f).power = s.power := rfl
@[simp] theorem modTlink_otp (s : State) (u : Nat) (f : TimeLink → TimeLink) : (modTlink s u f).otp = s.otp := rfl
@[simp] theorem modTlink_sec (s : State) (u : Nat) (f : TimeLink → TimeLink) : (modTlink s u f).sec = s.sec := rfl
@[simp] theorem modTlink_clock (s : State) (u : Nat) (f : TimeLink → TimeLink) : (modTlink s u f).clock = s.clock := rfl
@[simp] theorem modTlink_regs (s : State) (u : Nat) (f : TimeLink → TimeLink) : (modTlink s u f).regs = s.regs := rfl
@[simp] theorem modTlink_pending (s : State) (u : Nat) (f : TimeLink → TimeLink) : (modTlink s u f).pending = s.pending := rfl
@[simp] theorem modTlink_fresh (s : State) (u : Nat) (f : TimeLink → TimeLink) : (modTlink s u f).fresh = s.fresh := rfl
@[simp] theorem modTlink_served (s : State) (u : Nat) (f : TimeLink → TimeLink) : (modTlink s u f).served = s.served := rfl
@[simp] theorem modTlink_out (s : State) (u : Nat) (f : TimeLink → TimeLink) : (modTlink s u f).out = s.out := rfl
@[simp] theorem modTlink_traffic (s : State) (u : Nat) (f : TimeLink → TimeLink) : (modTlink s u f).traffic = s.traffic := rfl
@[simp] theorem modTlink_safety (s : State) (u : Nat) (f : TimeLink → TimeLink) : (modTlink s u f).safety = s.safety := rfl

/-! modMring -/

@[simp] theorem modMring_time (s : State) (d r : Nat) (f : MRing → MRing) : (modMring s d r f).time = s.time := rfl
@[simp] theorem modMring_line (s : State) (d r : Nat) (f : MRing → MRing) : (modMring s d r f).line = s.line := rfl
@[simp] theorem modMring_ports (s : State) (d r : Nat) (f : MRing → MRing) : (modMring s d r f).ports = s.ports := rfl
@[simp] theorem modMring_axes (s : State) (d r : Nat) (f : MRing → MRing) : (modMring s d r f).axes = s.axes := rfl
@[simp] theorem modMring_ddr (s : State) (d r : Nat) (f : MRing → MRing) : (modMring s d r f).ddr = s.ddr := rfl
@[simp] theorem modMring_twin (s : State) (d r : Nat) (f : MRing → MRing) : (modMring s d r f).twin = s.twin := rfl
@[simp] theorem modMring_sys (s : State) (d r : Nat) (f : MRing → MRing) : (modMring s d r f).sys = s.sys := rfl
@[simp] theorem modMring_fifo (s : State) (d r : Nat) (f : MRing → MRing) : (modMring s d r f).fifo = s.fifo := rfl
@[simp] theorem modMring_txns (s : State) (d r : Nat) (f : MRing → MRing) : (modMring s d r f).txns = s.txns := rfl
@[simp] theorem modMring_power (s : State) (d r : Nat) (f : MRing → MRing) : (modMring s d r f).power = s.power := rfl
@[simp] theorem modMring_otp (s : State) (d r : Nat) (f : MRing → MRing) : (modMring s d r f).otp = s.otp := rfl
@[simp] theorem modMring_sec (s : State) (d r : Nat) (f : MRing → MRing) : (modMring s d r f).sec = s.sec := rfl
@[simp] theorem modMring_clock (s : State) (d r : Nat) (f : MRing → MRing) : (modMring s d r f).clock = s.clock := rfl
@[simp] theorem modMring_regs (s : State) (d r : Nat) (f : MRing → MRing) : (modMring s d r f).regs = s.regs := rfl
@[simp] theorem modMring_pending (s : State) (d r : Nat) (f : MRing → MRing) : (modMring s d r f).pending = s.pending := rfl
@[simp] theorem modMring_fresh (s : State) (d r : Nat) (f : MRing → MRing) : (modMring s d r f).fresh = s.fresh := rfl
@[simp] theorem modMring_served (s : State) (d r : Nat) (f : MRing → MRing) : (modMring s d r f).served = s.served := rfl
@[simp] theorem modMring_out (s : State) (d r : Nat) (f : MRing → MRing) : (modMring s d r f).out = s.out := rfl
@[simp] theorem modMring_traffic (s : State) (d r : Nat) (f : MRing → MRing) : (modMring s d r f).traffic = s.traffic := rfl
@[simp] theorem modMring_safety (s : State) (d r : Nat) (f : MRing → MRing) : (modMring s d r f).safety = s.safety := rfl

/-! atCore -/

@[simp] theorem atCore_line (s : State) (c : Nat) : (atCore s c).line = s.line := rfl
@[simp] theorem atCore_ports (s : State) (c : Nat) : (atCore s c).ports = s.ports := rfl
@[simp] theorem atCore_axes (s : State) (c : Nat) : (atCore s c).axes = s.axes := rfl
@[simp] theorem atCore_ddr (s : State) (c : Nat) : (atCore s c).ddr = s.ddr := rfl
@[simp] theorem atCore_twin (s : State) (c : Nat) : (atCore s c).twin = s.twin := rfl
@[simp] theorem atCore_sys (s : State) (c : Nat) : (atCore s c).sys = s.sys := rfl
@[simp] theorem atCore_fifo (s : State) (c : Nat) : (atCore s c).fifo = s.fifo := rfl
@[simp] theorem atCore_txns (s : State) (c : Nat) : (atCore s c).txns = s.txns := rfl
@[simp] theorem atCore_power (s : State) (c : Nat) : (atCore s c).power = s.power := rfl
@[simp] theorem atCore_otp (s : State) (c : Nat) : (atCore s c).otp = s.otp := rfl
@[simp] theorem atCore_sec (s : State) (c : Nat) : (atCore s c).sec = s.sec := rfl
@[simp] theorem atCore_clock (s : State) (c : Nat) : (atCore s c).clock = s.clock := rfl
@[simp] theorem atCore_regs (s : State) (c : Nat) : (atCore s c).regs = s.regs := rfl
@[simp] theorem atCore_pending (s : State) (c : Nat) : (atCore s c).pending = s.pending := rfl
@[simp] theorem atCore_fresh (s : State) (c : Nat) : (atCore s c).fresh = s.fresh := rfl
@[simp] theorem atCore_served (s : State) (c : Nat) : (atCore s c).served = s.served := rfl
@[simp] theorem atCore_out (s : State) (c : Nat) : (atCore s c).out = s.out := rfl
@[simp] theorem atCore_traffic (s : State) (c : Nat) : (atCore s c).traffic = s.traffic := rfl
@[simp] theorem atCore_safety (s : State) (c : Nat) : (atCore s c).safety = s.safety := rfl

/-! setPulse -/

@[simp] theorem setPulse_time (s : State) (u : Nat) (p : Pulse) : (setPulse s u p).time = s.time := rfl
@[simp] theorem setPulse_line (s : State) (u : Nat) (p : Pulse) : (setPulse s u p).line = s.line := rfl
@[simp] theorem setPulse_ports (s : State) (u : Nat) (p : Pulse) : (setPulse s u p).ports = s.ports := rfl
@[simp] theorem setPulse_axes (s : State) (u : Nat) (p : Pulse) : (setPulse s u p).axes = s.axes := rfl
@[simp] theorem setPulse_ddr (s : State) (u : Nat) (p : Pulse) : (setPulse s u p).ddr = s.ddr := rfl
@[simp] theorem setPulse_twin (s : State) (u : Nat) (p : Pulse) : (setPulse s u p).twin = s.twin := rfl
@[simp] theorem setPulse_sys (s : State) (u : Nat) (p : Pulse) : (setPulse s u p).sys = s.sys := rfl
@[simp] theorem setPulse_fifo (s : State) (u : Nat) (p : Pulse) : (setPulse s u p).fifo = s.fifo := rfl
@[simp] theorem setPulse_txns (s : State) (u : Nat) (p : Pulse) : (setPulse s u p).txns = s.txns := rfl
@[simp] theorem setPulse_power (s : State) (u : Nat) (p : Pulse) : (setPulse s u p).power = s.power := rfl
@[simp] theorem setPulse_otp (s : State) (u : Nat) (p : Pulse) : (setPulse s u p).otp = s.otp := rfl
@[simp] theorem setPulse_sec (s : State) (u : Nat) (p : Pulse) : (setPulse s u p).sec = s.sec := rfl
@[simp] theorem setPulse_clock (s : State) (u : Nat) (p : Pulse) : (setPulse s u p).clock = s.clock := rfl
@[simp] theorem setPulse_regs (s : State) (u : Nat) (p : Pulse) : (setPulse s u p).regs = s.regs := rfl
@[simp] theorem setPulse_pending (s : State) (u : Nat) (p : Pulse) : (setPulse s u p).pending = s.pending := rfl
@[simp] theorem setPulse_fresh (s : State) (u : Nat) (p : Pulse) : (setPulse s u p).fresh = s.fresh := rfl
@[simp] theorem setPulse_served (s : State) (u : Nat) (p : Pulse) : (setPulse s u p).served = s.served := rfl
@[simp] theorem setPulse_out (s : State) (u : Nat) (p : Pulse) : (setPulse s u p).out = s.out := rfl
@[simp] theorem setPulse_traffic (s : State) (u : Nat) (p : Pulse) : (setPulse s u p).traffic = s.traffic := rfl
@[simp] theorem setPulse_safety (s : State) (u : Nat) (p : Pulse) : (setPulse s u p).safety = s.safety := rfl

/-! modCapture -/

@[simp] theorem modCapture_time (s : State) (c : Nat) (f : Capture → Capture) : (modCapture s c f).time = s.time := rfl
@[simp] theorem modCapture_line (s : State) (c : Nat) (f : Capture → Capture) : (modCapture s c f).line = s.line := rfl
@[simp] theorem modCapture_ports (s : State) (c : Nat) (f : Capture → Capture) : (modCapture s c f).ports = s.ports := rfl
@[simp] theorem modCapture_axes (s : State) (c : Nat) (f : Capture → Capture) : (modCapture s c f).axes = s.axes := rfl
@[simp] theorem modCapture_ddr (s : State) (c : Nat) (f : Capture → Capture) : (modCapture s c f).ddr = s.ddr := rfl
@[simp] theorem modCapture_twin (s : State) (c : Nat) (f : Capture → Capture) : (modCapture s c f).twin = s.twin := rfl
@[simp] theorem modCapture_sys (s : State) (c : Nat) (f : Capture → Capture) : (modCapture s c f).sys = s.sys := rfl
@[simp] theorem modCapture_fifo (s : State) (c : Nat) (f : Capture → Capture) : (modCapture s c f).fifo = s.fifo := rfl
@[simp] theorem modCapture_txns (s : State) (c : Nat) (f : Capture → Capture) : (modCapture s c f).txns = s.txns := rfl
@[simp] theorem modCapture_power (s : State) (c : Nat) (f : Capture → Capture) : (modCapture s c f).power = s.power := rfl
@[simp] theorem modCapture_otp (s : State) (c : Nat) (f : Capture → Capture) : (modCapture s c f).otp = s.otp := rfl
@[simp] theorem modCapture_sec (s : State) (c : Nat) (f : Capture → Capture) : (modCapture s c f).sec = s.sec := rfl
@[simp] theorem modCapture_clock (s : State) (c : Nat) (f : Capture → Capture) : (modCapture s c f).clock = s.clock := rfl
@[simp] theorem modCapture_regs (s : State) (c : Nat) (f : Capture → Capture) : (modCapture s c f).regs = s.regs := rfl
@[simp] theorem modCapture_pending (s : State) (c : Nat) (f : Capture → Capture) : (modCapture s c f).pending = s.pending := rfl
@[simp] theorem modCapture_fresh (s : State) (c : Nat) (f : Capture → Capture) : (modCapture s c f).fresh = s.fresh := rfl
@[simp] theorem modCapture_served (s : State) (c : Nat) (f : Capture → Capture) : (modCapture s c f).served = s.served := rfl
@[simp] theorem modCapture_out (s : State) (c : Nat) (f : Capture → Capture) : (modCapture s c f).out = s.out := rfl
@[simp] theorem modCapture_traffic (s : State) (c : Nat) (f : Capture → Capture) : (modCapture s c f).traffic = s.traffic := rfl
@[simp] theorem modCapture_safety (s : State) (c : Nat) (f : Capture → Capture) : (modCapture s c f).safety = s.safety := rfl

/-! setRegion -/

@[simp] theorem setRegion_time (s : State) (r v : Nat) : (setRegion s r v).time = s.time := rfl
@[simp] theorem setRegion_line (s : State) (r v : Nat) : (setRegion s r v).line = s.line := rfl
@[simp] theorem setRegion_ports (s : State) (r v : Nat) : (setRegion s r v).ports = s.ports := rfl
@[simp] theorem setRegion_axes (s : State) (r v : Nat) : (setRegion s r v).axes = s.axes := rfl
@[simp] theorem setRegion_ddr (s : State) (r v : Nat) : (setRegion s r v).ddr = s.ddr := rfl
@[simp] theorem setRegion_twin (s : State) (r v : Nat) : (setRegion s r v).twin = s.twin := rfl
@[simp] theorem setRegion_sys (s : State) (r v : Nat) : (setRegion s r v).sys = s.sys := rfl
@[simp] theorem setRegion_fifo (s : State) (r v : Nat) : (setRegion s r v).fifo = s.fifo := rfl
@[simp] theorem setRegion_txns (s : State) (r v : Nat) : (setRegion s r v).txns = s.txns := rfl
@[simp] theorem setRegion_otp (s : State) (r v : Nat) : (setRegion s r v).otp = s.otp := rfl
@[simp] theorem setRegion_sec (s : State) (r v : Nat) : (setRegion s r v).sec = s.sec := rfl
@[simp] theorem setRegion_clock (s : State) (r v : Nat) : (setRegion s r v).clock = s.clock := rfl
@[simp] theorem setRegion_regs (s : State) (r v : Nat) : (setRegion s r v).regs = s.regs := rfl
@[simp] theorem setRegion_pending (s : State) (r v : Nat) : (setRegion s r v).pending = s.pending := rfl
@[simp] theorem setRegion_fresh (s : State) (r v : Nat) : (setRegion s r v).fresh = s.fresh := rfl
@[simp] theorem setRegion_served (s : State) (r v : Nat) : (setRegion s r v).served = s.served := rfl
@[simp] theorem setRegion_out (s : State) (r v : Nat) : (setRegion s r v).out = s.out := rfl
@[simp] theorem setRegion_traffic (s : State) (r v : Nat) : (setRegion s r v).traffic = s.traffic := rfl
@[simp] theorem setRegion_safety (s : State) (r v : Nat) : (setRegion s r v).safety = s.safety := rfl

/-! setDie -/

@[simp] theorem setDie_time (s : State) (d v : Nat) : (setDie s d v).time = s.time := rfl
@[simp] theorem setDie_line (s : State) (d v : Nat) : (setDie s d v).line = s.line := rfl
@[simp] theorem setDie_ports (s : State) (d v : Nat) : (setDie s d v).ports = s.ports := rfl
@[simp] theorem setDie_axes (s : State) (d v : Nat) : (setDie s d v).axes = s.axes := rfl
@[simp] theorem setDie_ddr (s : State) (d v : Nat) : (setDie s d v).ddr = s.ddr := rfl
@[simp] theorem setDie_twin (s : State) (d v : Nat) : (setDie s d v).twin = s.twin := rfl
@[simp] theorem setDie_sys (s : State) (d v : Nat) : (setDie s d v).sys = s.sys := rfl
@[simp] theorem setDie_fifo (s : State) (d v : Nat) : (setDie s d v).fifo = s.fifo := rfl
@[simp] theorem setDie_txns (s : State) (d v : Nat) : (setDie s d v).txns = s.txns := rfl
@[simp] theorem setDie_otp (s : State) (d v : Nat) : (setDie s d v).otp = s.otp := rfl
@[simp] theorem setDie_sec (s : State) (d v : Nat) : (setDie s d v).sec = s.sec := rfl
@[simp] theorem setDie_clock (s : State) (d v : Nat) : (setDie s d v).clock = s.clock := rfl
@[simp] theorem setDie_regs (s : State) (d v : Nat) : (setDie s d v).regs = s.regs := rfl
@[simp] theorem setDie_pending (s : State) (d v : Nat) : (setDie s d v).pending = s.pending := rfl
@[simp] theorem setDie_fresh (s : State) (d v : Nat) : (setDie s d v).fresh = s.fresh := rfl
@[simp] theorem setDie_served (s : State) (d v : Nat) : (setDie s d v).served = s.served := rfl
@[simp] theorem setDie_out (s : State) (d v : Nat) : (setDie s d v).out = s.out := rfl
@[simp] theorem setDie_traffic (s : State) (d v : Nat) : (setDie s d v).traffic = s.traffic := rfl
@[simp] theorem setDie_safety (s : State) (d v : Nat) : (setDie s d v).safety = s.safety := rfl

/-! swapBanks -/

@[simp] theorem swapBanks_time (s : State) : (swapBanks s).time = s.time := rfl
@[simp] theorem swapBanks_line (s : State) : (swapBanks s).line = s.line := rfl
@[simp] theorem swapBanks_ports (s : State) : (swapBanks s).ports = s.ports := rfl
@[simp] theorem swapBanks_axes (s : State) : (swapBanks s).axes = s.axes := rfl
@[simp] theorem swapBanks_ddr (s : State) : (swapBanks s).ddr = s.ddr := rfl
@[simp] theorem swapBanks_twin (s : State) : (swapBanks s).twin = s.twin := rfl
@[simp] theorem swapBanks_sys (s : State) : (swapBanks s).sys = s.sys := rfl
@[simp] theorem swapBanks_fifo (s : State) : (swapBanks s).fifo = s.fifo := rfl
@[simp] theorem swapBanks_txns (s : State) : (swapBanks s).txns = s.txns := rfl
@[simp] theorem swapBanks_power (s : State) : (swapBanks s).power = s.power := rfl
@[simp] theorem swapBanks_otp (s : State) : (swapBanks s).otp = s.otp := rfl
@[simp] theorem swapBanks_clock (s : State) : (swapBanks s).clock = s.clock := rfl
@[simp] theorem swapBanks_regs (s : State) : (swapBanks s).regs = s.regs := rfl
@[simp] theorem swapBanks_pending (s : State) : (swapBanks s).pending = s.pending := rfl
@[simp] theorem swapBanks_fresh (s : State) : (swapBanks s).fresh = s.fresh := rfl
@[simp] theorem swapBanks_served (s : State) : (swapBanks s).served = s.served := rfl
@[simp] theorem swapBanks_out (s : State) : (swapBanks s).out = s.out := rfl
@[simp] theorem swapBanks_traffic (s : State) : (swapBanks s).traffic = s.traffic := rfl
@[simp] theorem swapBanks_safety (s : State) : (swapBanks s).safety = s.safety := rfl

end Sys2Proof.Machine
end

