-- ==== Sys2Proof/Laws/Steps.lean ====
section
/-! SUPPORT. Every command answers a next state, with the queue as it was and an OTP that a step may give. -/

namespace Sys2Proof.Machine

theorem exec_steps (i : Instr) (s : State) : OutSteps s (exec i s) := by
  cases i with
  | idQuery h w => rw [exec_idQuery]; exact (execIdQuery_keep _ _ _).steps
  | echo h w => rw [exec_echo]; exact (execEcho_keep _ _ _).steps
  | clockQuery h w => rw [exec_clockQuery]; exact (execClockQuery_keep _ _ _).steps
  | reedTrim h w => rw [exec_reedTrim]; exact (execReedTrim_keep _ _ _).steps
  | clkoutSet h w => rw [exec_clkoutSet]; exact (execClkoutSet_keep _ _ _).steps
  | parkSet h w => rw [exec_parkSet]; exact (execParkSet_keep _ _ _).steps
  | resetIssue h w => rw [exec_resetIssue]; exact (execResetIssue_keep _ _ _).steps
  | standbyEnter h w => rw [exec_standbyEnter]; exact (execStandbyEnter_keep _ _ _).steps
  | portQuery h w => rw [exec_portQuery]; exact (execPortQuery_keep _ _ _).steps
  | portSet h w => rw [exec_portSet]; exact (execPortSet_keep _ _ _).steps
  | portSleep h w => rw [exec_portSleep]; exact (execPortSleep_keep _ _ _).steps
  | portWake h w => rw [exec_portWake]; exact (execPortWake_keep _ _ _).steps
  | laneSet h w => rw [exec_laneSet]; exact (execLaneSet_keep _ _ _).steps
  | laneRecal h w => rw [exec_laneRecal]; exact (execLaneRecal_keep _ _ _).steps
  | portCountRead h w => rw [exec_portCountRead]; exact (execPortCountRead_keep _ _ _).steps
  | portReset h w => rw [exec_portReset]; exact (execPortReset_keep _ _ _).steps
  | timeQuery h w => rw [exec_timeQuery]; exact (execTimeQuery_keep _ _ _).steps
  | timeSourceSet h w => rw [exec_timeSourceSet]; exact (execTimeSourceSet_keep _ _ _).steps
  | timeStepPermit h w => rw [exec_timeStepPermit]; exact (execTimeStepPermit_keep _ _ _).steps
  | timeRateSet h w => rw [exec_timeRateSet]; exact (execTimeRateSet_keep _ _ _).steps
  | timeLinkSet h w => rw [exec_timeLinkSet]; exact (execTimeLinkSet_keep _ _ _).steps
  | timePortSet h w => rw [exec_timePortSet]; exact (execTimePortSet_keep _ _ _).steps
  | pulseSet h w => rw [exec_pulseSet]; exact (execPulseSet_keep _ _ _).steps
  | pulseStop h w => rw [exec_pulseStop]; exact (execPulseStop_keep _ _ _).steps
  | pinRouteSet h w => rw [exec_pinRouteSet]; exact (execPinRouteSet_keep _ _ _).steps
  | captureSet h w => rw [exec_captureSet]; exact (execCaptureSet_keep _ _ _).steps
  | tsringSet h w => rw [exec_tsringSet]; exact (execTsringSet_keep _ _ _).steps
  | valveQuery h w => rw [exec_valveQuery]; exact (execValveQuery_keep _ _ _).steps
  | valveSet h w => rw [exec_valveSet]; exact (execValveSet_keep _ _ _).steps
  | valveWrite h w => rw [exec_valveWrite]; exact (execValveWrite_keep _ _ _).steps
  | valveRead h w => rw [exec_valveRead]; exact (execValveRead_keep _ _ _).steps
  | valveStart h w => rw [exec_valveStart]; exact (execValveStart_keep _ _ _).steps
  | valveSwap h w => rw [exec_valveSwap]; exact (execValveSwap_keep _ _ _).steps
  | valveStop h w => rw [exec_valveStop]; exact (execValveStop_keep _ _ _).steps
  | preemptSet h w => rw [exec_preemptSet]; exact (execPreemptSet_keep _ _ _).steps
  | preemptQuery h w => rw [exec_preemptQuery]; exact (execPreemptQuery_keep _ _ _).steps
  | courseQuery h w => rw [exec_courseQuery]; exact (execCourseQuery_keep _ _ _).steps
  | courseSet h w => rw [exec_courseSet]; exact (execCourseSet_keep _ _ _).steps
  | bondWrite h w => rw [exec_bondWrite]; exact (execBondWrite_keep _ _ _).steps
  | frameSet h w => rw [exec_frameSet]; exact (execFrameSet_keep _ _ _).steps
  | safeImageWrite h w => rw [exec_safeImageWrite]; exact (execSafeImageWrite_keep _ _ _).steps
  | courseStart h w => rw [exec_courseStart]; exact (execCourseStart_keep _ _ _).steps
  | courseSwap h w => rw [exec_courseSwap]; exact (execCourseSwap_keep _ _ _).steps
  | courseSafe h w => rw [exec_courseSafe]; exact (execCourseSafe_keep _ _ _).steps
  | courseResume h w => rw [exec_courseResume]; exact (execCourseResume_keep _ _ _).steps
  | courseStop h w => rw [exec_courseStop]; exact (execCourseStop_keep _ _ _).steps
  | courseLineSet h w => rw [exec_courseLineSet]; exact (execCourseLineSet_keep _ _ _).steps
  | axisQuery h w => rw [exec_axisQuery]; exact (execAxisQuery_keep _ _ _).steps
  | axisSet h w => rw [exec_axisSet]; exact (execAxisSet_keep _ _ _).steps
  | reflexSet h w => rw [exec_reflexSet]; exact (execReflexSet_keep _ _ _).steps
  | reflexArm h w => rw [exec_reflexArm]; exact (execReflexArm_keep _ _ _).steps
  | axisStart h w => rw [exec_axisStart]; exact (execAxisStart_keep _ _ _).steps
  | axisQstop h w => rw [exec_axisQstop]; exact (execAxisQstop_keep _ _ _).steps
  | axisOff h w => rw [exec_axisOff]; exact (execAxisOff_keep _ _ _).steps
  | segWrite h w => rw [exec_segWrite]; exact (execSegWrite_keep _ _ _).steps
  | digestQuery h w => rw [exec_digestQuery]; exact (execDigestQuery_keep _ _ _).steps
  | flowQuery h w => rw [exec_flowQuery]; exact (execFlowQuery_keep _ _ _).steps
  | flowAdd h w => rw [exec_flowAdd]; exact (execFlowAdd_keep _ _ _).steps
  | flowWrite h w => rw [exec_flowWrite]; exact (execFlowWrite_keep _ _ _).steps
  | flowDelete h w => rw [exec_flowDelete]; exact (execFlowDelete_keep _ _ _).steps
  | flowPortSet h w => rw [exec_flowPortSet]; exact (execFlowPortSet_keep _ _ _).steps
  | flowLatentSet h w => rw [exec_flowLatentSet]; exact (execFlowLatentSet_keep _ _ _).steps
  | flowRecovReset h w => rw [exec_flowRecovReset]; exact (execFlowRecovReset_keep _ _ _).steps
  | flowCountRead h w => rw [exec_flowCountRead]; exact (execFlowCountRead_keep _ _ _).steps
  | flowTableQuery h w => rw [exec_flowTableQuery]; exact (execFlowTableQuery_keep _ _ _).steps
  | queueQuery h w => rw [exec_queueQuery]; exact (execQueueQuery_keep _ _ _).steps
  | queueWrite h w => rw [exec_queueWrite]; exact (execQueueWrite_keep _ _ _).steps
  | queueFlush h w => rw [exec_queueFlush]; exact (execQueueFlush_keep _ _ _).steps
  | serviceSet h w => rw [exec_serviceSet]; exact (execServiceSet_keep _ _ _).steps
  | portShapeSet h w => rw [exec_portShapeSet]; exact (execPortShapeSet_keep _ _ _).steps
  | bufferSet h w => rw [exec_bufferSet]; exact (execBufferSet_keep _ _ _).steps
  | ingressSet h w => rw [exec_ingressSet]; exact (execIngressSet_keep _ _ _).steps
  | bufferQuery h w => rw [exec_bufferQuery]; exact (execBufferQuery_keep _ _ _).steps
  | twinQuery h w => rw [exec_twinQuery]; exact (execTwinQuery_keep _ _ _).steps
  | twinSet h w => rw [exec_twinSet]; exact (execTwinSet_keep _ _ _).steps
  | twinLead h w => rw [exec_twinLead]; exact (execTwinLead_keep _ _ _).steps
  | twinFollow h w => rw [exec_twinFollow]; exact (execTwinFollow_keep _ _ _).steps
  | twinHandover h w => rw [exec_twinHandover]; exact (execTwinHandover_keep _ _ _).steps
  | twinSync h w => rw [exec_twinSync]; exact (execTwinSync_keep _ _ _).steps
  | twinOff h w => rw [exec_twinOff]; exact (execTwinOff_keep _ _ _).steps
  | faultQuery h w => rw [exec_faultQuery]; exact (execFaultQuery_keep _ _ _).steps
  | faultSet h w => rw [exec_faultSet]; exact (execFaultSet_keep _ _ _).steps
  | faultClear h w => rw [exec_faultClear]; exact (execFaultClear_keep _ _ _).steps
  | faultnSet h w => rw [exec_faultnSet]; exact (execFaultnSet_keep _ _ _).steps
  | lsoSet h w => rw [exec_lsoSet]; exact (execLsoSet_keep _ _ _).steps
  | secQuery h w => rw [exec_secQuery]; exact (execSecQuery_keep _ _ _).steps
  | imageStage h w => rw [exec_imageStage]; exact (execImageStage_keep _ _ _).steps
  | imageVerify h w => rw [exec_imageVerify]; exact (execImageVerify_keep _ _ _).steps
  | imageActivate h w => rw [exec_imageActivate]; exact (execImageActivate_keep _ _ _).steps
  | attest h w => rw [exec_attest]; exact (execAttest_keep _ _ _).steps
  | rollbackAdvance h w => rw [exec_rollbackAdvance]; exact execRollbackAdvance_steps _ _ _
  | traceSet h w => rw [exec_traceSet]; exact (execTraceSet_keep _ _ _).steps
  | traceQuery h w => rw [exec_traceQuery]; exact (execTraceQuery_keep _ _ _).steps
  | archiveSet h w => rw [exec_archiveSet]; exact (execArchiveSet_keep _ _ _).steps
  | archiveQuery h w => rw [exec_archiveQuery]; exact (execArchiveQuery_keep _ _ _).steps
  | sysQuery h w => rw [exec_sysQuery]; exact (execSysQuery_keep _ _ _).steps
  | sysSet h w => rw [exec_sysSet]; exact (execSysSet_keep _ _ _).steps
  | sysRouteSet h w => rw [exec_sysRouteSet]; exact (execSysRouteSet_keep _ _ _).steps
  | sysRootReturn h w => rw [exec_sysRootReturn]; exact (execSysRootReturn_keep _ _ _).steps
  | hyithQuery h w => rw [exec_hyithQuery]; exact (execHyithQuery_keep _ _ _).steps
  | txnOpen h w => rw [exec_txnOpen]; exact (execTxnOpen_keep _ _ _).steps
  | txnCommit h w => rw [exec_txnCommit]; exact (execTxnCommit_keep _ _ _).steps
  | txnAbort h w => rw [exec_txnAbort]; exact (execTxnAbort_keep _ _ _).steps
  | txnQuery h w => rw [exec_txnQuery]; exact (execTxnQuery_keep _ _ _).steps
  | txnCommitApply txid => rw [exec_txnCommitApply]; exact (execTxnCommitApply_keep _ _).steps
  | txnRollback txid => rw [exec_txnRollback]; exact (execTxnRollback_keep _ _).steps
  | txnExpired txid => rw [exec_txnExpired]; exact (execTxnExpired_keep _ _).steps
  | cmdFifoWrite ofs data whole poisoned => rw [exec_cmdFifoWrite]; exact (execCmdFifoWrite_keep _ _ _ _ _).steps
  | cmdFifoWriteMode1 ofs data poisoned => rw [exec_cmdFifoWriteMode1]; exact (execCmdFifoWriteMode1_keep _ _ _ _).steps
  | cmdAbort => rw [exec_cmdAbort]; exact (execCmdAbort_keep _).steps
  | fifoModeWrite mode => rw [exec_fifoModeWrite]; exact (execFifoModeWrite_keep _ _).steps
  | rplRdWrite v => rw [exec_rplRdWrite]; exact (execRplRdWrite_keep _ _).steps
  | evtRdWrite v => rw [exec_evtRdWrite]; exact (execEvtRdWrite_keep _ _).steps
  | commandTake sel parityBad => rw [exec_commandTake]; exact execCommandTake_steps _ _ _
  | hyithCommandSend u => rw [exec_hyithCommandSend]; exact (execHyithCommandSend_keep _ _).steps
  | creditReceive u blk => rw [exec_creditReceive]; exact (execCreditReceive_keep _ _ _).steps
  | registerWrite addr v be => rw [exec_registerWrite]; exact (execRegisterWrite_keep _ _ _ _).steps
  | nowNsRead => rw [exec_nowNsRead]; exact (execNowNsRead_keep _).steps
  | capNsRead c => rw [exec_capNsRead]; exact (execCapNsRead_keep _ _).steps
  | digestLoRead r => rw [exec_digestLoRead]; exact (execDigestLoRead_keep _ _).steps
  | counterLoRead addr => rw [exec_counterLoRead]; exact (execCounterLoRead_keep _ _).steps
  | rcRead addr => rw [exec_rcRead]; exact (execRcRead_keep _ _).steps
  | tsTailWrite p v => rw [exec_tsTailWrite]; exact (execTsTailWrite_keep _ _ _).steps
  | segPutDb r v => rw [exec_segPutDb]; exact (execSegPutDb_keep _ _ _).steps
  | stagingWrite ofs data whole => rw [exec_stagingWrite]; exact (execStagingWrite_keep _ _ _ _).steps
  | faultStickyW1c loc v => rw [exec_faultStickyW1c]; exact (execFaultStickyW1c_keep _ _ _).steps
  | faultnRelease => rw [exec_faultnRelease]; exact (execFaultnRelease_keep _).steps
  | lsoDriveWrite v => rw [exec_lsoDriveWrite]; exact (execLsoDriveWrite_keep _ _).steps
  | clkoutWrite v => rw [exec_clkoutWrite]; exact (execClkoutWrite_keep _ _).steps
  | returnWrite => rw [exec_returnWrite]; exact (execReturnWrite_keep _).steps
  | wakeWrite => rw [exec_wakeWrite]; exact (execWakeWrite_keep _).steps
  | bootGo => rw [exec_bootGo]; exact (execBootGo_keep _).steps
  | moverSetWrite m ofs v => rw [exec_moverSetWrite]; exact (execMoverSetWrite_keep _ _ _ _).steps
  | moverGo m ctrl => rw [exec_moverGo]; exact (execMoverGo_keep _ _ _).steps
  | moverAbort m => rw [exec_moverAbort]; exact (execMoverAbort_keep _ _).steps
  | moverClear m => rw [exec_moverClear]; exact (execMoverClear_keep _ _).steps
  | ringCfgWrite d r ofs v => rw [exec_ringCfgWrite]; exact (execRingCfgWrite_keep _ _ _ _ _).steps
  | crRdWrite d r v => rw [exec_crRdWrite]; exact (execCrRdWrite_keep _ _ _ _).steps
  | moverBurstIssue d => rw [exec_moverBurstIssue]; exact (execMoverBurstIssue_keep _ _).steps
  | moverBurstComplete m ok data => rw [exec_moverBurstComplete]; exact (execMoverBurstComplete_keep _ _ _ _).steps
  | moverListFetch m dst ok entry => rw [exec_moverListFetch]; exact (execMoverListFetch_keep _ _ _ _ _).steps
  | moverRecordWrite m => rw [exec_moverRecordWrite]; exact (execMoverRecordWrite_keep _ _).steps
  | moverHandover m => rw [exec_moverHandover]; exact (execMoverHandover_keep _ _).steps
  | timeWordSend u => rw [exec_timeWordSend]; exact (execTimeWordSend_keep _ _).steps
  | timeWordReceive u blk t16 => rw [exec_timeWordReceive]; exact (execTimeWordReceive_keep _ _ _ _).steps
  | echoReceive u blk => rw [exec_echoReceive]; exact (execEchoReceive_keep _ _ _).steps
  | epochReceive u blk => rw [exec_epochReceive]; exact (execEpochReceive_keep _ _ _).steps
  | markReceive u blk reedEdges => rw [exec_markReceive]; exact (execMarkReceive_keep _ _ _ _).steps
  | rootReceive u blk => rw [exec_rootReceive]; exact (execRootReceive_keep _ _ _).steps
  | offsetSample ext utc => rw [exec_offsetSample]; exact (execOffsetSample_keep _ _ _).steps
  | deferredStepApply => rw [exec_deferredStepApply]; exact (execDeferredStepApply_keep _).steps
  | holdover => rw [exec_holdover]; exact (execHoldover_keep _).steps
  | captureEdge c falling t16 => rw [exec_captureEdge]; exact (execCaptureEdge_keep _ _ _ _).steps
  | pulseEdge u => rw [exec_pulseEdge]; exact (execPulseEdge_keep _ _).steps
  | lineBaseBoundary n => rw [exec_lineBaseBoundary]; exact (execLineBaseBoundary_keep _ _).steps
  | snapshotPublish n => rw [exec_snapshotPublish]; exact (execSnapshotPublish_keep _ _).steps
  | digestPublish r n => rw [exec_digestPublish]; exact (execDigestPublish_keep _ _ _).steps
  | courseBoundary p n => rw [exec_courseBoundary]; exact (execCourseBoundary_keep _ _ _).steps
  | courseBuildStart p f n => rw [exec_courseBuildStart]; exact (execCourseBuildStart_keep _ _ _ _).steps
  | courseLaunch p f n => rw [exec_courseLaunch]; exact (execCourseLaunch_keep _ _ _ _).steps
  | brickReceive p j => rw [exec_brickReceive]; exact (execBrickReceive_keep _ _ _).steps
  | reflexActionApply => rw [exec_reflexActionApply]; exact (execReflexActionApply_keep _).steps
  | arrClose p f n => rw [exec_arrClose]; exact (execArrClose_keep _ _ _ _).steps
  | axisDecisionInstant a n => rw [exec_axisDecisionInstant]; exact (execAxisDecisionInstant_keep _ _ _).steps
  | axisBoundary a n => rw [exec_axisBoundary]; exact (execAxisBoundary_keep _ _ _).steps
  | segmentFetch a ok => rw [exec_segmentFetch]; exact (execSegmentFetch_keep _ _ _).steps
  | valveEntryBoundary p k i => rw [exec_valveEntryBoundary]; exact (execValveEntryBoundary_keep _ _ _ _).steps
  | valveSwapInstant p => rw [exec_valveSwapInstant]; exact (execValveSwapInstant_keep _ _).steps
  | valveStopInstant p => rw [exec_valveStopInstant]; exact (execValveStopInstant_keep _ _).steps
  | verifyTimeout p => rw [exec_verifyTimeout]; exact (execVerifyTimeout_keep _ _).steps
  | mpacketReceive p t16 m => rw [exec_mpacketReceive]; exact (execMpacketReceive_keep _ _ _ _).steps
  | frameReceive p t16 bytes symErr => rw [exec_frameReceive]; exact (execFrameReceive_keep _ _ _ _ _).steps
  | cutThroughDecision p t16 head => rw [exec_cutThroughDecision]; exact (execCutThroughDecision_keep _ _ _ _).steps
  | egressSelect p => rw [exec_egressSelect]; exact (execEgressSelect_keep _ _).steps
  | frameTransmitEnd p => rw [exec_frameTransmitEnd]; exact (execFrameTransmitEnd_keep _ _).steps
  | spillReadback q => rw [exec_spillReadback]; exact (execSpillReadback_keep _ _).steps
  | sweepVisit v => rw [exec_sweepVisit]; exact (execSweepVisit_keep _ _).steps
  | sweepPassEnd d => rw [exec_sweepPassEnd]; exact (execSweepPassEnd_keep _ _).steps
  | pauseReceive p => rw [exec_pauseReceive]; exact (execPauseReceive_keep _ _).steps
  | pfcReceive p => rw [exec_pfcReceive]; exact (execPfcReceive_keep _ _).steps
  | pauseTimerExpire p c => rw [exec_pauseTimerExpire]; exact (execPauseTimerExpire_keep _ _ _).steps
  | pauseWd p c => rw [exec_pauseWd]; exact (execPauseWd_keep _ _ _).steps
  | pauseRefresh p c => rw [exec_pauseRefresh]; exact (execPauseRefresh_keep _ _ _).steps
  | linkStateChange p up remote => rw [exec_linkStateChange]; exact (execLinkStateChange_keep _ _ _ _).steps
  | inBandControlWord p speed fullDuplex link => rw [exec_inBandControlWord]; exact (execInBandControlWord_keep _ _ _ _ _).steps
  | laneAlignLoss q => rw [exec_laneAlignLoss]; exact (execLaneAlignLoss_keep _ _).steps
  | recalDone lane ok => rw [exec_recalDone]; exact (execRecalDone_keep _ _ _).steps
  | recalRetry lane => rw [exec_recalRetry]; exact (execRecalRetry_keep _ _).steps
  | pcsRestartDone p => rw [exec_pcsRestartDone]; exact (execPcsRestartDone_keep _ _).steps
  | ddrAlert d persists => rw [exec_ddrAlert]; exact (execDdrAlert_keep _ _ _).steps
  | ddrEventn d low => rw [exec_ddrEventn]; exact (execDdrEventn_keep _ _ _).steps
  | faultSourceFire loc src pair standing => rw [exec_faultSourceFire]; exact (execFaultSourceFire_keep _ _ _ _ _).steps
  | faultWindowClose loc src => rw [exec_faultWindowClose]; exact (execFaultWindowClose_keep _ _ _).steps
  | quarantineSquelch p => rw [exec_quarantineSquelch]; exact (execQuarantineSquelch_keep _ _).steps
  | reactionRegionReset r => rw [exec_reactionRegionReset]; exact (execReactionRegionReset_keep _ _).steps
  | faultnPulseEnd => rw [exec_faultnPulseEnd]; exact (execFaultnPulseEnd_keep _).steps
  | resetMaskEnd k => rw [exec_resetMaskEnd]; exact (execResetMaskEnd_keep _ _).steps
  | clockTrip clk => rw [exec_clockTrip]; exact (execClockTrip_keep _ _).steps
  | oscWaitEnd => rw [exec_oscWaitEnd]; exact (execOscWaitEnd_keep _).steps
  | pllLock => rw [exec_pllLock]; exact (execPllLock_keep _).steps
  | pllLockTimeout => rw [exec_pllLockTimeout]; exact (execPllLockTimeout_keep _).steps
  | rampStep => rw [exec_rampStep]; exact (execRampStep_keep _).steps
  | reedQual q => rw [exec_reedQual]; exact (execReedQual_keep _ _).steps
  | refclkQualified => rw [exec_refclkQualified]; exact (execRefclkQualified_keep _).steps
  | meterGateEnd counts => rw [exec_meterGateEnd]; exact (execMeterGateEnd_keep _ _).steps
  | reedTrimRound edges => rw [exec_reedTrimRound]; exact (execReedTrimRound_keep _ _).steps
  | por oscDly bootSrc => rw [exec_por]; exact (execPor_keep _ _ _).steps
  | pinReset low oscDly bootSrc => rw [exec_pinReset]; exact (execPinReset_keep _ _ _ _).steps
  | perstn low => rw [exec_perstn]; exact (execPerstn_keep _ _).steps
  | resetBegin k => rw [exec_resetBegin]; exact (execResetBegin_keep _ _).steps
  | resetRelease k => rw [exec_resetRelease]; exact (execResetRelease_keep _ _).steps
  | controlHandover => rw [exec_controlHandover]; exact (execControlHandover_keep _).steps
  | lockstepRejoin => rw [exec_lockstepRejoin]; exact (execLockstepRejoin_keep _).steps
  | coreMemoryError => rw [exec_coreMemoryError]; exact (execCoreMemoryError_keep _).steps
  | lockstepMismatch => rw [exec_lockstepMismatch]; exact (execLockstepMismatch_keep _).steps
  | gateHandshakeDone => rw [exec_gateHandshakeDone]; exact (execGateHandshakeDone_keep _).steps
  | gateHandshakeTimeout => rw [exec_gateHandshakeTimeout]; exact (execGateHandshakeTimeout_keep _).steps
  | unparkDone k => rw [exec_unparkDone]; exact (execUnparkDone_keep _ _).steps
  | bootStart => rw [exec_bootStart]; exact (execBootStart_keep _).steps
  | imageLoadDone slot0 slot1 => rw [exec_imageLoadDone]; exact (execImageLoadDone_keep _ _ _).steps
  | firmwareRunning => rw [exec_firmwareRunning]; exact (execFirmwareRunning_keep _).steps
  | stageDone bytes => rw [exec_stageDone]; exact (execStageDone_keep _ _).steps
  | verifyDone => rw [exec_verifyDone]; exact (execVerifyDone_keep _).steps
  | activationFlip => rw [exec_activationFlip]; exact (execActivationFlip_keep _).steps
  | activationResume => rw [exec_activationResume]; exact (execActivationResume_keep _).steps
  | firmwareReady => rw [exec_firmwareReady]; exact execFirmwareReady_steps _
  | fallback => rw [exec_fallback]; exact (execFallback_keep _).steps
  | leadInEdge t => rw [exec_leadInEdge]; exact (execLeadInEdge_keep _ _).steps
  | claimDead => rw [exec_claimDead]; exact (execClaimDead_keep _).steps
  | breathInEdge t => rw [exec_breathInEdge]; exact (execBreathInEdge_keep _ _).steps
  | breathWordReceive u blk t => rw [exec_breathWordReceive]; exact (execBreathWordReceive_keep _ _ _ _).steps
  | lone m => rw [exec_lone]; exact (execLone_keep _ _).steps
  | twinFrameReceive u t16 bytes => rw [exec_twinFrameReceive]; exact (execTwinFrameReceive_keep _ _ _ _).steps
  | twinFrameSend u => rw [exec_twinFrameSend]; exact (execTwinFrameSend_keep _ _).steps
  | brickRecordReceive => rw [exec_brickRecordReceive]; exact (execBrickRecordReceive_keep _).steps
  | directRecordReceive => rw [exec_directRecordReceive]; exact (execDirectRecordReceive_keep _).steps
  | commandRecordReceive => rw [exec_commandRecordReceive]; exact (execCommandRecordReceive_keep _).steps
  | axsyncRecordReceive => rw [exec_axsyncRecordReceive]; exact (execAxsyncRecordReceive_keep _).steps
  | digestBlockReceive u blk => rw [exec_digestBlockReceive]; exact (execDigestBlockReceive_keep _ _ _).steps
  | digestDeadline n => rw [exec_digestDeadline]; exact (execDigestDeadline_keep _ _).steps
  | followerArrClose p f n => rw [exec_followerArrClose]; exact (execFollowerArrClose_keep _ _ _ _).steps
  | handoverReceive u blk => rw [exec_handoverReceive]; exact (execHandoverReceive_keep _ _ _).steps
  | handoverBoundary => rw [exec_handoverBoundary]; exact (execHandoverBoundary_keep _).steps
  | masterTimeout => rw [exec_masterTimeout]; exact (execMasterTimeout_keep _).steps
  | traceRecordWrite d => rw [exec_traceRecordWrite]; exact (execTraceRecordWrite_keep _ _).steps
  | traceGap d => rw [exec_traceGap]; exact (execTraceGap_keep _ _).steps
  | bellRecordSend => rw [exec_bellRecordSend]; exact (execBellRecordSend_keep _).steps
  | bellGap => rw [exec_bellGap]; exact (execBellGap_keep _).steps
  | archiveLatch => rw [exec_archiveLatch]; exact (execArchiveLatch_keep _).steps
  | archiveRecordDone => rw [exec_archiveRecordDone]; exact (execArchiveRecordDone_keep _).steps
  | tapInstruction testEn i => rw [exec_tapInstruction]; exact (execTapInstruction_keep _ _ _).steps
  | courseHoldStart p f n => rw [exec_courseHoldStart]; exact (execCourseHoldStart_keep _ _ _ _).steps
  | forwardedCommandCommit => rw [exec_forwardedCommandCommit]; exact (execForwardedCommandCommit_keep _).steps
  | completerAbortRead bar addr dwords => rw [exec_completerAbortRead]; exact (execCompleterAbortRead_keep _ _ _ _).steps
  | functionLevelReset pf1 => rw [exec_functionLevelReset]; exact (execFunctionLevelReset_keep _ _).steps
  | railRestored loc pair => rw [exec_railRestored]; exact (execRailRestored_keep _ _ _).steps

end Sys2Proof.Machine
end

