-- ==== Sys2Proof/Machine/Pins.lean ====
section
/-! DEFINITION. What the pins show: the reset state of each output, and how each class behaves under a reset, under clock-loss safe
and in STANDBY (R69, R254, R256, R343, R344, R363, R397, R400, R404, R409, R410). The edges in the output list are those of the source
of a pin; the conditions here stand over it. -/

namespace Sys2Proof.Machine

/-- What an output shows: a level, its driver off, a lane in electrical idle, or a signal of its own. -/
inductive Drive where
  | low | high | highZ | idle | signal
  deriving DecidableEq, Repr

/-- The reset state of the pins holds: a PIN reset is held, the clocks wait, or clock-loss safe is in force (R404, R409). The row POR
ends with POR released, so no state of the model lies inside it. -/
def pinsReset (s : State) : Bool := s.power.pinHeld || s.clock.state == .clockWait || s.safety.clockSafe

/-- The package is in STANDBY. -/
def inStandby (s : State) : Bool := s.power.held == some .standby

/-- An output that is low in the reset state and in STANDBY, and else has its own level. -/
def outLow (s : State) (level : Bool) : Drive := if !pinsReset s && !inStandby s && level then .high else .low

/-- An open-drain output, released in the reset state and in STANDBY. -/
def outDrain (s : State) (pulled : Bool) : Drive := if !pinsReset s && !inStandby s && pulled then .low else .highZ

/-! ### The LVCMOS and open-drain outputs (R404) -/

/-- FAULTn. -/
def faultnPin (s : State) : Drive := if s.safety.asserted || pinsReset s then .low else .high

/-- LSO[i]. -/
def lsoPin (s : State) (i : Nat) : Drive := outDrain s (s.safety.lsoDrive.getLsbD i)

/-- LEAD_OUTn. -/
def leadPin (s : State) : Drive := outDrain s s.twin.claimOut

/-- BREATH_OUT. -/
def breathPin (s : State) : Drive := outLow s (breathLevel s)

/-- TP[k]. -/
def tpPin (s : State) (k : Nat) : Drive := outLow s (tpLevel s k)

/-- TRC_CLK. -/
def trcPin (s : State) : Drive := if trcRuns s && !pinsReset s && !inStandby s then .signal else .low

/-- TDO: at high impedance in Test-Logic-Reset (R400). -/
def tdoPin (s : State) : Drive := if s.tap.reset then .highZ else .signal

/-- A chain pin whose cell drives too, with what it shows otherwise: under boundary scan its cell or nothing (R400, R404). -/
def scanned (s : State) (n : Nat) (d : Drive) : Drive :=
  if s.tap.reset then d
  else match chainPin s n (d == .high) with
    | none => .highZ
    | some b => match s.tap.inst with
      | .extest | .clamp => if b then .high else .low
      | _ => d

/-! ### Lanes, PCIe and memory (R409, R410) -/

/-- The transmitter of a QSGMII or uplink lane. -/
def lanePin (s : State) (q : Nat) : Drive :=
  if !(hasLane s q) || s.power.pinHeld || inStandby s then .highZ
  else if pinsReset s || (lane s q).off then .idle
  else .signal

/-- The PCIe transmitters; in STANDBY the link is in L1, electrically idle. -/
def pciePin (s : State) : Drive :=
  if s.power.pinHeld then .highZ else if pinsReset s || inStandby s then .idle else .signal

/-- What the PHY of a DDR4 channel does: drivers off, DRAM in reset, in self-refresh, or in use. -/
inductive DdrPins where
  | off | reset | selfRefresh | active
  deriving DecidableEq, Repr

/-- The DDR4 pins of die d: DDRd_RESET_n low from a reset of the die until training; self-refresh while MEM is not in RUN, and in
DIE-PARK and STANDBY. -/
def ddrPins (s : State) (d : Nat) : DdrPins :=
  if !(hasDie s d) then .off
  else if !(ddrChan s d).resetN then .reset
  else if !(clocksRun s) || s.safety.clockSafe || dieState s d != 0 || inStandby s then .selfRefresh
  else .active

end Sys2Proof.Machine
end

