-- ==== Sys2Proof/Tests/Slice0.lean ====
section
/-! SUPPORT. Tests: the checks of WellFormed refuse what they are for, and for every statement with hypotheses concrete states and operands
that meet them, clause by clause; and worked examples of the spec. -/

namespace Sys2Proof.Tests

open Sys2Proof Sys2Proof.Machine

set_option Elab.async false

/-- Headers of commands to the package, a die, a region, a port. -/
def hG : CmdHdr := {}
def hD (d : Nat) : CmdHdr := { scope := 1, die := d }
def hR (r : Nat) : CmdHdr := { scope := 2, die := r / 4, region := r }
def hP (p : Nat) : CmdHdr := { scope := 3, die := dieOfPort p, region := if p < 512 then p / 64 else 0, port := p }

/-- The state after reset, and with one part of it changed. -/
def r0 : State := State.reset
def clk (f : Clock → Clock) : State := { r0 with clock := f r0.clock }
def pow (f : Power → Power) : State := { r0 with power := f r0.power }
def pt (p : Nat) (f : Port → Port) : State := modPort r0 p f

/-- s with uplink u in Hyith mode and its link up. -/
def hyp (s : State) (u : Nat) : State :=
  modPort s (512 + u) fun p => { p with set := { p.set with w0 := 0x242 }, link := { p.link with up := true } }

/-- Whether a command is accepted. -/
def accB (s : State) (op : Nat) (h : CmdHdr) (w : List Word) : Bool :=
  coresFree s && canTake s h && targetAgrees h && h.devno == s.sys.devno && (headerTests s h op w).isNone &&
    decide (h.txn = true → (findTxn s h h.txid false).isSome = true) && !(busy s h (unitsIn s op h w)) && (stoppedTarget s op h w).isNone

theorem acc {s : State} {op : Nat} {h : CmdHdr} {w : List Word} (a : accB s op h w = true) : Accepted s op h w := by
  constructor <;> simp_all [accB, coresFree]
  intro e
  simp_all

theorem solo {s : State} {op : Nat} {h : CmdHdr} {w : List Word} (a : accB s op h w = true) (b : h.txn = false) : Solo s op h w :=
  ⟨acc a, b⟩

/-- Whether the first transaction is the one that a command formed on its own, due at c, and its target runs then. -/
def dueB (s : State) (op : Nat) (h : CmdHdr) (w : List Word) (c : Nat) : Bool :=
  let u := settleAxes (atNs s c) c
  coresUp s && (stoppedTarget u op h w).isNone && !(leads u op h) &&
    s.txns.head?.any fun t => t.id == 0 && t.rollback.isNone && t.commit == some (c, h) &&
      t.members.head?.any fun m => m.op == op && m.h == h && m.w == w && !m.lost && !m.applied

theorem due {s : State} {op : Nat} {h : CmdHdr} {w : List Word} {c : Nat} (a : dueB s op h w c = true) :
    OwnDue s op h w c (settleAxes (atNs s c) c) := by
  simp only [dueB, Bool.and_eq_true, Bool.not_eq_true', Option.isNone_iff_eq_none, Option.any_eq_true] at a
  have f : partnerDoes (settleAxes (atNs s c) c) (leads (settleAxes (atNs s c) c) op h) = (settleAxes (atNs s c) c, true) := by
    rw [a.1.2]; rfl
  refine ⟨a.1.1.1, ?_, by rw [f], by rw [f], a.1.1.2⟩
  have b := a.2
  cases ht : s.txns with
  | nil => simp [ht] at b
  | cons t r =>
    cases hm : t.members with
    | nil => simp [ht, hm] at b
    | cons m l =>
      refine ⟨t, m, l, ?_, ?_⟩ <;> simp_all

/-- s with command op on its own waiting for its instant, 20,000 ns. -/
def ownRun (s : State) (op : Nat) (h : CmdHdr) (w : List Word) : State :=
  { s with txns := [{ id := 0, pcie := true, path := .pcie, opened := 0, expires := 0, commit := some (20000, h),
                       members := [{ op := op, h := h, w := w, st := 0, held := [] }] }] }

/-! ### Ill-formed commands and events are refused -/

/-- The header checks of every command. -/
theorem test_wf_refuses_headers :
    (([
      .idQuery,
      .echo,
      .clockQuery,
      .reedTrim,
      .clkoutSet,
      .parkSet,
      .resetIssue,
      .standbyEnter,
      .portQuery,
      .portSet,
      .portSleep,
      .portWake,
      .laneSet,
      .laneRecal,
      .portCountRead,
      .portReset,
      .timeQuery,
      .timeSourceSet,
      .timeStepPermit,
      .timeRateSet,
      .timeLinkSet,
      .timePortSet,
      .pulseSet,
      .pulseStop,
      .pinRouteSet,
      .captureSet,
      .tsringSet,
      .valveQuery,
      .valveSet,
      .valveWrite,
      .valveRead,
      .valveStart,
      .valveSwap,
      .valveStop,
      .preemptSet,
      .preemptQuery,
      .courseQuery,
      .courseSet,
      .bondWrite,
      .frameSet,
      .safeImageWrite,
      .courseStart,
      .courseSwap,
      .courseSafe,
      .courseResume,
      .courseStop,
      .courseLineSet,
      .axisQuery,
      .axisSet,
      .reflexSet,
      .reflexArm,
      .axisStart,
      .axisQstop,
      .axisOff,
      .segWrite,
      .digestQuery,
      .flowQuery,
      .flowAdd,
      .flowWrite,
      .flowDelete,
      .flowPortSet,
      .flowLatentSet,
      .flowRecovReset,
      .flowCountRead,
      .flowTableQuery,
      .queueQuery,
      .queueWrite,
      .queueFlush,
      .serviceSet,
      .portShapeSet,
      .bufferSet,
      .ingressSet,
      .bufferQuery,
      .twinQuery,
      .twinSet,
      .twinLead,
      .twinFollow,
      .twinHandover,
      .twinSync,
      .twinOff,
      .faultQuery,
      .faultSet,
      .faultClear,
      .faultnSet,
      .lsoSet,
      .secQuery,
      .imageStage,
      .imageVerify,
      .imageActivate,
      .attest,
      .rollbackAdvance,
      .traceSet,
      .traceQuery,
      .archiveSet,
      .archiveQuery,
      .sysQuery,
      .sysSet,
      .sysRouteSet,
      .sysRootReturn,
      .hyithQuery,
      .txnOpen,
      .txnCommit,
      .txnAbort,
      .txnQuery] : List (CmdHdr → List Word → Instr)).all
      fun c => !(c { scope := 4 } []).wf && (c {} []).wf) = true := by decide +kernel

theorem test_wf_refuses_0 :
    ([
      .idQuery { scope := 4 } [],
      .idQuery { die := 4 } [],
      .idQuery { region := 8 } [],
      .idQuery { port := 1024 } [],
      .idQuery { txid := 256 } [],
      .idQuery { devno := 262144 } [],
      .idQuery { path := .mgmt 520 0 [] } [],
      .idQuery { path := .hyith 8 0 } [],
      .idQuery { path := .hyith 0 262144 } [],
      .echo {} (List.replicate 4092 0),
      .txnCommitApply 256,
      .txnRollback 0,
      .txnRollback 256,
      .txnExpired 0,
      .txnExpired 256,
      .cmdFifoWrite 0x100000 [] false false,
      .cmdFifoWriteMode1 0x100000 [] false,
      .hyithCommandSend 8,
      .creditReceive 8 (List.replicate 14 0),
      .creditReceive 0 [],
      .registerWrite 0x4000000 0 0,
      .capNsRead 4,
      .digestLoRead 8,
      .counterLoRead 0x4000000,
      .counterLoRead 1,
      .rcRead 0x4000000,
      .rcRead 1,
      .tsTailWrite 520 0,
      .segPutDb 8 0,
      .stagingWrite 0x800000 [] false,
      .faultStickyW1c (.port 520) 0,
      .moverSetWrite 64 0 0,
      .moverSetWrite 0 1 0,
      .moverSetWrite 0 28 0,
      .moverGo 64 0,
      .moverAbort 64,
      .moverClear 64,
      .ringCfgWrite 2 0 0 0,
      .ringCfgWrite 0 4 0 0] : List Instr).all (fun i => !i.wf) = true := by decide +kernel

theorem test_wf_refuses_1 :
    ([
      .ringCfgWrite 0 0 12 0,
      .crRdWrite 2 0 0,
      .crRdWrite 0 4 0,
      .moverBurstIssue 2,
      .moverBurstComplete 64 false [],
      .moverListFetch 64 false false (List.replicate 4 0),
      .moverListFetch 0 false false [],
      .moverRecordWrite 64,
      .moverHandover 64,
      .timeWordSend 8,
      .timeWordReceive 8 (List.replicate 14 0) 0,
      .timeWordReceive 0 [] 0,
      .echoReceive 8 (List.replicate 14 0),
      .echoReceive 0 [],
      .epochReceive 8 (List.replicate 14 0),
      .epochReceive 0 [],
      .markReceive 8 (List.replicate 14 0) 0,
      .markReceive 0 [] 0,
      .rootReceive 8 (List.replicate 14 0),
      .rootReceive 0 [],
      .captureEdge 4 false 0,
      .pulseEdge 32,
      .digestPublish 8 0,
      .courseBoundary 512 0,
      .courseBuildStart 512 0 0,
      .courseBuildStart 0 4 0,
      .courseLaunch 512 0 0,
      .courseLaunch 0 4 0,
      .brickReceive 512 0,
      .brickReceive 0 256,
      .arrClose 512 0 0,
      .arrClose 0 4 0,
      .axisDecisionInstant 16384 0,
      .axisBoundary 16384 0,
      .segmentFetch 16384 false,
      .valveEntryBoundary 520 0 0,
      .valveEntryBoundary 0 0 4096,
      .valveSwapInstant 520,
      .valveStopInstant 520,
      .verifyTimeout 520] : List Instr).all (fun i => !i.wf) = true := by decide +kernel

theorem test_wf_refuses_2 :
    ([
      .mpacketReceive 520 0 .verify,
      .frameReceive 520 0 [] false,
      .cutThroughDecision 520 0 [],
      .egressSelect 520,
      .frameTransmitEnd 520,
      .spillReadback 262144,
      .sweepVisit (.queue 262144),
      .sweepPassEnd 2,
      .pauseReceive 520,
      .pfcReceive 520,
      .pauseTimerExpire 520 0,
      .pauseTimerExpire 0 8,
      .pauseWd 520 0,
      .pauseWd 0 8,
      .pauseRefresh 520 0,
      .pauseRefresh 0 8,
      .linkStateChange 520 false false,
      .inBandControlWord 520 0 false false,
      .inBandControlWord 0 4 false false,
      .laneAlignLoss 136,
      .recalDone 136 false,
      .recalRetry 136,
      .pcsRestartDone 520,
      .ddrAlert 2 false,
      .ddrEventn 2 false,
      .faultSourceFire (.port 520) 0 0 false,
      .faultSourceFire .package 17 0 false,
      .faultSourceFire .package 0 7 false,
      .faultWindowClose (.port 520) 0,
      .faultWindowClose .package 17,
      .quarantineSquelch 512,
      .reactionRegionReset 8,
      .resetMaskEnd (.port 520),
      .clockTrip 10,
      .meterGateEnd [],
      .resetBegin (.port 520),
      .resetRelease (.port 520),
      .unparkDone (.port 520),
      .breathWordReceive 8 (List.replicate 14 0) 0,
      .breathWordReceive 0 [] 0] : List Instr).all (fun i => !i.wf) = true := by decide +kernel

theorem test_wf_refuses_3 :
    ([
      .twinFrameReceive 8 0 [],
      .twinFrameSend 8,
      .digestBlockReceive 8 (List.replicate 14 0),
      .digestBlockReceive 0 [],
      .followerArrClose 512 0 0,
      .followerArrClose 0 4 0,
      .handoverReceive 8 (List.replicate 14 0),
      .handoverReceive 0 [],
      .traceRecordWrite 2,
      .traceGap 2,
      .courseHoldStart 512 0 0,
      .courseHoldStart 0 4 0,
      .completerAbortRead 1 0 0,
      .railRestored (.port 520) 0,
      .railRestored .package 7,
      .faultWindowClose (.region 8) 0,
      .faultWindowClose (.die 2) 0,
      .resetBegin (.region 8),
      .resetBegin (.die 2),
      .sweepVisit (.flow 1048576),
      .sweepVisit (.service 520 0),
      .sweepVisit (.service 0 8),
      .sweepVisit (.portShaper 520)] : List Instr).all (fun i => !i.wf) = true := by decide +kernel

theorem test_wf_allows :
    ([.idQuery {} [], .valveStop (hP 519) [], .bootStart, .txnCommitApply 0, .txnRollback 255, .frameReceive 519 0 [] false] : List Instr).all
      (fun i => i.wf) = true := by decide +kernel

/-! ### The spec's worked examples -/

/-- The nine bytes "123456789". -/
def digits9 : List Byte := [0x31, 0x32, 0x33, 0x34, 0x35, 0x36, 0x37, 0x38, 0x39]

/-- The check value of the CRC-16 of 03_courses.md, after R90. -/
theorem test_crc16_check_value : crc16 digits9 = 0x29B1 := by decide +kernel

/-- The check value of CRC32C in 06_streams_redundancy.md, after R175. -/
theorem test_crc32c_check_value : crc32c digits9 = 0xE3069283 := by decide +kernel

/-- The register block of P300, 01_architecture.md. -/
theorem test_port_block_p300 : portBase 300 = 0x0213C000 ∧ dieOfPort 300 = 1 := by decide +kernel

/-- The samples of the example after R62, 02_time.md: D 500 ns, offset 37 ns, and 39 ns with A = 4 ns. -/
theorem test_link_sample :
    linkSample (1000 * 65536) (1537 * 65536) (2000 * 65536) (2463 * 65536) 0 = (500 * 65536, 37 * 65536) ∧
    (linkSample (1000 * 65536) (1537 * 65536) (2000 * 65536) (2463 * 65536) (4 * 65536)).2 = 39 * 65536 := by decide +kernel

/-- The first leading edge of the example after R69, 02_time.md: k = 4. -/
theorem test_pulse_first_edge : firstAt 1000000000000 1000000 (1000003400000 + 1000) = (1000004000000, 4) := by decide +kernel

/-- The swap of the example after R107, 03_courses.md: k = 17. -/
theorem test_swap_boundary : firstAt 1000000000000 62500 (1000001000000 + 4000) = (1000001062500, 17) := by decide +kernel

/-- The segment of the example after R125, 04_trajectory.md. -/
def calender : List Int := [21474836480000, 51540896042189, -3221225472000, 171798691840, 0, 0]

theorem test_segment_evaluation : evalSeg calender 1953125 = (21575490005862, 51528315096269, -6440437678080, 0) := by decide +kernel

/-- Its recipe writes 5,023, 191,958, -1,500 and 0x000F. -/
theorem test_recipe :
    recipeWrites [(0x0009, 0x10000), (0x408A, 0x10000), (0x0103, 0x10000), (0x0144, 0x000F)] 21575490005862 51528315096269 (-6440437678080) 0 =
      ([(0, le 4 0x139F), (4, le 4 0x2EDD6), (8, le 2 0xFA24), (10, le 2 0x000F)], 0) := by decide +kernel

/-- The quick stop of the example after R135, 04_trajectory.md: at T the axis stands still at 121,920 counts. -/
theorem test_quick_stop :
    let q := profileFrom 0 0 (600000 * 2 ^ 32) (120000 * 2 ^ 32) (48000 * 2 ^ 32)
    q.t = 80000000 ∧ (runProfile (600000 * 2 ^ 32) 80000000 4 q).1 = (121920 * 2 ^ 32, 0, 0, 0) ∧
    (runProfile (600000 * 2 ^ 32) 80000000 4 q).2.1 = true := by decide +kernel

/-- The tokens of the example after R189, 06_streams_redundancy.md. -/
theorem test_policer_tokens :
    creditOf 20000000 = 655 ∧ (refreshB { tokens := 384000, last := 1000 } 655 3000 1012).tokens = 391860 ∧
    (refreshB { tokens := 7860, last := 1012 } 655 3000 1024).tokens = 15720 := by decide +kernel

/-- The tokens of the example after R211, 07_queues_shaping.md. -/
theorem test_shaper_tokens :
    creditOf 100000000 = 3277 ∧ (refreshB { tokens := 640000, last := 100 } 3277 4000 112).tokens = 679324 ∧
    (refreshB { tokens := -10028, last := 136 } 3277 4000 140).tokens = 3080 := by decide +kernel

/-- The credit of the example after R317, 11_mover.md: burst 1 at CORE cycle 103. -/
theorem test_mover_credit : creditCycle { act := { ctrl := 0x09810000 } } 256 = 103 := by decide +kernel

/-- The gates of P17 in the example after R167, 05_valves_preemption.md: the spans of its eight entries. -/
def p17 : Port :=
  { link := { up := true, speed := 2 }
    list0 := { len := 8, entries := [(0, { w0 := 0x7F000708 }), (1, { w0 := 0x80000640, w1 := 1 }), (2, { w0 := 0x7F003C60 }),
      (3, { w0 := 0x7F000478, w1 := 1 }), (4, { w0 := 0x40002710, w1 := 1 }), (5, { w0 := 0x7F0039D0 }),
      (6, { w0 := 0x800003E8, w1 := 1 }), (7, { w0 := 0x7F00413C })] }
    valve := { state := 2, list := 0, vbase := 0, vct := 62500 } }

theorem test_valve_gates :
    let o (c t0 t1 : Nat) : Bool := openThrough p17 c (t0 * qPerNs) (t1 * qPerNs)
    o 2 500 1076 = true ∧ o 6 136 1800 = true ∧ o 6 137 1801 = false ∧
    o 6 20000 30000 = true ∧ o 2 20000 20001 = false := by decide +kernel

/-- Short time of the example after R46, 02_time.md: at 10.5 s it is 1,910,065,408. -/
theorem test_short_time : shortNs { r0 with time := { r0.time with units := 10500000000 * 2 ^ 41 } } = 1910065408 := by
  decide +kernel

/-! ### Pins (R404, R409, R410) -/

/-- A package with RSTn held low, its LSO commanded and LEAD_OUTn pulled. -/
def pinLow : State := { r0 with
  power := { r0.power with pinHeld := true }, safety := { r0.safety with lsoDrive := 1 }, twin := { r0.twin with claimOut := true } }

theorem test_pins_reset : lsoPin pinLow 0 = .highZ ∧ leadPin pinLow = .highZ ∧ faultnPin pinLow = .low ∧ lanePin pinLow 0 = .highZ := by
  decide +kernel

/-- The same outputs without the reset. -/
theorem test_pins_run : let s := { pinLow with power := r0.power }
    lsoPin s 0 = .low ∧ leadPin s = .low ∧ lanePin s 0 = .signal ∧ ddrPins s 0 = .active := by decide +kernel

/-! ### Witnesses -/

def tim (f : TimeBase → TimeBase) : State := { r0 with time := f r0.time }
def txd (p : Nat) (f : TxDyn → TxDyn) : State := pt p fun x => { x with txd := f x.txd }
def crs (p : Nat) (f : CourseDyn → CourseDyn) : State := pt p fun x => { x with course := f x.course }
def vlv (p : Nat) (f : Valve → Valve) : State := pt p fun x => { x with valve := f x.valve }
def pls (u : Nat) (x : Pulse) : State := { r0 with pulse := { r0.pulse with units := [(u, x)] } }
def cap (c : Nat) (x : Capture) : State := { r0 with pulse := { r0.pulse with caps := [(c, x)] } }

/-- A port with a course of one brick each way in both banks and the safe bank, its link up at 1 Gb/s. -/
def cbank : Bank := { entries := [(0, 0x80000), (1, 0x90000)], descs := [(0, { w2 := 0x100, w3 := 200 }), (4, { w2 := 0x101, w3 := 60000 })] }
def cport : Port :=
  { ccfg := { ct := 62500, bankA := cbank, bankB := cbank, bankS := { entries := [(0, 0x100)], descs := [(0, { w2 := 0x100, w3 := 200 })] } }
    link := { up := true, speed := 2 } }
def cst (st : Nat) : State := pt 0 fun _ => { cport with course := { state := st } }
def axs (a : Nat) (x : Axis) : State := { r0 with axes := [(a, x)] }

def flw (l : Tbl Ctx) : State := { r0 with traffic := { r0.traffic with flows := l } }
def zseg : List Byte := List.replicate 56 0 ++ le 4 (crc32c (List.replicate 56 0)) ++ List.replicate 4 0
def k20 : List Byte := List.replicate 20 0

def f64 : List Byte := List.replicate 64 0
/-- Port 0 with its link up at 1 Gb/s, and the rest of its transmitter as given. -/
def lp (d : TxDyn) : State := pt 0 fun _ => { link := { up := true, speed := 2 }, txd := d }
def lpt (x : Tx) : State := lp { tx := some x }
/-- Port 0 receiving, its frames taken by STREAM 5 with first word w. -/
def lst (w : Word) : State :=
  let s := pt 0 fun _ => { link := { up := true, speed := 2 }, ident := { w0 := 0x400000, dflt := 5 } }
  { s with traffic := { s.traffic with flows := [(5, { w0 := w })] } }

def twn (f : Twin → Twin) : State := { r0 with twin := f r0.twin }
def mir (f : Mirror → Mirror) : State := { r0 with mirror := f r0.mirror }
/-- A control block with these first bytes. -/
def cb (l : List Byte) : List Byte :=
  let m := (l ++ List.replicate 12 0).take 12
  m ++ be 2 (crc16 m)
/-- Uplink 2, a twin lane, up and able to carry twin frames, with records that wait on lane p. -/
def twLane (p : Nat) : State :=
  modPort { mir fun m => { m with txQ := [{ lane := p, t := 0, bytes := [1] }] } with pending := [] } 514 fun x =>
    { x with link := { x.link with up := true, speed := 3 }, pre := { cfg := 0x801 } }
/-- A FOLLOWER with a twin course on port 0 and a record that waits. -/
def fol (l : List Byte) : State :=
  { (pt 0 fun _ => { cport with ccfg := { cport.ccfg with plane := 3 }, course := { state := 2 } }) with
    twin := { r0.twin with role := .follower }
    axes := [(0, { cfg := { ct := 62500, direct := true } })]
    mirror := { recQ := [{ lane := 514, t := 0, bytes := l }] } }
def fr (l : List Byte) : TwinRec := { lane := 514, t := 0, bytes := l }
def brk : List Byte := [1, 0, 0, 0, 0, 0x80, 0] ++ List.replicate 14 0 ++ be 2 (brickCheck 0 true 0 0 (List.replicate 8 0))
def cmdRec : List Byte := [3, 0, 0, 0, 0, 0, 0, 0] ++ cmdBytes hG 0x0704 [0]

def sys (f : Sys → Sys) : State := { r0 with sys := f r0.sys }
def hln (l : HLink) : State := hyp { r0 with hlinks := [(0, l)] } 0
/-- Uplink 0 the time source over Hyith. -/
def src0 (l : TimeLink) : State := hyp (tim fun t => { t with source := 1, links := [(0, l)] }) 0
def tA : Txn := { id := 1, pcie := true, path := .pcie, opened := 0, expires := 9 }
def tx1 (t : Txn) : State := { r0 with txns := [t] }
def hT : CmdHdr := { hP 0 with txn := true, txid := 1 }
def mA : Member := { op := 0x0505, h := hT, w := [0, 0, 0, 0, 0], st := 3, held := [] }
def sft (l : FaultLoc) (i : Nat) (f : FaultSrc) : State := { r0 with faults := [(srcKey l i, f)] }
def saf (f : Safety → Safety) : State := { r0 with safety := f r0.safety }

/-- An image of 64 zero bytes, signed by the key whose private part is 1 (public key: the base point of P-256). -/
def img : List Byte :=
  le 4 0x53484E44 ++ le 2 1 ++ le 2 0xFFFF ++ le 4 7 ++ le 4 0 ++ le 4 64 ++ le 4 0 ++
  be 32 0xf5a5fd42d16a20302798ef6ed309979b43003d2320d9f0e8ea9831a92759fb4b ++
  be 32 ecG.1 ++ be 32 ecG.2 ++ List.replicate 72 0 ++
  be 32 0x6b17d1f2e12c4247f8bce6e563a440f277037d812deb33a0f4a13945d898c296 ++ be 32 0x92b4fd6698930e7341a896fe949dc015aa547ceec4286288610e0d286763e05
/-- The package with that key's hash in its OTP. -/
def sgn0 (f : Sec → Sec) : State :=
  { r0 with
    otp := { r0.otp with keyProg := 1, keyHash := [0xd875db7def232236aec738c6b0bb3e80142f5d0fd8f4df24fed6eef5cbb50d9f, 0, 0, 0] }
    sec := f r0.sec }

theorem img_good : imageCheck (sgn0 id) img = none := by decide +kernel

/-- The check of an image rests on the OTP alone. -/
theorem img_ok {s : State} {g : List Byte} (h : s.otp = (sgn0 id).otp) (e : g = img) : imageCheck s g = none := by
  rw [e, ← img_good]
  unfold imageCheck headerCheck partNumber
  rw [h]

def sec (f : Sec → Sec) : State := { r0 with sec := f r0.sec }
def otp (f : Otp → Otp) : State := { r0 with otp := f r0.otp }
def trc (f : Trace → Trace) : State := { r0 with trace := f r0.trace }
def arc (f : Archive → Archive) : State := { r0 with arch := f r0.arch }
def rc0 : TraceRec := { type := 1, t16 := 0, addr := 0, args := [] }
def ff (f : Fifo → Fifo) : State := { r0 with fifo := f r0.fifo }
/-- The package with one packet in its command FIFO. -/
def pkt (op dev : Nat) : List Word := packet 0 op 0 0 0 0 0 dev 0 []
def fpk (l : List Word) : State := ff fun f => { (fillWords l f).1 with count := 1 }
def chn (m : Nat) (c : Chan) : State := { r0 with chans := [(m, c)] }

/-- Input 3 the PPS source, with these edges selected. -/
def ppsS (e : Nat) : State := { cap 3 { edges := e } with time := { r0.time with source := 4, srcIdx := 3 } }
def cBuild : Build := { n := 0, b := 0, safe := false, bank := false, desc := { w2 := 0x100, w3 := 200 }, entries := [0x80000] }
def cTx : Tx := { bytes := [], t16 := 0, cls := 7, now := 64, course := some (0, cBuild) }
/-- Port 0 is plane B of port 1's course, and brick 0 of both copies completes in one CORE cycle. -/
def planeS : State :=
  let i : InFrame := { f := 0, n := 0, b := 0, planeB := false, t16 := 0, hdr := 28, bytes := List.replicate 38 0 }
  let s := pt 0 fun _ => { cport with ccfg := { cport.ccfg with plane := 2, partner := 1 }, inFrame := some i }
  modPort s 1 fun _ => { cport with ccfg := { cport.ccfg with plane := 1, partner := 0 }, course := { state := 2 }, inFrame := some i }
/-- Port 0 going to sleep with the rest of a frame to send. -/
def pendS : State := pt 0 fun _ =>
  { link := { up := true, speed := 2, sleeping := true }, txd := { pend := some { bytes := f64, t16 := 0, cls := 0, now := 0 } } }
/-- Uplink 0 a further link beside the parent uplink 1. -/
def furS : State :=
  let s := { tim fun t => { t with units := 2 ^ 41 } with
    hlinks := [(0, { heard := true, peerDev := 7 }), (1, { heard := true, peerDev := 7 })], sys := { r0.sys with parent := 1 } }
  hyp (hyp s 0) 1
def mgF : MgmtFrame := { port := 512, sa := 0, tags := [], bytes := [] }
def hyF : HyithFrame := { uplink := 0, origin := 0, hops := 0, bytes := [] }
/-- Ring 0 of die 0's mover on, in host memory. -/
def rngS : State := modMring r0 0 0 fun x => { x with cfg := 4 }
/-- The MHV-2562. -/
def o2 : State := otp fun o => { o with part5124 := false }
/-- Region 7 on its way into PARK, its gate not yet closed. -/
def gateS : State := pow fun p => { p with gate := some (.region 7, 9, hG) }
/-- A LEADER whose axis 0 is in FAULT and whose one transaction t turns it OFF. -/
def ledS (t : Txn) : State :=
  { (axs 0 { dyn := { state := 6 } }) with twin := { r0.twin with role := .leader }, txns := [t] }
def mQ (n : Nat) : Member := { op := 0x0707, h := { hG with txn := n != 0, txid := n }, w := [0], st := 0, held := [] }
def tQ (n : Nat) (c : Option Nat) : Txn := { tA with id := n, members := [mQ n], commit := c.map fun t => (t, hG) }
def mF : Member := { op := 0x0807, h := { hD 0 with txn := true, txid := 1 }, w := [1, 0], st := 0, held := [] }
def tF : Txn := { tA with commit := some (9, hG), members := [mF, { mA with lost := true }] }
/-- A frame of frame index 0, its working bank's descriptor and entries taken at its start. -/
def inF : InFrame :=
  { f := 0, n := 0, b := 0, planeB := false, t16 := 0, hdr := 28, bytes := [], desc := { w2 := 0x101, w3 := 60000 }, entries := [0x90000] }

/-- ClockCommandsTakeEffect. -/
theorem wit_ClockCommandsTakeEffect :
    (∃ (h : CmdHdr) (w : List Word) (s : State), Accepted s 0x0101 h w) ∧
    (∃ (h : CmdHdr) (w : List Word) (s : State), Accepted s 0x0102 h w) ∧
    (∃ (h : CmdHdr) (w : List Word) (s : State), Accepted s 0x0201 h w) ∧
    (∃ (h : CmdHdr) (w : List Word) (s : State), Accepted s 0x0203 h w ∧ fld w 0 31 16 = 0 ∧ bits (prm w 0) 3 0 ≤ 10 ∧
      clkKhz (bits (prm w 0) 3 0) ≤ 125000 * (bits (prm w 0) 15 4 + 1)) ∧
    (∃ (h : CmdHdr) (w : List Word) (s : State), Accepted s 0x0203 h w ∧
      ((fld w 0 31 16 ≠ 0 ∨ 10 < bits (prm w 0) 3 0 ∨ 125000 * (bits (prm w 0) 15 4 + 1) < clkKhz (bits (prm w 0) 3 0)))) ∧
    (∃ (v : Word) (s : State), Reached s 0x10020 ∧ bits v.toNat 3 0 ≤ 10 ∧ clkKhz (bits v.toNat 3 0) ≤ 125000 * (bits v.toNat 15 4 + 1)) ∧
    (∃ (v : Word) (s : State), Reached s 0x10020 ∧ 125000 * (bits v.toNat 15 4 + 1) < clkKhz (bits v.toNat 3 0)) ∧
    (∃ (h : CmdHdr) (w : List Word) (s : State), Accepted s 0x0202 h w ∧ fld w 0 31 11 = 0 ∧ bit (prm w 0) 0 = false ∧ s.trimRun = none ∧
      s.clock.refOk = true) ∧
    (∃ (h : CmdHdr) (w : List Word) (s : State), Accepted s 0x0202 h w ∧ fld w 0 31 11 = 0 ∧ bit (prm w 0) 0 = true ∧ 512 ≤ fld w 0 10 1 ∧
      fld w 0 10 1 < 520 ∧ hasPort s (fld w 0 10 1) = true ∧ hyOn s (fld w 0 10 1 - 512) = true ∧
      [1, 3, 4].contains (lrole s (fld w 0 10 1 - 512)) = true ∧ s.trimRun = none) ∧
    (∃ (h : CmdHdr) (w : List Word) (s : State), Accepted s 0x0202 h w ∧ fld w 0 31 11 = 0 ∧ bit (prm w 0) 0 = false ∧
      (s.trimRun.isSome ∨ s.clock.refOk = false)) ∧
    (∃ (h : CmdHdr) (w : List Word) (s : State), Accepted s 0x0202 h w ∧ fld w 0 31 11 = 0 ∧ bit (prm w 0) 0 = true ∧ fld w 0 10 1 < 520 ∧
      hasPort s (fld w 0 10 1) = false) :=
  ⟨⟨hG, [], r0, acc (by decide +kernel)⟩,
   ⟨hG, [7], r0, acc (by decide +kernel)⟩,
   ⟨hG, [], r0, acc (by decide +kernel)⟩,
   ⟨hG, [0], r0, acc (by decide +kernel), by decide +kernel⟩,
   ⟨hG, [0xB], r0, acc (by decide +kernel), by decide +kernel⟩,
   ⟨0, r0, ⟨by decide +kernel, by decide +kernel⟩, by decide +kernel⟩,
   ⟨3, r0, ⟨by decide +kernel, by decide +kernel⟩, by decide +kernel⟩,
   ⟨hG, [0], r0, acc (by decide +kernel), by decide +kernel⟩,
   ⟨hG, [1 + 2 * 512], hyp { r0 with sys := { r0.sys with parent := 0 } } 0, acc (by decide +kernel), by decide +kernel⟩,
   ⟨hG, [0], clk fun c => { c with refOk := false }, acc (by decide +kernel), by decide +kernel⟩,
   ⟨hG, [1 + 2 * 300], o2, acc (by decide +kernel), by decide +kernel⟩⟩

/-- ParkAndResetCommandsTakeEffect. -/
theorem wit_ParkAndResetCommandsTakeEffect :
    (∃ (h : CmdHdr) (w : List Word) (s : State), Accepted s 0x0204 h w ∧ prm w 0 = 1 ∧ h.scope = 2 ∧ heldByReset s (.region h.region) = false ∧
      (s.power.leaving.any fun e => e.1 == .region h.region) = false ∧ regionState s h.region ≠ 1 ∧ lowBarred s (.region h.region) = none) ∧
    (∃ (h : CmdHdr) (w : List Word) (s : State), Accepted s 0x0204 h w ∧ prm w 0 = 0 ∧ h.scope = 2 ∧ heldByReset s (.region h.region) = false ∧
      (s.power.leaving.any fun e => e.1 == .region h.region) = false ∧ regionState s h.region = 1) ∧
    (∃ (h : CmdHdr) (w : List Word) (s : State) (y : ℕ), Accepted s 0x0204 h w ∧ prm w 0 = 1 ∧ h.scope = 2 ∧
      heldByReset s (.region h.region) = false ∧ (s.power.leaving.any fun e => e.1 == .region h.region) = false ∧ regionState s h.region ≠ 1 ∧
      lowBarred s (.region h.region) = some y) ∧
    (∃ (h : CmdHdr) (w : List Word) (s : State), Accepted s 0x0206 h w ∧ prm w 0 = 1 ∧ s.twin.role = .off ∧ lowBarred s .standby = none) ∧
    (∃ (h : CmdHdr) (w : List Word) (s : State), Accepted s 0x0205 h w ∧ prm w 0 = 1 ∧ h.scope = 2) ∧
    (∃ (h : CmdHdr) (w : List Word) (s : State), Accepted s 0x0205 h w ∧ prm w 0 = 1 ∧ h.scope = 0) ∧
    (∃ (h : CmdHdr) (w : List Word) (s : State), Accepted s 0x0205 h w ∧ prm w 0 = 1 ∧ h.scope = 1 ∧ s.otp.part5124 = true ∧
      h.die ≠ b2n s.power.active1) ∧
    (∃ (h : CmdHdr) (w : List Word) (s : State), Accepted s 0x0205 h w ∧ prm w 0 = 1 ∧ h.scope = 1 ∧ s.otp.part5124 = true ∧
      h.die = b2n s.power.active1 ∧ s.power.lockstep = false) :=
  ⟨⟨hR 7, [1], r0, acc (by decide +kernel), by decide +kernel⟩,
   ⟨hR 7, [0], pow fun p => { p with region := [(7, 1)] }, acc (by decide +kernel), by decide +kernel⟩,
   ⟨hR 0, [1], pt 0 fun p => { p with course := { p.course with state := 1 } }, 2, acc (by decide +kernel), by decide +kernel⟩,
   ⟨hG, [1], r0, acc (by decide +kernel), by decide +kernel⟩,
   ⟨hR 7, [1], r0, acc (by decide +kernel), by decide +kernel⟩,
   ⟨hG, [1], r0, acc (by decide +kernel), by decide +kernel⟩,
   ⟨hD 1, [1], r0, acc (by decide +kernel), by decide +kernel⟩,
   ⟨hD 0, [1], pow fun p => { p with lockstep := false }, acc (by decide +kernel), by decide +kernel⟩⟩

/-- ClockEventsTakePlace. -/
theorem wit_ClockEventsTakePlace :
    (∃ (s : State), s.clock.state = .oscWait ∧ s.clock.reedQual = true ∧ s.clock.refOk = true) ∧
    (∃ (s : State), s.clock.state = .oscWait ∧ s.clock.reedQual = true ∧ s.clock.refOk = false) ∧
    (∃ (s : State), s.clock.state = .oscWait ∧ s.clock.reedQual = false) ∧
    (∃ (s : State), s.clock.state = .lock ∧ nowNs s ≤ s.clock.due) ∧
    (∃ (s : State), s.clock.state = .lock ∧ s.clock.triedOther = false ∧ s.clock.refReed = false ∧ s.clock.reedQual = true) ∧
    (∃ (s : State), s.clock.state = .ramp ∧ 2 < s.clock.rampDiv) ∧
    (∃ (s : State), s.clock.state = .ramp ∧ s.clock.rampDiv ≤ 2) ∧
    (∃ (s : State), s.clock.state ≠ .off ∧ s.clock.reedQual = true) ∧
    (∃ (s : State), s.clock.reedQual = false ∧ s.clock.fromTrip = false) ∧
    (∃ (s : State), s.clock.reedQual = true) ∧
    (∃ (s : State), s.clock.state = .run) ∧
    (∃ (s : State), Reached s 0x10010 ∧ (s.clock.state = .lock ∨ s.clock.state = .ramp ∨ s.clock.state = .run) ∧ s.clock.refReed = true ∧
      s.clock.refOk = true ∧ s.ports.all (fun e => e.2.course.state == 0) = true) ∧
    (∃ (s : State), Reached s 0x10010 ∧ s.clock.refReed = false) ∧
    (∃ (s : State) (z : TrimRun), s.trimRun = some z ∧ z.port = none) ∧
    (∃ (s : State) (z : TrimRun) (x y : ℤ), s.trimRun = some z ∧ 0 < y ∧ 2 * x.natAbs ≤ 25 * y.natAbs) ∧
    (∃ (s : State), s.trimRun = none) :=
  ⟨⟨clk fun c => { c with state := .oscWait }, by decide +kernel⟩,
   ⟨clk fun c => { c with state := .oscWait, refOk := false }, by decide +kernel⟩,
   ⟨clk fun c => { c with state := .oscWait, reedQual := false }, by decide +kernel⟩,
   ⟨clk fun c => { c with state := .lock }, by decide +kernel⟩,
   ⟨clk fun c => { c with state := .lock }, by decide +kernel⟩,
   ⟨clk fun c => { c with state := .ramp, rampDiv := 4 }, by decide +kernel⟩,
   ⟨clk fun c => { c with state := .ramp, rampDiv := 2 }, by decide +kernel⟩,
   ⟨r0, by decide +kernel⟩,
   ⟨clk fun c => { c with reedQual := false }, by decide +kernel⟩,
   ⟨r0, by decide +kernel⟩,
   ⟨r0, by decide +kernel⟩,
   ⟨clk fun c => { c with refReed := true }, ⟨by decide +kernel, by decide +kernel⟩, by decide +kernel⟩,
   ⟨r0, ⟨by decide +kernel, by decide +kernel⟩, by decide +kernel⟩,
   ⟨{ r0 with trimRun := some { port := none } }, _, rfl, by decide +kernel⟩,
   ⟨{ r0 with trimRun := some { port := none } }, _, 25, 2, rfl, by decide +kernel⟩,
   ⟨r0, by decide +kernel⟩⟩

/-- GateAndLowPowerEventsTakePlace. -/
theorem wit_GateAndLowPowerEventsTakePlace :
    (∃ (s : State) (r t : ℕ) (h : CmdHdr), s.power.gate = some (.region r, t, h) ∧ nowNs s ≤ t) ∧
    (∃ (s : State) (d t : ℕ) (h : CmdHdr), s.power.gate = some (.die d, t, h) ∧ nowNs s ≤ t ∧ d ≠ b2n s.power.active1) ∧
    (∃ (s : State) (t : ℕ) (h : CmdHdr), s.power.gate = some (.standby, t, h) ∧ nowNs s ≤ t) ∧
    (∃ (s : State) (r t : ℕ) (h : CmdHdr), s.power.gate = some (.region r, t, h)) ∧
    (∃ (s : State) (r t : ℕ) (h : CmdHdr) (a : ℕ), s.power.gate = some (.region r, t, h) ∧ s.pcie.up = true ∧ (blkOf a).regionOf = some r ∧
      hasRegion s r = true ∧ regionState s r = 0) ∧
    (∃ (s : State) (r t : ℕ) (h : CmdHdr) (a : ℕ), s.power.gate = some (.region r, t, h) ∧ s.pcie.up = true ∧ (blkOf a).regionOf = some r ∧
      hasRegion s r = true ∧ regionState s r = 0) ∧
    (∃ (s : State), Reached s 0x20020 ∧ s.power.held = some .standby ∧ s.power.leaving = []) ∧
    (∃ (s : State) (r t : ℕ), s.power.leaving = [(.region r, t)]) ∧
    (∃ (s : State) (d t : ℕ), s.power.leaving = [(.die d, t)]) :=
  ⟨⟨pow fun p => { p with gate := some (.region 7, 9, hG) }, _, _, _, rfl, by decide +kernel⟩,
   ⟨pow fun p => { p with gate := some (.die 1, 9, hG) }, _, _, _, rfl, by decide +kernel⟩,
   ⟨pow fun p => { p with gate := some (.standby, 9, hG) }, _, _, rfl, by decide +kernel⟩,
   ⟨pow fun p => { p with gate := some (.region 7, 9, hG) }, _, _, _, rfl⟩,
   ⟨gateS, _, _, _, portBase 511, rfl, by decide +kernel⟩,
   ⟨gateS, _, _, _, portBase 511, rfl, by decide +kernel⟩,
   ⟨pow fun p => { p with held := some .standby }, ⟨by decide +kernel, by decide +kernel⟩, by decide +kernel⟩,
   ⟨pow fun p => { p with leaving := [(.region 7, 9)] }, _, _, rfl⟩,
   ⟨pow fun p => { p with leaving := [(.die 1, 9)] }, _, _, rfl⟩⟩

/-- ResetsTakePlace. -/
theorem wit_ResetsTakePlace :
    (∃ (s : State) (r t : ℕ), s.power.resetAt = [(.region r, t)]) ∧
    (∃ (s : State) (t : ℕ), s.power.resetAt = [(.die 0, t)] ∧ s.otp.part5124 = true ∧ s.power.active1 = false) ∧
    (∃ (s : State) (r t : ℕ), s.power.ends = [(.region r, some t)]) ∧
    (∃ (s : State) (t : ℕ), s.power.ends = [(.pkg, some t)]) ∧
    (∃ (h : CmdHdr) (w : List Word) (s : State), Accepted s 0x0308 h w ∧ (courseOf s h.port).state = 0) ∧
    (∃ (h : CmdHdr) (w : List Word) (s : State), Accepted s 0x0308 h w ∧ (courseOf s h.port).state ≠ 0) ∧
    (∃ (s : State) (k : ResetKind) (e : Option ℕ) (b : ResetKind), s.power.ends = [(k, e)] ∧ absorbs k b = true) ∧
    (∃ (s : State), s.power.ends = []) ∧
    (∃ (s : State), s.power.pinHeld = true ∧ s.clock.state = .run ∧ s.power.ends = [(.pin, none)]) ∧
    (∃ (s : State), inFilling s.fifo = false) ∧
    (∃ (s : State), s.power.pinHeld = false ∧ s.sec.bootState ≠ 0 ∧ s.clock.pciOk = true) :=
  ⟨⟨pow fun p => { p with resetAt := [(.region 7, 9)] }, _, _, rfl⟩,
   ⟨pow fun p => { p with resetAt := [(.die 0, 9)] }, _, rfl, by decide +kernel⟩,
   ⟨pow fun p => { p with ends := [(.region 7, some 9)] }, _, _, rfl⟩,
   ⟨pow fun p => { p with ends := [(.pkg, some 9)] }, _, rfl⟩,
   ⟨hP 519, [], r0, acc (by decide +kernel), by decide +kernel⟩,
   ⟨hP 0, [], pt 0 fun p => { p with course := { p.course with state := 2 } }, acc (by decide +kernel), by decide +kernel⟩,
   ⟨pow fun p => { p with ends := [(.pkg, some 9)] }, .pkg, some 9, .port 0, by decide +kernel⟩,
   ⟨r0, by decide +kernel⟩,
   ⟨pow fun p => { p with pinHeld := true, ends := [(.pin, none)] }, by decide +kernel⟩,
   ⟨r0, by decide +kernel⟩,
   ⟨r0, by decide +kernel⟩⟩

/-- ControlPassesBetweenThePairs. -/
theorem wit_ControlPassesBetweenThePairs :
    (∃ (s : State) (t : ℕ), s.power.handover = some (t, none)) ∧
    (∃ (s : State) (t d : ℕ), s.power.handover = some (t, some (d, false))) ∧
    (∃ (s : State) (t d : ℕ), s.power.handover = some (t, some (d, true))) ∧
    (∃ (s : State), s.otp.part5124 = true ∧ s.power.memError = false ∧ s.power.active1 = false ∧ s.power.handover = none) ∧
    (∃ (s : State), s.otp.part5124 = true) ∧
    (∃ (s : State), s.otp.part5124 = false) ∧
    (∃ (s : State), s.power.rejoin = true ∧ (List.range (nDies s)).all (dieRuns s) = true ∧ s.power.memError = false ∧ s.power.active1 = false) :=
  ⟨⟨pow fun p => { p with handover := some (9, none) }, _, rfl⟩,
   ⟨pow fun p => { p with handover := some (9, some (0, false)) }, _, _, rfl⟩,
   ⟨pow fun p => { p with handover := some (9, some (0, true)) }, _, _, rfl⟩,
   ⟨r0, by decide +kernel⟩,
   ⟨r0, by decide +kernel⟩,
   ⟨{ r0 with otp := { r0.otp with part5124 := false } }, by decide +kernel⟩,
   ⟨pow fun p => { p with rejoin := true }, by decide +kernel⟩⟩

/-- PortCommandsTakeEffect. -/
theorem wit_PortCommandsTakeEffect :
    (∃ (h : CmdHdr) (w : List Word) (s : State), Accepted s 0x0301 h w) ∧
    (∃ (h : CmdHdr) (w : List Word) (s : State), Accepted s 0x0307 h w ∧ prm w 0 = 0 ∧ prm w 1 % 4 = 0 ∧ 1 ≤ prm w 2 ∧ prm w 2 ≤ 128 ∧
      prm w 1 + 4 * prm w 2 ≤ 0x1000) ∧
    (∃ (h : CmdHdr) (w : List Word) (s : State), Accepted s 0x0307 h w ∧ prm w 0 = 1 ∧ prm w 1 = 0x108 ∧ prm w 2 = 1) ∧
    (∃ (h : CmdHdr) (w : List Word) (s : State), Accepted s 0x0302 h w ∧ portSetBad h.port w (portSetNew h.port w (port s h.port).set) = none ∧
      ((portSetNew h.port w (port s h.port).set).w0.toNat ^^^ (port s h.port).set.w0.toNat) &&& 0x23F = 0) ∧
    (∃ (h : CmdHdr) (w : List Word) (s : State), Accepted s 0x0302 h w ∧ portSetBad h.port w (portSetNew h.port w (port s h.port).set) = none ∧
      ((portSetNew h.port w (port s h.port).set).w0.toNat ^^^ (port s h.port).set.w0.toNat) &&& 0x23F ≠ 0 ∧ (courseOf s h.port).state = 0 ∧
      isTimeUplink s h.port = false) ∧
    (∃ (h : CmdHdr) (w : List Word) (s : State), Accepted s 0x0302 h w ∧ portSetBad h.port w (portSetNew h.port w (port s h.port).set) = none ∧
      ((portSetNew h.port w (port s h.port).set).w0.toNat ^^^ (port s h.port).set.w0.toNat) &&& 0x23F ≠ 0 ∧ (courseOf s h.port).state ≠ 0) ∧
    (∃ (h : CmdHdr) (w : List Word) (s : State) (d : ℕ), Accepted s 0x0302 h w ∧
      portSetBad h.port w (portSetNew h.port w (port s h.port).set) = some d) ∧
    (∃ (p : ℕ) (s : State), hasPort s p = true) ∧
    (∃ (h : CmdHdr) (w : List Word) (s : State), Accepted s 0x0303 h w ∧ (courseOf s h.port).state = 0 ∧ (port s h.port).link.sleeping = false) ∧
    (∃ (p : ℕ) (s : State), (port s p).link.sleeping = true ∧ (port s p).link.up = false) ∧
    (∃ (p : ℕ) (s : State), ((port s p).link.sleeping = false ∨ (port s p).link.up = true)) ∧
    (∃ (p : ℕ) (s : State), ((port s p).txd.tx.isSome = true ∨ (port s p).txd.pend.isSome = true)) ∧
    (∃ (p : ℕ) (s : State), (port s p).link.sleeping = true ∧ (port s p).txd.tx = none ∧ (port s p).txd.pend = none) ∧
    (∃ (h : CmdHdr) (w : List Word) (s : State), Accepted s 0x0303 h w ∧ (courseOf s h.port).state ≠ 0) ∧
    (∃ (h : CmdHdr) (w : List Word) (s : State), Accepted s 0x0304 h w ∧ (port s h.port).link.sleeping = true ∧
      (lane s (laneOf h.port)).off = false) ∧
    (∃ (h : CmdHdr) (w : List Word) (s : State), Accepted s 0x0304 h w ∧ (port s h.port).link.sleeping = true ∧
      (lane s (laneOf h.port)).off = true) :=
  ⟨⟨hP 0, [], r0, acc (by decide +kernel)⟩,
   ⟨hP 511, [0, 0xE00, 128], r0, acc (by decide +kernel), by decide +kernel⟩,
   ⟨hP 0, [1, 0x108, 1], r0, acc (by decide +kernel), by decide +kernel⟩,
   ⟨hP 0, [0, 0, 0, 0, 0, 0, 0], r0, acc (by decide +kernel), by decide +kernel⟩,
   ⟨hP 0, [1, 0, 0, 0, 0, 0, 0], r0, acc (by decide +kernel), by decide +kernel⟩,
   ⟨hP 0, [1, 0, 0, 0, 0, 0, 0], pt 0 fun p => { p with course := { p.course with state := 2 } }, acc (by decide +kernel), by decide +kernel⟩,
   ⟨hP 0, [64, 0, 0, 0, 0, 0, 0], r0, _, acc (by decide +kernel), rfl⟩,
   ⟨519, r0, by decide +kernel⟩,
   ⟨hP 0, [], r0, acc (by decide +kernel), by decide +kernel⟩,
   ⟨0, pt 0 fun x => { x with link := { x.link with sleeping := true } }, by decide +kernel⟩,
   ⟨0, r0, by decide +kernel⟩,
   ⟨0, lpt { bytes := f64, t16 := 0, cls := 0, now := 64 }, by decide +kernel⟩,
   ⟨0, pt 0 fun x => { x with link := { x.link with sleeping := true } }, by decide +kernel⟩,
   ⟨hP 0, [], pt 0 fun p => { p with course := { p.course with state := 2 } }, acc (by decide +kernel), by decide +kernel⟩,
   ⟨hP 0, [], pt 0 fun p => { p with link := { p.link with sleeping := true } }, acc (by decide +kernel), by decide +kernel⟩,
   ⟨hP 0, [], { (pt 0 fun p => { p with link := { p.link with sleeping := true } }) with lanes := [(0, { off := true })] }, acc (by decide +kernel),
     by decide +kernel⟩⟩

/-- LanesAndLinksChange. -/
theorem wit_LanesAndLinksChange :
    (∃ (h : CmdHdr) (w : List Word) (s : State), Accepted s 0x0305 h w ∧ fld w 0 31 1 = 0 ∧ fld w 1 31 24 = 0 ∧ fld w 1 7 0 ≤ 63 ∧
      fld w 1 15 8 ≤ 15 ∧ fld w 1 23 16 ≤ 31) ∧
    (∃ (h : CmdHdr) (w : List Word) (s : State), Accepted s 0x0306 h w ∧ prm w 0 = 0 ∧ (lane s (laneOf h.port)).recal = some 1) ∧
    (∃ (h : CmdHdr) (w : List Word) (s : State), Accepted s 0x0306 h w ∧ prm w 0 = 0 ∧ (lane s (laneOf h.port)).recal ≠ some 1) ∧
    (∃ (h : CmdHdr) (w : List Word) (s : State), Accepted s 0x0306 h w ∧ prm w 0 = 1 ∧
      ((lanePorts (laneOf h.port)).any fun p => (courseOf s p).state != 0) = false) ∧
    (∃ (q : ℕ) (s : State) (k : ℕ), hasLane s q = true ∧ (lane s q).recal = some k) ∧
    (∃ (q : ℕ) (s : State) (k : ℕ), hasLane s q = true ∧ (lane s q).recal = some k) ∧
    (∃ (q : ℕ) (s : State), hasLane s q = true ∧ (lane s q).retry = true) ∧
    (∃ (q : ℕ) (s : State), q < 128 ∧ hasLane s q = true) ∧
    (∃ (p : ℕ) (r : Bool) (s : State), hasPort s p = true ∧ (isUplink p = false ∨ r = true)) ∧
    (∃ (p : ℕ) (s : State), hasPort s p = true ∧ isUplink p = true) ∧
    (∃ (p : ℕ) (s : State), hasPort s p = true ∧ canLink s p = true ∧ 512 ≤ p) ∧
    (∃ (p v : ℕ) (s u : State), p < 512 ∧ pMode (port s p) = 0 ∧ v < 3 ∧ canLink s p = true ∧
      u = (modLane (modPort s p fun x => { x with link := { x.link with phySpeed := some v, fullDuplex := true, phyUp := true } }) (laneOf p) fun l => { l with lock := true }) ∧ canLink u p = true ∧ (lane u (laneOf p)).lock = true) ∧
    (∃ (p v : ℕ) (s u : State), p < 512 ∧ pMode (port s p) = 0 ∧ v < 3 ∧ canLink s p = true ∧
      u = (modLane (modPort s p fun x => { x with link := { x.link with phySpeed := some v, fullDuplex := false, phyUp := true } }) (laneOf p) fun l => { l with lock := true }) ∧ canLink u p = true ∧ (lane u (laneOf p)).lock = true) ∧
    (∃ (p : ℕ), 512 ≤ p) :=
  ⟨⟨hP 512, [1, 0x1F0F3F], r0, acc (by decide +kernel), by decide +kernel⟩,
   ⟨hP 0, [0], { r0 with lanes := [(laneOf 0, { recal := some 1 })] }, acc (by decide +kernel), by decide +kernel⟩,
   ⟨hP 0, [0], r0, acc (by decide +kernel), by decide +kernel⟩,
   ⟨hP 511, [1], r0, acc (by decide +kernel), by decide +kernel⟩,
   ⟨0, { r0 with lanes := [(0, { recal := some 1 })] }, _, by decide +kernel, rfl⟩,
   ⟨129, { r0 with lanes := [(129, { recal := some 0 })] }, _, by decide +kernel, rfl⟩,
   ⟨135, { r0 with lanes := [(135, { retry := true })] }, by decide +kernel⟩,
   ⟨127, r0, by decide +kernel⟩,
   ⟨0, false, r0, by decide +kernel⟩,
   ⟨512, r0, by decide +kernel⟩,
   ⟨512, hyp r0 0, by decide +kernel⟩,
   ⟨0, 2, pt 0 fun p => { p with set := { p.set with w0 := 0x200 } }, _, by decide +kernel, by decide +kernel, by decide +kernel, by decide +kernel,
     rfl, by decide +kernel⟩,
   ⟨511, 0, pt 511 fun p => { p with set := { p.set with w0 := 0x200 } }, _, by decide +kernel, by decide +kernel, by decide +kernel,
     by decide +kernel, rfl, by decide +kernel⟩,
   ⟨512, by decide +kernel⟩⟩

/-- PausesAndDdrEventsTakeEffect. -/
theorem wit_PausesAndDdrEventsTakeEffect :
    (∃ (p : ℕ) (s : State) (t n : ℕ) (r : List (ℕ × ℕ)), hasPort s p = true ∧ (port s p).txd.rxPause = (t, n) :: r) ∧
    (∃ (p : ℕ) (s : State) (t : ℕ) (b : List Byte) (r : List (ℕ × List Byte)), hasPort s p = true ∧ (port s p).txd.rxPfc = (t, b) :: r) ∧
    (∃ (c : ℕ) (x : Port), c < 8 ∧ bit (pExempt x) c = true) ∧
    (∃ (p c : ℕ) (s : State), ((port s p).txd.pauses.look c {}).until_ ≠ 0) ∧
    (∃ (p c : ℕ) (s : State) (b : ℕ), ((port s p).txd.pauses.look c {}).since = some b ∧ 0 < pPauseWd (port s p) ∧
      b + pPauseWd (port s p) * 1000000 * 65536 ≤ ((port s p).txd.pauses.look c {}).until_) ∧
    (∃ (p c : ℕ) (s : State), (port s p).txd.refresh.look c 0 ≠ 0 ∧ bit (port s p).txd.xoff c = true) ∧
    (∃ (d : ℕ) (s : State), hasDie s d = true) ∧
    (∃ (d : ℕ) (s : State), hasDie s d = true) ∧
    (∃ (d : ℕ) (s : State), hasDie s d = true) :=
  ⟨⟨0, txd 0 fun x => { x with rxPause := [(5, 0xFFFF)] }, _, _, _, by decide +kernel, rfl⟩,
   ⟨0, txd 0 fun x => { x with rxPfc := [(5, [])] }, _, _, _, by decide +kernel, rfl⟩,
   ⟨7, { set := { w3 := 0x80 } }, by decide +kernel⟩,
   ⟨0, 7, txd 0 fun x => { x with pauses := [(7, { since := some 5, until_ := 9 })] }, by decide +kernel⟩,
   ⟨0, 7, txd 0 fun x => { x with pauses := [(7, { since := some 0, until_ := 655360000000 })] }, _, rfl, by decide +kernel⟩,
   ⟨0, 7, txd 0 fun x => { x with xoff := 128, refresh := [(7, 9)] }, by decide +kernel⟩,
   ⟨1, r0, by decide +kernel⟩,
   ⟨1, r0, by decide +kernel⟩,
   ⟨1, r0, by decide +kernel⟩⟩

/-- TimeCommandsTakeEffect. -/
theorem wit_TimeCommandsTakeEffect :
    (∃ (h : CmdHdr) (w : List Word) (s : State), Accepted s 0x0401 h w) ∧
    (∃ (h : CmdHdr) (w : List Word) (s : State), Accepted s 0x0403 h w ∧ prm w 0 = 1) ∧
    (∃ (h : CmdHdr) (w : List Word) (s : State), Accepted s 0x0403 h w ∧ prm w 0 = 0) ∧
    (∃ (h : CmdHdr) (w : List Word) (s : State), Accepted s 0x0404 h w ∧ s.time.state = .free) ∧
    (∃ (h : CmdHdr) (w : List Word) (s : State), Accepted s 0x0404 h w ∧ s.time.state ≠ .free) ∧
    (∃ (h : CmdHdr) (w : List Word) (s : State), Accepted s 0x0405 h w) ∧
    (∃ (h : CmdHdr) (w : List Word) (s : State), Accepted s 0x0406 h w ∧ timeRoleOk (prm w 2) = true ∧ fld w 2 31 13 = 0) ∧
    (∃ (h : CmdHdr) (w : List Word) (s : State), Accepted s 0x0402 h w ∧ timeSourceBad s w = none ∧ fld w 0 2 0 ≠ 0 ∧
      (s.sys.acting = false ∨ s.time.state ≠ .holdover)) ∧
    (∃ (h : CmdHdr) (w : List Word) (s : State), Accepted s 0x0402 h w ∧ timeSourceBad s w = none ∧ fld w 0 2 0 ≠ 0 ∧ s.sys.acting = true ∧
      s.time.state = .holdover) ∧
    (∃ (h : CmdHdr) (w : List Word) (s : State) (r : Reply), Accepted s 0x0402 h w ∧ timeSourceBad s w = some r) :=
  ⟨⟨hG, [], r0, acc (by decide +kernel)⟩,
   ⟨hG, [1], r0, acc (by decide +kernel), by decide +kernel⟩,
   ⟨hG, [0], r0, acc (by decide +kernel), by decide +kernel⟩,
   ⟨hG, [5], r0, acc (by decide +kernel), by decide +kernel⟩,
   ⟨hG, [5], tim fun t => { t with state := .locked }, acc (by decide +kernel), by decide +kernel⟩,
   ⟨hP 512, [0], r0, acc (by decide +kernel)⟩,
   ⟨hP 0, [0, 0, 2], r0, acc (by decide +kernel), by decide +kernel⟩,
   ⟨hG, [4, 0, 0, 0, 0, 0, 0], r0, acc (by decide +kernel), by decide +kernel⟩,
   ⟨hG, [4, 0, 0, 0, 0, 0, 0], { (sys fun t => { t with acting := true }) with time := { r0.time with state := .holdover } },
     acc (by decide +kernel), by decide +kernel⟩,
   ⟨hG, [5, 0, 0, 0, 0, 0, 0], r0, _, acc (by decide +kernel), rfl⟩⟩

/-- TimeBaseEvents. -/
theorem wit_TimeBaseEvents :
    (∃ (s : State) (y : ℤ) (r : List ℤ), (s.time.source = 1 ∨ s.time.source = 4) ∧ s.time.sampleQ = y :: r) ∧
    (∃ (s : State), (s.time.source = 2 ∨ s.time.source = 3)) ∧
    (∃ (s : State), s.time.source ≠ 1 ∧ s.time.source ≠ 4) ∧
    (∃ (s : State), s.time.source ≠ 1 ∧ s.time.source ≠ 4 ∧ s.time.state = .free) ∧
    (∃ (s : State) (u a : ℕ), s.time.initPend = some (u, a) ∧ anyCourse s = false ∧ s.time.permit = true ∧ s.sys.acting = false) ∧
    (∃ (s : State), (s.time.initPend = none ∨ s.sys.acting = true)) ∧
    (∃ (s : State), s.time.state = .locked) ∧
    (∃ (s : State), s.time.state = .free) :=
  ⟨⟨tim fun t => { t with source := 1, sampleQ := [5] }, _, _, by decide +kernel, rfl⟩,
   ⟨tim fun t => { t with source := 2 }, by decide +kernel⟩,
   ⟨r0, by decide +kernel⟩,
   ⟨r0, by decide +kernel⟩,
   ⟨tim fun t => { t with initPend := some (5, 9) }, _, _, rfl, by decide +kernel⟩,
   ⟨r0, by decide +kernel⟩,
   ⟨tim fun t => { t with state := .locked }, by decide +kernel⟩,
   ⟨r0, by decide +kernel⟩⟩

/-- TimestampRingsAndNow. -/
theorem wit_TimestampRingsAndNow :
    (∃ (h : CmdHdr) (w : List Word) (s : State), Accepted s 0x040B h w ∧ prm w 0 = 1) ∧
    (∃ (h : CmdHdr) (w : List Word) (s : State), Accepted s 0x040B h w ∧ prm w 0 = 0) ∧
    (∃ (p : ℕ) (v : BitVec 7) (s : State), Reached s (portBase p + 0xC04) ∧ accHeld s (.tsTail p v) = false ∧
      ((port s p).ring.head + 128 - v.toNat) % 128 ≤ 64) ∧
    (∃ (p : ℕ) (v : BitVec 7) (s : State), Reached s (portBase p + 0xC04) ∧ accHeld s (.tsTail p v) = false ∧
      64 < ((port s p).ring.head + 128 - v.toNat) % 128) ∧
    (∃ (s : State), Reached s 0x40000) :=
  ⟨⟨hP 0, [1], r0, acc (by decide +kernel), by decide +kernel⟩,
   ⟨hP 0, [0], r0, acc (by decide +kernel), by decide +kernel⟩,
   ⟨0, 0, pt 0 fun p => { p with ring := { p.ring with head := 64 } }, ⟨by decide +kernel, by decide +kernel⟩, by decide +kernel⟩,
   ⟨0, 0, pt 0 fun p => { p with ring := { p.ring with head := 65 } }, ⟨by decide +kernel, by decide +kernel⟩, by decide +kernel⟩,
   ⟨r0, ⟨by decide +kernel, by decide +kernel⟩⟩⟩

/-- PulsesPinsAndCapturesTakeEffect. -/
theorem wit_PulsesPinsAndCapturesTakeEffect :
    (∃ (h : CmdHdr) (w : List Word) (s : State) (st : ℕ), Accepted s 0x0407 h w ∧ fld w 0 31 8 = 0 ∧ instantAt w 1 = .ok st ∧
      (pulse s (fld w 0 4 0)).busyTo = none ∧ 20 ≤ prm w 4 ∧ 10 ≤ prm w 5 ∧ prm w 5 + 10 ≤ prm w 4) ∧
    (∃ (h : CmdHdr) (w : List Word) (s : State) (st : ℕ), Accepted s 0x0407 h w ∧ fld w 0 31 8 = 0 ∧ instantAt w 1 = .ok st ∧ 0 < prm w 4 ∧
      prm w 4 < 20) ∧
    (∃ (h : CmdHdr) (w : List Word) (s : State), Accepted s 0x0408 h w ∧ fld w 0 31 5 = 0 ∧ (pulse s (fld w 0 4 0)).busyTo = none) ∧
    (∃ (h : CmdHdr) (w : List Word) (s : State) (e : ℕ), Accepted s 0x0408 h w ∧ fld w 0 31 5 = 0 ∧ (pulse s (fld w 0 4 0)).busyTo = some e) ∧
    (∃ (u : ℕ) (s : State), (pulse s u).busyTo = none ∧ (pulse s u).run = true) ∧
    (∃ (u : ℕ) (s : State) (e : ℕ), (pulse s u).busyTo = some e ∧ (pulse s u).waiting = none ∧ (pulse s u).cfg.period ≠ 0 ∧
      (pulse s u).cfg.count = 0) ∧
    (∃ (u : ℕ) (s : State) (e : ℕ) (c : PulseCfg) (n : ℕ) (r : Bool), (pulse s u).busyTo = some e ∧ (pulse s u).waiting = some (some (c, n, r))) ∧
    (∃ (s t : State), ((∀ k, k < 8 → tpLevel s k = tpLevel t k))) ∧
    (∃ (per : ℕ), 0 < per) ∧
    (∃ (h : CmdHdr) (w : List Word) (s : State), Accepted s 0x0409 h w ∧ fld w 0 31 10 = 0 ∧ fld w 0 9 8 ≠ 3) ∧
    (∃ (s : State) (k : ℕ), s.pulse.routes.look k 32 = 32) ∧
    (∃ (s : State) (k : ℕ), s.pulse.routes.look k 32 = 64) ∧
    (∃ (h : CmdHdr) (w : List Word) (s : State), Accepted s 0x040A h w ∧ fld w 0 31 4 = 0) ∧
    (∃ (c : ℕ) (b : Bool) (s : State), isPps s c = false ∧ bit (capture s c).edges (b2n b) = true ∧ (capture s c).fifo.length < 16) ∧
    (∃ (c : ℕ) (b : Bool) (s : State), isPps s c = false ∧ bit (capture s c).edges (b2n b) = true ∧ 16 ≤ (capture s c).fifo.length ∧
      (capture s c).lost ≠ 0x7FFF ∧ (capture s c).lost < 0xFFFF) ∧
    (∃ (c : ℕ) (b : Bool) (s : State), isPps s c = false ∧ bit (capture s c).edges (b2n b) = true ∧ 16 ≤ (capture s c).fifo.length ∧
      (capture s c).lost = 0xFFFF) ∧
    (∃ (c : ℕ) (s : State), isPps s c = true ∧ bit (capture s c).edges 0 = false) ∧
    (∃ (c : ℕ) (s : State), isPps s c = true ∧ bit (capture s c).edges 0 = true) ∧
    (∃ (c : ℕ) (b : Bool) (s : State), isPps s c = false ∧ bit (capture s c).edges (b2n b) = false) ∧
    (∃ (c : ℕ) (s : State) (t : ℕ) (b : Bool) (r : List (ℕ × Bool)), c ≤ 3 ∧ Reached s (0x50100 + 0x10 * c) ∧ (capture s c).fifo = (t, b) :: r) ∧
    (∃ (c : ℕ) (s : State), c ≤ 3 ∧ Reached s (0x50100 + 0x10 * c) ∧ (capture s c).fifo = []) :=
  ⟨⟨hG, [31, 0, 0, 0, 20, 10, 0], r0, _, acc (by decide +kernel), by decide +kernel, rfl, by decide +kernel⟩,
   ⟨hG, [31, 0, 0, 0, 19, 10, 0], r0, _, acc (by decide +kernel), by decide +kernel, rfl, by decide +kernel⟩,
   ⟨hG, [31], r0, acc (by decide +kernel), by decide +kernel⟩,
   ⟨hG, [31], pls 31 { busyTo := some 9 }, _, acc (by decide +kernel), by decide +kernel, rfl⟩,
   ⟨31, pls 31 { run := true }, by decide +kernel⟩,
   ⟨31, pls 31 { busyTo := some 9, cfg := { period := 20 } }, _, rfl, by decide +kernel⟩,
   ⟨31, pls 31 { busyTo := some 9, waiting := some (some ({ period := 20, width := 10 }, 30, true)) }, 9, { period := 20, width := 10 }, 30, true,
     by decide +kernel⟩,
   ⟨r0, r0, by decide +kernel⟩,
   ⟨1, by decide +kernel⟩,
   ⟨hG, [0x2FF], r0, acc (by decide +kernel), by decide +kernel⟩,
   ⟨r0, 7, by decide +kernel⟩,
   ⟨{ r0 with pulse := { r0.pulse with routes := [(7, 64)] } }, 7, by decide +kernel⟩,
   ⟨hG, [0xF], r0, acc (by decide +kernel), by decide +kernel⟩,
   ⟨3, true, cap 3 { edges := 2, fifo := List.replicate 15 (0, true) }, by decide +kernel⟩,
   ⟨3, true, cap 3 { edges := 2, fifo := List.replicate 16 (0, true), lost := 5 }, by decide +kernel⟩,
   ⟨3, true, cap 3 { edges := 2, fifo := List.replicate 16 (0, true), lost := 0xFFFF }, by decide +kernel⟩,
   ⟨3, ppsS 0, by decide +kernel⟩,
   ⟨3, ppsS 1, by decide +kernel⟩,
   ⟨3, true, cap 3 { edges := 1 }, by decide +kernel⟩,
   ⟨3, cap 3 { edges := 1, fifo := [(5, true)] }, _, _, _, by decide +kernel, ⟨by decide +kernel, by decide +kernel⟩, rfl⟩,
   ⟨3, r0, by decide +kernel, ⟨by decide +kernel, by decide +kernel⟩, by decide +kernel⟩⟩

/-- ValveCommandsTakeEffect. -/
theorem wit_ValveCommandsTakeEffect :
    (∃ (h : CmdHdr) (w : List Word) (s : State), Accepted s 0x0501 h w ∧ (port s h.port).valve.pend = none ∧ (port s h.port).valve.stopAt = none) ∧
    (∃ (h : CmdHdr) (w : List Word) (s : State), Accepted s 0x0504 h w ∧ fld w 0 31 13 = 0 ∧ fld w 1 31 11 = 0 ∧ 1 ≤ fld w 1 10 0 ∧
      fld w 1 10 0 ≤ 1024 ∧ fld w 0 12 1 + fld w 1 10 0 ≤ vCap h.port) ∧
    (∃ (h : CmdHdr) (w : List Word) (s : State), Accepted s 0x0509 h w) ∧
    (∃ (h : CmdHdr) (w : List Word) (s : State) (ml : List ℕ), Accepted s 0x0502 h w ∧ (port s h.port).valve.state = 0 ∧ fld w 0 31 12 = 0 ∧
      bit (peMask (port s h.port)) (fld w 0 2 0) = false ∧ ml = ((List.range 8).map fun c => fld w (1 + c / 2) (16 * (c % 2) + 15) (16 * (c % 2))) ∧
      (∀ m ∈ ml, 64 ≤ m ∧ m ≤ pMaxFrame (port s h.port))) ∧
    (∃ (s : State) (p : ℕ), (port s p).txd.tx = none ∧ holdNow s p = false) ∧
    (∃ (h : CmdHdr) (w : List Word) (s : State), Accepted s 0x0502 h w ∧ (port s h.port).valve.state ≠ 0) ∧
    (∃ (h : CmdHdr) (w : List Word) (s : State) (e : VEntry), Accepted s 0x0503 h w ∧ fld w 0 31 13 = 0 ∧ fld w 1 31 24 = 0 ∧ fld w 1 23 13 = 1 ∧
      fld w 1 12 0 ≤ vCap h.port ∧ fld w 0 12 1 + 1 ≤ vCap h.port ∧ (port s h.port).valve.pend = none ∧ (port s h.port).valve.state = 0 ∧
      e = { w0 := w.getD 2 0, w1 := w.getD 3 0 } ∧ e.w1.toNat ≤ 1 ∧ 32 ≤ vInterval e ∧ (port s h.port).valve.vct = 0) ∧
    (∃ (h : CmdHdr) (w : List Word) (s : State), Accepted s 0x0508 h w ∧ (isTwinLane h.port && s.twin.role != .off) = false ∧ fld w 0 31 20 = 0 ∧
      bit (fld w 0 8 1) (port s h.port).vset.courseClass = false ∧ 1 ≤ fld w 0 19 12 ∧ fld w 0 19 12 ≤ 128 ∧ bit (prm w 0) 0 = peEn (port s h.port) ∧
      peNoVerify (port s h.port) = false) ∧
    (∃ (h : CmdHdr) (w : List Word) (s : State), Accepted s 0x0508 h w ∧ (isTwinLane h.port && s.twin.role != .off) = false ∧ fld w 0 31 20 = 0 ∧
      bit (fld w 0 8 1) (port s h.port).vset.courseClass = false ∧ 1 ≤ fld w 0 19 12 ∧ fld w 0 19 12 ≤ 128 ∧ bit (prm w 0) 0 ≠ peEn (port s h.port)) ∧
    (∃ (h : CmdHdr) (w : List Word) (s : State), Accepted s 0x0508 h w ∧ isTwinLane h.port = true ∧ s.twin.role ≠ .off) ∧
    (∃ (h : CmdHdr) (w : List Word) (s : State) (tb : ℕ), Solo s 0x0505 h w ∧ fld w 0 31 1 = 0 ∧ instantAt w 1 = .ok tb ∧ 1000 ≤ prm w 4 ∧
      (port s h.port).valve.pend = none ∧ (port s h.port).valve.state = 0 ∧
      valveCheck s h.port (fld w 0 0 0) (ltAt w 1).1 (prm w 4) [newMember s 0x0505 h w] = none) ∧
    (∃ (h : CmdHdr) (w : List Word) (s : State) (c : ℕ) (u : State), OwnDue s 0x0505 h w c u) ∧
    (∃ (h : CmdHdr) (w : List Word) (s : State) (tb : ℕ), Solo s 0x0505 h w ∧ fld w 0 31 1 = 0 ∧ instantAt w 1 = .ok tb ∧ 1000 ≤ prm w 4 ∧
      (port s h.port).valve.pend = none ∧ (port s h.port).valve.state ≠ 0) ∧
    (∃ (h : CmdHdr) (w : List Word) (s : State) (tb : ℕ), Solo s 0x0506 h w ∧ instantAt w 0 = .ok tb ∧ 1000 ≤ prm w 3 ∧
      (port s h.port).valve.pend = none ∧ (port s h.port).valve.state = 2 ∧
      valveCheck s h.port (1 - (port s h.port).valve.list) (ltAt w 0).1 (prm w 3) [newMember s 0x0506 h w] = none) ∧
    (∃ (h : CmdHdr) (w : List Word) (s : State) (c : ℕ) (u : State), OwnDue s 0x0506 h w c u) ∧
    (∃ (h : CmdHdr) (w : List Word) (s : State), Solo s 0x0507 h w ∧ ¬((courseOf s h.port).state ≠ 0 ∧ h.port < 512)) ∧
    (∃ (h : CmdHdr) (w : List Word) (s : State) (c : ℕ) (u : State), OwnDue s 0x0507 h w c u ∧ (port u h.port).valve.state ≠ 0) ∧
    (∃ (h : CmdHdr) (w : List Word) (s : State), Solo s 0x0507 h w ∧ (courseOf s h.port).state ≠ 0 ∧ h.port < 512) :=
  ⟨⟨hP 0, [], r0, acc (by decide +kernel), by decide +kernel⟩,
   ⟨hP 0, [0, 1024], r0, acc (by decide +kernel), by decide +kernel⟩,
   ⟨hP 519, [], r0, acc (by decide +kernel)⟩,
   ⟨hP 0, [7, 0x400040, 0x5F205F2, 0x400040, 0x5F205F2], r0, _, acc (by decide +kernel), by decide +kernel, by decide +kernel, by decide +kernel,
     rfl, by decide +kernel⟩,
   ⟨r0, 0, by decide +kernel⟩,
   ⟨hP 0, [7, 0x400040, 0x400040, 0x400040, 0x400040], vlv 0 fun v => { v with state := 2 }, acc (by decide +kernel), by decide +kernel⟩,
   ⟨hP 0, [0, 0x2001, 0xFF000020, 0], r0, _, acc (by decide +kernel), by decide +kernel, by decide +kernel, by decide +kernel, by decide +kernel,
     by decide +kernel, by decide +kernel, by decide +kernel, rfl, by decide +kernel⟩,
   ⟨hP 0, [0xA000], r0, acc (by decide +kernel), by decide +kernel⟩,
   ⟨hP 0, [0xA001], r0, acc (by decide +kernel), by decide +kernel⟩,
   ⟨hP 514, [0xA000], { r0 with twin := { r0.twin with role := .leader } }, acc (by decide +kernel), by decide +kernel⟩,
   ⟨hP 0, [0, 0, 0, 0, 1000], r0, _, solo (by decide +kernel) (by decide +kernel), by decide +kernel, rfl, by decide +kernel⟩,
   ⟨hP 0, [0, 0, 0, 0, 1000], ownRun r0 0x0505 (hP 0) [0, 0, 0, 0, 1000], 20000, _, due (by decide +kernel)⟩,
   ⟨hP 0, [0, 0, 0, 0, 1000], vlv 0 fun v => { v with state := 2 }, _, solo (by decide +kernel) (by decide +kernel), by decide +kernel, rfl,
     by decide +kernel⟩,
   ⟨hP 0, [0, 0, 0, 1000], vlv 0 fun v => { v with state := 2 }, _, solo (by decide +kernel) (by decide +kernel), rfl, by decide +kernel⟩,
   ⟨hP 0, [0, 0, 0, 1000], ownRun (vlv 0 fun v => { v with state := 2 }) 0x0506 (hP 0) [0, 0, 0, 1000], 20000, _, due (by decide +kernel)⟩,
   ⟨hP 0, [], vlv 0 fun v => { v with state := 2 }, solo (by decide +kernel) (by decide +kernel), by decide +kernel⟩,
   ⟨hP 0, [], ownRun (vlv 0 fun v => { v with state := 2 }) 0x0507 (hP 0) [], 20000, _, due (by decide +kernel), by decide +kernel⟩,
   ⟨hP 511, [], crs 511 fun c => { c with state := 2 }, solo (by decide +kernel) (by decide +kernel), by decide +kernel⟩⟩

/-- ValveInstantsTakePlace. -/
theorem wit_ValveInstantsTakePlace :
    (∃ (p : ℕ) (s : State) (q : VPend), (port s p).valve.pend = some q) ∧
    (∃ (p : ℕ) (s : State) (t : ℕ), (port s p).valve.stopAt = some t) ∧
    (∃ (p k i : ℕ) (s : State) (z : VWin), (port s p).valve.state = 2 ∧
      (vWins (port s p).vset (vList (port s p) (port s p).valve.list) (port s p).valve.vct).find? (fun z => z.idx == i) = some z ∧
      nowNs s ≤ (port s p).valve.vbase + k * (port s p).valve.vct + z.o ∧ (port s p).valve.idle = none ∧ (port s p).valve.pend = none ∧
      (port s p).valve.stopAt = none) ∧
    (∃ (p : ℕ) (s : State) (t : ℕ), (port s p).pre.deadline = some t ∧ peNoVerify (port s p) = false ∧ (port s p).pre.tries < 3) ∧
    (∃ (p : ℕ) (s : State) (t : ℕ), (port s p).pre.deadline = some t ∧ peNoVerify (port s p) = false ∧ 3 ≤ (port s p).pre.tries) ∧
    (∃ (p : ℕ) (s : State) (t : ℕ), (port s p).pre.deadline = some t ∧ peNoVerify (port s p) = true) ∧
    (∃ (p f n : ℕ) (s : State) (k : ℕ) (y : ℕ × ℕ × ℕ), bankForCycle (courseOf s p) (cycleStart s (port s (own s p)).ccfg.ct n) = some k ∧
      (outFrames s p k).find? (fun y => y.1 == f) = some y ∧ peActive (port s p) = true) :=
  ⟨⟨0, vlv 0 fun v => { v with pend := some { list := 0, tb := 0, vct := 1000, at_ := 9, start := true } }, _, rfl⟩,
   ⟨0, vlv 0 fun v => { v with stopAt := some 9 }, _, rfl⟩,
   ⟨0, 0, 0, vlv 0 fun v => { v with state := 2, vct := 1000 }, _, by decide +kernel, rfl, by decide +kernel⟩,
   ⟨0, pt 0 fun x => { x with pre := { x.pre with deadline := some 9, tries := 2 } }, _, rfl, by decide +kernel⟩,
   ⟨0, pt 0 fun x => { x with pre := { x.pre with deadline := some 9, tries := 3 } }, _, rfl, by decide +kernel⟩,
   ⟨0, pt 0 fun x => { x with pre := { x.pre with deadline := some 9, cfg := 0x800 } }, _, rfl, by decide +kernel⟩,
   ⟨0, 0, 0, pt 0 fun _ => { cport with course := { state := 2 }, pre := { cfg := 0xA801 } }, _, _, rfl, rfl, by decide +kernel⟩⟩

/-- CourseSettingsAreStored. -/
theorem wit_CourseSettingsAreStored :
    (∃ (h : CmdHdr) (w : List Word) (s : State) (n : ℕ), Accepted s 0x0601 h w ∧ n = fld w 0 7 0 ∧ fld w 0 31 8 = 0 ∧ n ≤ 64) ∧
    (∃ (h : CmdHdr) (w : List Word) (s : State), Accepted s 0x0602 h w ∧ prm w 0 % s.line.baseCt = 0 ∧ 15625 ≤ prm w 0 ∧ prm w 0 ≤ 16777216 ∧
      fld w 1 31 26 = 0 ∧ fld w 2 31 10 = 0 ∧ ((fld w 1 25 24 = 1 ∨ fld w 1 25 24 = 2 → fld w 2 9 0 < 512 ∧ hasPort s (fld w 2 9 0) = true ∧
      dieOfPort (fld w 2 9 0) = dieOfPort h.port)) ∧ (courseOf s h.port).state = 0) ∧
    (∃ (h : CmdHdr) (w : List Word) (s : State), Accepted s 0x0602 h w ∧ prm w 0 % s.line.baseCt = 0 ∧ 15625 ≤ prm w 0 ∧ prm w 0 ≤ 16777216 ∧
      fld w 1 31 26 = 0 ∧ fld w 2 31 10 = 0 ∧ fld w 1 25 24 = 0 ∧ (courseOf s h.port).state ≠ 0) ∧
    (∃ (h : CmdHdr) (w : List Word) (s : State) (a : ℕ), Accepted s 0x060B h w ∧ 15625 ≤ prm w 0 ∧ prm w 0 ≤ 16777216 ∧ instantAt w 1 = .ok a ∧
      (s.ports.any fun e => e.2.course.state != 0) = false ∧ (s.axes.any fun e => e.2.dyn.state != 0) = false) ∧
    (∃ (h : CmdHdr) (w : List Word) (s : State) (a : ℕ), Accepted s 0x060B h w ∧ 15625 ≤ prm w 0 ∧ prm w 0 ≤ 16777216 ∧ instantAt w 1 = .ok a ∧
      (s.ports.any fun e => e.2.course.state != 0) = true) ∧
    (∃ (h : CmdHdr) (w : List Word) (s : State) (k n : ℕ), Accepted s 0x0603 h w ∧ k = fld w 0 1 0 ∧ n = fld w 0 18 10 ∧ fld w 0 31 19 = 0 ∧ k < 2 ∧
      1 ≤ n ∧ fld w 0 9 2 + n ≤ 256 ∧ (∀ x ∈ w.drop 1, x.toNat < 2 ^ 25 ∧ hasAxis s (eAxis x.toNat) = true) ∧ (courseOf s h.port).state = 0) ∧
    (∃ (h : CmdHdr) (w : List Word) (s : State) (k n : ℕ), Accepted s 0x0603 h w ∧ k = fld w 0 1 0 ∧ n = fld w 0 18 10 ∧ fld w 0 31 19 = 0 ∧ k < 2 ∧
      1 ≤ n ∧ fld w 0 9 2 + n ≤ 256 ∧ (∀ x ∈ w.drop 1, x.toNat < 2 ^ 25 ∧ hasAxis s (eAxis x.toNat) = true) ∧ 2 ≤ (courseOf s h.port).state ∧
      k = b2n (courseOf s h.port).bank) ∧
    (∃ (h : CmdHdr) (w : List Word) (s : State) (k : ℕ) (ds : List ℕ), Accepted s 0x0604 h w ∧ k = fld w 0 1 0 ∧ k < 3 ∧ fld w 0 31 10 = 0 ∧
      ds = ((List.range 8).filter fun i => bit (prm w 0) (2 + i)) ∧ (∀ x ∈ ds.zipIdx, fld w (3 + 4 * x.2) 31 16 = 0) ∧
      (courseOf s h.port).state = 0) ∧
    (∃ (h : CmdHdr) (w : List Word) (s : State), Accepted s 0x0605 h w ∧ fld w 0 31 17 = 0 ∧ fld w 0 8 0 % 4 = 0 ∧ 1 ≤ fld w 0 16 9 ∧
      fld w 0 16 9 ≤ 128 ∧ fld w 0 8 0 + 4 * fld w 0 16 9 ≤ 512) :=
  ⟨⟨hP 511, 64 :: List.replicate 16 0, r0, 64, acc (by decide +kernel), by decide +kernel⟩,
   ⟨hP 0, [62500, 0, 0], r0, acc (by decide +kernel), by decide +kernel⟩,
   ⟨hP 0, [62500, 0, 0], crs 0 fun c => { c with state := 2 }, acc (by decide +kernel), by decide +kernel⟩,
   ⟨hG, [15625, 0, 0, 0], r0, _, acc (by decide +kernel), by decide +kernel, by decide +kernel, rfl, by decide +kernel⟩,
   ⟨hG, [16777216, 0, 0, 0], crs 0 fun c => { c with state := 2 }, _, acc (by decide +kernel), by decide +kernel, by decide +kernel, rfl,
     by decide +kernel⟩,
   ⟨hP 0, [0x7FC, 0x1FFFFFF], r0, 0, 1, acc (by decide +kernel), by decide +kernel, by decide +kernel, by decide +kernel, by decide +kernel,
     by decide +kernel, by decide +kernel,
     by simp only [List.drop, List.forall_mem_cons, and_true, List.not_mem_nil, IsEmpty.forall_iff, implies_true]; decide +kernel, by decide +kernel⟩,
   ⟨hP 0, [0x7FC, 0], crs 0 fun c => { c with state := 2 }, 0, 1, acc (by decide +kernel), by decide +kernel, by decide +kernel, by decide +kernel,
     by decide +kernel, by decide +kernel, by decide +kernel,
     by simp only [List.drop, List.forall_mem_cons, and_true, List.not_mem_nil, IsEmpty.forall_iff, implies_true]; decide +kernel, by decide +kernel⟩,
   ⟨hP 0, [0x6, 0, 0, 0, 0], r0, _, _, acc (by decide +kernel), rfl, by decide +kernel, by decide +kernel, rfl, by decide +kernel⟩,
   ⟨hP 0, [0x3FC, 0], r0, acc (by decide +kernel), by decide +kernel⟩⟩

/-- CourseStartSwapSafeResumeStop. -/
theorem wit_CourseStartSwapSafeResumeStop :
    (∃ (h : CmdHdr) (w : List Word) (s : State) (tb : ℕ), Solo s 0x0606 h w ∧ fld w 0 31 1 = 0 ∧ instantAt w 1 = .ok tb ∧
      (courseOf s h.port).state = 0 ∧ (port s (own s h.port)).ccfg.plane ≠ 3 ∧ courseCheck s h.port [fld w 0 0 0] = none ∧
      isBoundary s (port s (own s h.port)).ccfg.ct (ltAt w 1).1 = true) ∧
    (∃ (h : CmdHdr) (w : List Word) (s : State) (c : ℕ) (u : State), OwnDue s 0x0606 h w c u ∧ (courseOf u h.port).state = 0) ∧
    (∃ (h : CmdHdr) (w : List Word) (s : State) (c : ℕ) (u : State), OwnDue s 0x0606 h w c u ∧ (courseOf u h.port).state ≠ 0) ∧
    (∃ (h : CmdHdr) (w : List Word) (s : State) (tb : ℕ), Solo s 0x0606 h w ∧ fld w 0 31 1 = 0 ∧ instantAt w 1 = .ok tb ∧
      (courseOf s h.port).state ≠ 0) ∧
    (∃ (h : CmdHdr) (w : List Word) (s : State) (tb : ℕ), Solo s 0x0607 h w ∧ leads s 0x0607 h = false ∧ instantAt w 0 = .ok tb ∧
      (courseOf s h.port).state ≠ 0 ∧ courseCheck s h.port [b2n (xor (courseOf s h.port).bank ((courseOf s h.port).swaps.length % 2 == 0))] = none ∧
      isBoundary s (port s (own s h.port)).ccfg.ct (ltAt w 0).1 = true) ∧
    (∃ (h : CmdHdr) (w : List Word) (s : State) (c : ℕ) (u : State), OwnDue s 0x0607 h w c u ∧ (courseOf u h.port).state ≠ 0) ∧
    (∃ (h : CmdHdr) (w : List Word) (s : State), Accepted s 0x0608 h w ∧ leads s 0x0608 h = false ∧ (courseOf s h.port).state = 2 ∧
      ¬((port s (own s h.port)).ccfg.plane = 3 ∧ s.twin.role = .claiming)) ∧
    (∃ (h : CmdHdr) (w : List Word) (s : State), Accepted s 0x0608 h w ∧ leads s 0x0608 h = false ∧ (courseOf s h.port).state ≠ 0 ∧
      (port s (own s h.port)).ccfg.plane = 3 ∧ s.twin.role = .claiming) ∧
    (∃ (h : CmdHdr) (w : List Word) (s : State), Accepted s 0x0608 h w ∧ (courseOf s h.port).state = 0) ∧
    (∃ (h : CmdHdr) (w : List Word) (s : State) (tb : ℕ), Solo s 0x0609 h w ∧ leads s 0x0609 h = false ∧ instantAt w 0 = .ok tb ∧
      (courseOf s h.port).state = 3 ∧ isBoundary s (port s (own s h.port)).ccfg.ct (ltAt w 0).1 = true) ∧
    (∃ (h : CmdHdr) (w : List Word) (s : State) (c : ℕ) (u : State), OwnDue s 0x0609 h w c u ∧ (courseOf u h.port).state = 3) ∧
    (∃ (h : CmdHdr) (w : List Word) (s : State), Solo s 0x060A h w ∧ leads s 0x060A h = false ∧ (courseOf s h.port).state = 3) ∧
    (∃ (h : CmdHdr) (w : List Word) (s : State) (c : ℕ) (u : State), OwnDue s 0x060A h w c u ∧ (courseOf u h.port).state = 3) ∧
    (∃ (h : CmdHdr) (w : List Word) (s : State), Solo s 0x060A h w ∧ (courseOf s h.port).state = 2) :=
  ⟨⟨hP 0, [0, 0, 0, 0], cst 0, _, solo (by decide +kernel) (by decide +kernel), by decide +kernel, rfl, by decide +kernel⟩,
   ⟨hP 0, [0, 0, 0, 0], ownRun (cst 0) 0x0606 (hP 0) [0, 0, 0, 0], 20000, _, due (by decide +kernel), rfl⟩,
   ⟨hP 0, [0, 0, 0, 0], ownRun (cst 2) 0x0606 (hP 0) [0, 0, 0, 0], 20000, _, due (by decide +kernel), by decide +kernel⟩,
   ⟨hP 0, [0, 0, 0, 0], cst 2, _, solo (by decide +kernel) (by decide +kernel), by decide +kernel, rfl, by decide +kernel⟩,
   ⟨hP 0, [0, 0, 0], cst 2, _, solo (by decide +kernel) (by decide +kernel), by decide +kernel, rfl, by decide +kernel⟩,
   ⟨hP 0, [0, 0, 0], ownRun (cst 2) 0x0607 (hP 0) [0, 0, 0], 20000, _, due (by decide +kernel), by decide +kernel⟩,
   ⟨hP 0, [], cst 2, acc (by decide +kernel), by decide +kernel⟩,
   ⟨hP 0, [], { (pt 0 fun _ => { cport with ccfg := { cport.ccfg with plane := 3 }, course := { state := 2 } }) with twin := { r0.twin with role := .claiming } }, acc (by decide +kernel), by decide +kernel⟩,
   ⟨hP 0, [], cst 0, acc (by decide +kernel), by decide +kernel⟩,
   ⟨hP 0, [0, 0, 0], cst 3, _, solo (by decide +kernel) (by decide +kernel), by decide +kernel, rfl, by decide +kernel⟩,
   ⟨hP 0, [0, 0, 0], ownRun (cst 3) 0x0609 (hP 0) [0, 0, 0], 20000, _, due (by decide +kernel), rfl⟩,
   ⟨hP 0, [], cst 3, solo (by decide +kernel) (by decide +kernel), by decide +kernel⟩,
   ⟨hP 0, [], ownRun (cst 3) 0x060A (hP 0) [], 20000, _, due (by decide +kernel), rfl⟩,
   ⟨hP 0, [], cst 2, solo (by decide +kernel) (by decide +kernel), by decide +kernel⟩⟩

/-- CourseInstantsTakePlace. -/
theorem wit_CourseInstantsTakePlace :
    (∃ (p : ℕ) (s : State), courseRuns s p = true ∧ own s p = p ∧ (sides s p).length ≠ 2 ∧ ¬((port s p).ccfg.plane = 3 ∧ s.twin.role = .follower)) ∧
    (∃ (p f n : ℕ) (s : State) (y : ℕ × ℕ) (u : State), courseRuns s p = true ∧
      u = courseDue s (own s p) (max (cycleStart s (port s (own s p)).ccfg.ct n) (nowNs s)) ∧ own u p = own s p ∧
      (port u (own s p)).course.state = 2 ∧ outFrame u p (b2n (port u (own s p)).course.bank) f = some y ∧
      foreignStopped (atNs u (cycleStart s (port s (own s p)).ccfg.ct n + y.1 - 200)) (own s p) = false ∧ (port u (own s p)).course.foreign = false ∧
      (buildOf (atNs u (cycleStart s (port s (own s p)).ccfg.ct n + y.1 - 200)) p f n (cycleStart s (port s (own s p)).ccfg.ct n)).entries ≠ []) ∧
    (∃ (p f n : ℕ) (s : State) (u : Build), (port s p).course.builds.look f none = some u ∧ u.n = n ∧ courseRuns s p = true ∧ u.skip = true) ∧
    (∃ (p f n : ℕ) (s : State) (u : Build) (t0 : ℕ) (v : State), (port s p).course.builds.look f none = some u ∧ u.n = n ∧ courseRuns s p = true ∧
      u.skip = false ∧ t0 = (buildLaunch u * qPerNs - 8 * lineQ p (port s p)) / 100 ∧
      v = modCourse (settleTx (at16 s t0) p) p (fun c => { c with builds := c.builds.put f none none }) ∧
      launchOk v p (buildLaunch u) (frameLen (buildSizes u)) = true) ∧
    (∃ (p : ℕ) (s : State) (f : Tx) (k : ℕ) (u : Build), (port s p).txd.tx = some f ∧ f.course = some (k, u) ∧ f.now ≠ 0 ∧ f.cut = false ∧
      f.pre = false ∧ f.frags = 0) ∧
    (∃ (p j : ℕ) (s : State) (i : InFrame) (o : ℕ) (d : Desc) (sz : List ℕ) (a e A : ℕ) (v : State), o = own s p ∧ (port s p).inFrame = some i ∧
      d = i.desc ∧ sz = i.entries.map eLen ∧ j < dCount d ∧ i.done ≤ j ∧ courseRuns s p = true ∧ a = posOf sz j - 28 + i.hdr ∧
      e = a + sz.getD j 0 + 2 ∧ e ≤ i.bytes.length ∧ A = i.t16 + lineQ p (port s p) * e / 100 ∧
      v = modPort (at16 s A) p (fun y => { y with inFrame := some { i with done := j + 1 } }) ∧ (i.b + d.w3.toNat) * 65536 < A ∧
      planeAFirst s p j = false) ∧
    (∃ (p j : ℕ) (s : State) (i : InFrame) (o : ℕ) (d : Desc) (sz : List ℕ) (a e A : ℕ) (v : State), o = own s p ∧ (port s p).inFrame = some i ∧
      d = i.desc ∧ sz = i.entries.map eLen ∧ j < dCount d ∧ i.done ≤ j ∧ courseRuns s p = true ∧ a = posOf sz j - 28 + i.hdr ∧
      e = a + sz.getD j 0 + 2 ∧ e ≤ i.bytes.length ∧ A = i.t16 + lineQ p (port s p) * e / 100 ∧
      v = modPort (at16 s A) p (fun y => { y with inFrame := some { i with done := j + 1 } }) ∧ A ≤ (i.b + d.w3.toNat) * 65536 ∧
      planeAFirst s p j = false ∧ brickCheck (i.n % 65536) true i.f j ((i.bytes.drop a).take (sz.getD j 0)) = beAt i.bytes (e - 2) 2 ∧
      ¬((port v o).ccfg.plane = 3 ∧ offers v = true)) ∧
    (∃ (p j : ℕ) (s : State), planeAFirst s p j = true) ∧
    (∃ (p f : ℕ) (s : State), courseRuns s p = true ∧ own s p = p ∧ f < 4 ∧ ¬((port s p).ccfg.plane = 3 ∧ s.twin.role = .follower)) ∧
    (∃ (p f : ℕ) (s : State), courseRuns s p = true ∧ own s p = p ∧ f < 4 ∧ (port s p).ccfg.plane = 3 ∧ s.twin.role = .follower) ∧
    (∃ (n : ℕ) (s : State), twinRuns s = true ∧ s.line.last = none ∧ nowNs s < cycleStart s s.line.baseCt n + s.line.baseCt) ∧
    (∃ (s : State), twinRuns s = false) ∧
    (∃ (n : ℕ) (s : State), twinRuns s = true ∧ s.image.published = false ∧ s.image.snapWriting = n % 2 ^ 32 ∧ s.line.last.isSome = true) :=
  ⟨⟨0, cst 2, by decide +kernel⟩,
   ⟨0, 0, 0, cst 2, _, _, by decide +kernel, rfl, by decide +kernel, by decide +kernel, rfl, by decide +kernel⟩,
   ⟨0, 0, 0, pt 0 fun _ => { cport with course := { state := 2, builds := [(0, some { n := 0, b := 0, safe := false, bank := false, skip := true })] } }, _, rfl, by decide +kernel⟩,
   ⟨0, 0, 0, pt 0 fun _ => { cport with course := { state := 2, builds := [(0, some cBuild)] } }, _, _, _, rfl, by decide +kernel, by decide +kernel,
     by decide +kernel, rfl, rfl, by decide +kernel⟩,
   ⟨0, lpt cTx, cTx, 0, cBuild, by decide +kernel⟩,
   ⟨0, 0, pt 0 fun _ => { cport with course := { state := 2 }, inFrame := some { inF with t16 := 4587520000, bytes := List.replicate 38 0 } }, _, _,
     _, _, _, _, _, _, rfl, rfl, rfl, rfl, by decide +kernel, by decide +kernel, by decide +kernel, rfl, rfl, by decide +kernel, rfl, rfl,
     by decide +kernel⟩,
   ⟨0, 0, pt 0 fun _ => { cport with course := { state := 2 }, inFrame := some { inF with bytes := List.replicate 36 0 ++ be 2 (brickCheck 0 true 0 0 (List.replicate 8 0)) } }, _, _, _, _, _, _, _, _, rfl, rfl, rfl, rfl, by decide +kernel, by decide +kernel, by decide +kernel, rfl, rfl, by decide +kernel, rfl, rfl, by decide +kernel⟩,
   ⟨0, 0, planeS, by decide +kernel⟩,
   ⟨0, 3, cst 2, by decide +kernel⟩,
   ⟨0, 3, { (pt 0 fun _ => { cport with ccfg := { cport.ccfg with plane := 3 }, course := { state := 2 } }) with twin := { r0.twin with role := .follower } }, by decide +kernel⟩,
   ⟨0, r0, by decide +kernel⟩,
   ⟨{ r0 with clock := { r0.clock with state := .off } }, by decide +kernel⟩,
   ⟨0, { r0 with line := { r0.line with last := some 0 } }, by decide +kernel⟩⟩

/-- ReflexActionsApplyInOrder. -/
theorem wit_ReflexActionsApplyInOrder :
    (∃ (s : State) (y : ReflexAct) (r : List ReflexAct), s.reflex = y :: r) :=
  ⟨{ r0 with reflex := [{ t16 := 9, src := 0, idx := 0, rule := {}, port := 0 }] }, _, _, rfl⟩

/-- AxisSettingsTakeEffect. -/
theorem wit_AxisSettingsTakeEffect :
    (∃ (h : CmdHdr) (w : List Word) (s : State) (d : AxisDyn), Accepted s 0x0701 h w ∧ fld w 0 31 14 = 0 ∧ hasAxis s (fld w 0 13 0) = true ∧
      d = (axis s (fld w 0 13 0)).dyn) ∧
    (∃ (h : CmdHdr) (w : List Word) (s : State), Accepted s 0x0702 h w ∧ axisSetBad s w = none ∧ (axis s (fld w 0 13 0)).dyn.state = 0) ∧
    (∃ (h : CmdHdr) (w : List Word) (s : State), Accepted s 0x0702 h w ∧ axisSetBad s w = none ∧ (axis s (fld w 0 13 0)).dyn.state ≠ 0) ∧
    (∃ (h : CmdHdr) (w : List Word) (s : State), Accepted s 0x0703 h w ∧ leads s 0x0703 h = false ∧ fld w 0 31 18 = 0 ∧
      hasAxis s (fld w 0 13 0) = true ∧ (∀ x ∈ rulesOf w, ruleBad s (fld w 0 13 0) x.2 = none)) ∧
    (∃ (h : CmdHdr) (w : List Word) (s : State), Accepted s 0x0704 h w ∧ leads s 0x0704 h = false ∧ fld w 0 31 18 = 0 ∧
      hasAxis s (fld w 0 13 0) = true) ∧
    (∃ (h : CmdHdr) (w : List Word) (s : State) (a n : ℕ), Accepted s 0x0708 h w ∧ a = fld w 0 13 0 ∧ n = fld w 1 21 17 ∧ fld w 0 31 15 = 0 ∧
      hasAxis s a = true ∧ fld w 1 31 22 = 0 ∧ 1 ≤ n ∧ n ≤ 16 ∧ (ddrChan s (dieOfAxis a)).trained = true) ∧
    (∃ (h : CmdHdr) (w : List Word) (s : State), Accepted s 0x0709 h w) ∧
    (∃ (r : ℕ) (s : State), Reached s (regionBase r + 0xC020)) ∧
    (∃ (r : ℕ) (v : Word) (s : State) (a : ℕ), Reached s (regionBase r + 0xC000) ∧ accHeld s (.segPut r v) = false ∧
      a = 2048 * r + bits v.toNat 10 0 ∧ (axis s a).cfg.direct = false ∧
      (bits v.toNat 27 11 + 131072 - (axis s a).dyn.get) % 131072 ≤ ringLen (axis s a) ∧
      segHeld (axis s a) (axis s a).dyn.get ≤ (bits v.toNat 27 11 + 131072 - (axis s a).dyn.get) % 131072) :=
  ⟨⟨hG, [0x3FFF], r0, _, acc (by decide +kernel), by decide +kernel, by decide +kernel, rfl⟩,
   ⟨hG, [0, 62500, 0, 0, 4] ++ List.replicate 12 0 ++ [1, 0, 0, 0], r0, acc (by decide +kernel), by decide +kernel⟩,
   ⟨hG, [0, 62500, 0, 0, 4] ++ List.replicate 12 0 ++ [1, 0, 0, 0], axs 0 { dyn := { state := 2 } }, acc (by decide +kernel), by decide +kernel⟩,
   ⟨hG, [0x4000, 0, 0, 0, 0, 0], r0, acc (by decide +kernel), by decide +kernel⟩,
   ⟨hG, [0x3C000], r0, acc (by decide +kernel), by decide +kernel⟩,
   ⟨hG, 0 :: 0x20000 :: List.replicate 16 0, r0, _, _, acc (by decide +kernel), rfl, rfl, by decide +kernel⟩,
   ⟨hR 7, [], r0, acc (by decide +kernel)⟩,
   ⟨7, r0, ⟨by decide +kernel, by decide +kernel⟩⟩,
   ⟨0, 0, r0, _, ⟨by decide +kernel, by decide +kernel⟩, by decide +kernel, rfl, by decide +kernel⟩⟩

/-- AxisStartQstopOff. -/
theorem wit_AxisStartQstopOff :
    (∃ (h : CmdHdr) (w : List Word) (s : State) (a : ℕ) (x : Axis) (c tb : ℕ), Solo s 0x0705 h w ∧ leads s 0x0705 h = false ∧ a = fld w 0 13 0 ∧
      x = axis s a ∧ c = nowNs s + 20000 ∧ fld w 0 31 14 = 0 ∧ hasAxis s a = true ∧ x.cfg.direct = false ∧ fld w 4 31 17 = 0 ∧ fld w 5 31 16 = 0 ∧
      instantAt w 1 = .ok tb ∧ startBarred x.dyn.state = false ∧ x.cfg.ct ≠ 0 ∧ x.cfg.ct % s.line.baseCt = 0 ∧
      startsOk s [newMember s 0x0705 h w] = true ∧ c + 8 * x.cfg.ct + 4000 ≤ (ltAt w 1).1 ∧ segHeld x (fld w 4 16 0) ≠ 0 ∧
      segHeld x (fld w 4 16 0) ≤ ringLen x) ∧
    (∃ (h : CmdHdr) (w : List Word) (s : State) (c : ℕ) (u : State) (a : ℕ) (x : Axis), OwnDue s 0x0705 h w c u ∧ a = fld w 0 13 0 ∧ x = axis u a ∧
      startBarred x.dyn.state = false ∧ x.cfg.direct = false) ∧
    (∃ (h : CmdHdr) (w : List Word) (s : State) (a : ℕ) (x : Axis) (c : ℕ), Solo s 0x0705 h w ∧ leads s 0x0705 h = false ∧ a = fld w 0 13 0 ∧
      x = axis s a ∧ c = nowNs s + 20000 ∧ fld w 0 31 14 = 0 ∧ hasAxis s a = true ∧ x.cfg.direct = true ∧ startBarred x.dyn.state = false ∧
      x.cfg.ct ≠ 0 ∧ x.cfg.ct % s.line.baseCt = 0 ∧ startsOk s [newMember s 0x0705 h w] = true) ∧
    (∃ (h : CmdHdr) (w : List Word) (s : State) (c : ℕ) (u : State) (a : ℕ) (x : Axis), OwnDue s 0x0705 h w c u ∧ a = fld w 0 13 0 ∧ x = axis u a ∧
      startBarred x.dyn.state = false ∧ x.cfg.direct = true) ∧
    (∃ (h : CmdHdr) (w : List Word) (s : State), Accepted s 0x0706 h w ∧ leads s 0x0706 h = false ∧ fld w 0 31 14 = 0 ∧
      hasAxis s (fld w 0 13 0) = true) ∧
    (∃ (h : CmdHdr) (w : List Word) (s : State) (a : ℕ) (x : Axis), Solo s 0x0707 h w ∧ leads s 0x0707 h = false ∧ a = fld w 0 13 0 ∧ x = axis s a ∧
      fld w 0 31 14 = 0 ∧ hasAxis s a = true ∧ x.dyn.state ≠ 2 ∧ x.dyn.state ≠ 4 ∧ ¬(x.dyn.state = 1 ∧
      nextB s.line.anchor x.cfg.ct x.run.s0 ≤ nowNs s + 20000)) ∧
    (∃ (h : CmdHdr) (w : List Word) (s : State) (c : ℕ) (u : State) (a : ℕ) (x : Axis), OwnDue s 0x0707 h w c u ∧ a = fld w 0 13 0 ∧ x = axis u a ∧
      (x.dyn.state = 3 ∨ x.dyn.state = 5 ∨ x.dyn.state = 6)) ∧
    (∃ (h : CmdHdr) (w : List Word) (s : State) (c : ℕ) (u : State) (a : ℕ) (x : Axis), OwnDue s 0x0707 h w c u ∧ a = fld w 0 13 0 ∧ x = axis u a ∧
      x.dyn.state = 1) ∧
    (∃ (h : CmdHdr) (w : List Word) (s : State) (c : ℕ) (u : State), OwnDue s 0x0707 h w c u ∧ (axis u (fld w 0 13 0)).dyn.state = 0) ∧
    (∃ (h : CmdHdr) (w : List Word) (s : State), Solo s 0x0707 h w ∧ fld w 0 31 14 = 0 ∧ hasAxis s (fld w 0 13 0) = true ∧
      ((axis s (fld w 0 13 0)).dyn.state = 2 ∨ (axis s (fld w 0 13 0)).dyn.state = 4)) ∧
    (∃ (h : CmdHdr) (w : List Word) (s : State) (a : ℕ) (x : Axis), Solo s 0x0707 h w ∧ a = fld w 0 13 0 ∧ x = axis s a ∧ fld w 0 31 14 = 0 ∧
      hasAxis s a = true ∧ x.dyn.state = 1 ∧ nextB s.line.anchor x.cfg.ct x.run.s0 ≤ nowNs s + 20000) :=
  ⟨⟨hG, [0, 0, 0, 524000, 0, 0], axs 0 { cfg := { ct := 62500, ringK := 4 }, dyn := { put := 16 } }, _, _, _, _,
    solo (by decide +kernel) (by decide +kernel), by decide +kernel, rfl, rfl, rfl, by decide +kernel, by decide +kernel, by decide +kernel,
    by decide +kernel, by decide +kernel, rfl, by decide +kernel⟩,
   ⟨hG, [0, 0, 0, 524000, 0, 0], ownRun (axs 0 { cfg := { ct := 62500, ringK := 4 }, dyn := { put := 16 } }) 0x0705 hG [0, 0, 0, 524000, 0, 0],
     20000, _, _, _, due (by decide +kernel), rfl, rfl, by decide +kernel⟩,
   ⟨hG, [0], axs 0 { cfg := { ct := 62500, direct := true } }, _, _, _, solo (by decide +kernel) (by decide +kernel), by decide +kernel, rfl, rfl,
     rfl, by decide +kernel⟩,
   ⟨hG, [0], ownRun (axs 0 { cfg := { ct := 62500, direct := true } }) 0x0705 hG [0], 20000, _, _, _, due (by decide +kernel), rfl, rfl,
     by decide +kernel⟩,
   ⟨hG, [0x3FFF], r0, acc (by decide +kernel), by decide +kernel⟩,
   ⟨hG, [0], axs 0 { dyn := { state := 6 } }, _, _, solo (by decide +kernel) (by decide +kernel), by decide +kernel, rfl, rfl, by decide +kernel⟩,
   ⟨hG, [0], ownRun (axs 0 { dyn := { state := 6 } }) 0x0707 hG [0], 20000, _, _, _, due (by decide +kernel), rfl, rfl, by decide +kernel⟩,
   ⟨hG, [0], ownRun (axs 0 { dyn := { state := 1 } }) 0x0707 hG [0], 20000, _, _, _, due (by decide +kernel), rfl, rfl, by decide +kernel⟩,
   ⟨hG, [0], ownRun r0 0x0707 hG [0], 20000, _, due (by decide +kernel), rfl⟩,
   ⟨hG, [0], axs 0 { dyn := { state := 4 } }, solo (by decide +kernel) (by decide +kernel), by decide +kernel⟩,
   ⟨hG, [0], axs 0 { cfg := { ct := 62500 }, dyn := { state := 1 } }, _, _, solo (by decide +kernel) (by decide +kernel), rfl, rfl,
     by decide +kernel⟩⟩

/-- QuickStopActsOnMovingAxesOnly. -/
theorem wit_QuickStopActsOnMovingAxesOnly :
    (∃ (s : State) (a : ℕ), ((axis s a).dyn.state = 0 ∨ (axis s a).dyn.state = 4 ∨ (axis s a).dyn.state = 5)) ∧
    (∃ (s : State) (a : ℕ), ((axis s a).dyn.state = 1 ∨ (axis s a).dyn.state = 2 ∨ (axis s a).dyn.state = 3 ∨ (axis s a).dyn.state = 6)) :=
  ⟨⟨r0, 0, by decide +kernel⟩,
   ⟨axs 0 { dyn := { state := 6 } }, 0, by decide +kernel⟩⟩

/-- AxisInstantsTakePlace. -/
theorem wit_AxisInstantsTakePlace :
    (∃ (a n : ℕ) (s : State) (b : ℕ), b = cycleStart s (axis s a).cfg.ct n ∧ (axis s a).cfg.ct ≠ 0 ∧ engineRuns s a = true ∧
      nowNs s < b + (axis s a).cfg.ct ∧ (axis s a).run.lastB.any (b ≤ ·) = false ∧ ((decide_ (atNs s (b - 2000)) a b).fault.any (· ≤ 6)) = false) ∧
    (∃ (a n : ℕ) (s : State) (b : ℕ), b = cycleStart s (axis s a).cfg.ct n ∧ (axis s a).cfg.ct ≠ 0 ∧ engineRuns s a = true ∧
      (axis s a).run.lastB ≠ some b) ∧
    (∃ (a : ℕ) (s : State) (i : ℕ) (b : List Byte), i = (axis s a).dyn.get + (axis s a).run.cache.length ∧ b = segBytes s a (i % 131072) ∧
      ((axis s a).dyn.state = 1 ∨ (axis s a).dyn.state = 2) ∧ engineRuns s a = true ∧ (ddrChan s (dieOfAxis a)).trained = true ∧
      (axis s a).run.cache = [] ∧ 0 < segHeld (axis s a) (axis s a).dyn.get ∧ segOk b = true ∧ (segOf b).seq = (axis s a).dyn.segExp) ∧
    (∃ (r n : ℕ) (s : State) (c : ℕ × ℕ), (digest s r).cap = some c ∧ c.1 = n % 2 ^ 32 ∧ regionRuns s r = true ∧ clocksRun s = true ∧
      s.twin.role = .off) ∧
    (∃ (ofs : ℕ) (data : List Word) (s : State) (a : ℕ), a = (ofs - 0x600000) / 64 ∧ 0x600000 ≤ ofs ∧ ofs < 0x700000 ∧ hasAxis s a = true ∧
      regionRuns s (regionOfAxis a) = true ∧ dieRuns s 0 = true ∧ clocksRun s = true ∧ s.sec.bootState = 5 ∧ ofs % 4 = 0 ∧
      accHeld s (.staging ofs data true) = false ∧ data ≠ [] ∧ (ofs - 0x600000) % 64 + 4 * data.length ≤ 64 ∧ (axis s a).cfg.direct = true ∧
      s.twin.role ≠ .follower) ∧
    (∃ (ofs : ℕ) (data : List Word) (s : State) (a : ℕ), a = (ofs - 0x600000) / 64 ∧ 0x600000 ≤ ofs ∧ ofs < 0x700000 ∧ hasAxis s a = true ∧
      regionRuns s (regionOfAxis a) = true ∧ dieRuns s 0 = true ∧ clocksRun s = true ∧ s.sec.bootState = 5 ∧ ofs % 4 = 0 ∧
      accHeld s (.staging ofs data true) = false ∧ data ≠ [] ∧ (ofs - 0x600000) % 64 + 4 * data.length ≤ 64 ∧ (axis s a).cfg.direct = false) :=
  ⟨⟨0, 1, axs 0 { cfg := { ct := 62500 }, dyn := { state := 3 } }, _, rfl, by decide +kernel⟩,
   ⟨0, 1, axs 0 { cfg := { ct := 62500 }, dyn := { state := 3 } }, _, rfl, by decide +kernel⟩,
   ⟨0, { (axs 0 { cfg := { ringK := 4 }, dyn := { state := 2, put := 1 } }) with ddr := (ddrWrite r0 0 0 zseg).ddr }, _, _, rfl, rfl,
     by decide +kernel⟩,
   ⟨0, 0, { r0 with digests := [(0, { cap := some (0, 5) })] }, _, rfl, by decide +kernel⟩,
   ⟨0x600038, [1, 2], axs 0 { cfg := { direct := true } }, _, rfl, by decide +kernel⟩,
   ⟨0x600038, [1, 2], r0, _, rfl, by decide +kernel⟩⟩

/-- FlowQueriesAnswer. -/
theorem wit_FlowQueriesAnswer :
    (∃ (h : CmdHdr) (w : List Word) (s : State), Accepted s 0x0801 h w ∧ prm w 0 = 0 ∧ fld w 1 31 20 = 0 ∧ hasFlow s (prm w 1) = true ∧
      dieOfFlow (prm w 1) = h.die) ∧
    (∃ (h : CmdHdr) (w : List Word) (s : State) (f : ℕ), Accepted s 0x0801 h w ∧ prm w 0 = 1 ∧
      matchOf s h.die (wordsLe ((w.drop 1).take 5)) = some f) ∧
    (∃ (h : CmdHdr) (w : List Word) (s : State), Accepted s 0x0801 h w ∧ prm w 0 = 1 ∧ matchOf s h.die (wordsLe ((w.drop 1).take 5)) = none) ∧
    (∃ (h : CmdHdr) (w : List Word) (s : State), Accepted s 0x0808 h w ∧ countBad w (2 ^ 31) = none ∧
      idsBad (fld w 0 4 0) 20 (hasFlow s) dieOfFlow h w 1 = none ∧ ((∀ f ∈ idsOf 19 w, cKind (flow s f) = 5 ∨ cKind (flow s f) = 6))) ∧
    (∃ (h : CmdHdr) (w : List Word) (s : State), Accepted s 0x0809 h w ∧ fld w 0 31 1 = 0 ∧ bit (prm w 0) 0 = true ∧
      beAt (wordsLe ((w.drop 1).take 5)) 0 2 < 520 ∧ hasPort s (beAt (wordsLe ((w.drop 1).take 5)) 0 2) = false) ∧
    (∃ (h : CmdHdr) (w : List Word) (s : State), Accepted s 0x0809 h w ∧ fld w 0 31 1 = 0 ∧ ¬(bit (prm w 0) 0 = true ∧
      beAt (wordsLe ((w.drop 1).take 5)) 0 2 < 520 ∧ hasPort s (beAt (wordsLe ((w.drop 1).take 5)) 0 2) = false)) :=
  ⟨⟨hD 1, [0, 0xFFFFF], r0, acc (by decide +kernel), by decide +kernel⟩,
   ⟨hD 0, [1, 0, 0, 0, 0, 0], flw [((bucketIds 0 (bucket1 k20)).headD 0, { w0 := 1 })], (bucketIds 0 (bucket1 k20)).headD 0, acc (by decide +kernel),
     by decide +kernel⟩,
   ⟨hD 0, [1, 0, 0, 0, 0, 0], r0, acc (by decide +kernel), by decide +kernel⟩,
   ⟨hD 0, [1, 0], flw [(0, { w0 := 5 })], acc (by decide +kernel), by decide +kernel⟩,
   ⟨hD 0, [1, 0x2C01, 0, 0, 0, 0], o2, acc (by decide +kernel), by decide +kernel⟩,
   ⟨hD 0, [0], r0, acc (by decide +kernel), by decide +kernel⟩⟩

/-- FlowCommandsTakeEffect. -/
theorem wit_FlowCommandsTakeEffect :
    (∃ (h : CmdHdr) (w : List Word) (s : State) (l : List (ℕ × ℕ × Ctx)) (x : State × List ℕ), Solo s 0x0802 h w ∧ countBad w 0 = none ∧
      (∀ i < fld w 0 4 0, fld w (1 + 9 * i) 23 3 = 0) ∧ l = (List.range (fld w 0 4 0)).map (carried w) ∧ (∀ y ∈ l, ctxCheck1 y.2.2 y.2.1 = true) ∧
      localsIn w = true ∧ carriedAbsent s w 7 = none ∧ placesOf h w (l.map (·.2.2)) s = some x ∧ flowChecks (resolve x.2 w x.1) h.die = none) ∧
    (∃ (h : CmdHdr) (w : List Word) (s : State) (l : List (ℕ × ℕ × Ctx)) (t : State), Solo s 0x0803 h w ∧ countBad w 32 = none ∧
      idsBad (fld w 0 4 0) 20 (hasFlow s) dieOfFlow h w 9 = none ∧ l = ((List.range (fld w 0 4 0)).map fun i => (fld w (1 + 9 * i) 19 0,
      (carried w i).2)) ∧ (∀ x ∈ l, ctxCheck1 x.2.2 x.2.1 = true ∧ cKind x.2.2 = cKind (flow s x.1)) ∧ carriedAbsent s w 0 = none ∧
      t = l.foldl (fun u x => writeCtx u (bit (prm w 0) 5) x.1 x.2.2) s ∧ flowChecks t h.die = none) ∧
    (∃ (h : CmdHdr) (w : List Word) (s t : State), Solo s 0x0804 h w ∧ countBad w 0 = none ∧
      idsBad (fld w 0 4 0) 20 (hasFlow s) dieOfFlow h w 1 = none ∧ deleteAll (idsOf 19 w) 2 s = .ok t) ∧
    (∃ (h : CmdHdr) (w : List Word) (s : State), Accepted s 0x0805 h w ∧ fld w 0 31 23 = 0 ∧ profOk (fld w 0 2 0) (fld w 0 10 3) = true ∧
      profOk (fld w 0 13 11) (fld w 0 21 14) = true ∧ fld w 1 31 20 = 0 ∧ ((bit (prm w 0) 22 = true → hasFlow s (fld w 1 19 0) = true ∧
      cKind (flow s (fld w 1 19 0)) = 2 ∧ dieOfFlow (fld w 1 19 0) = dieOfPort h.port))) ∧
    (∃ (h : CmdHdr) (w : List Word) (s : State), Accepted s 0x0806 h w ∧ fld w 0 31 7 = 0 ∧ 2 ≤ fld w 0 6 3 ∧ fld w 0 6 3 ≤ 8 ∧ fld w 1 31 24 = 0 ∧
      fld w 1 23 16 ≠ 0 ∧ fld w 2 31 8 = 0 ∧ fld w 2 7 0 ≠ 0) ∧
    (∃ (h : CmdHdr) (w : List Word) (s : State), Solo s 0x0807 h w ∧ countBad w 0 = none ∧
      idsBad (fld w 0 4 0) 20 (hasFlow s) dieOfFlow h w 1 = none ∧ (∀ f ∈ idsOf 19 w, cKind (flow s f) = 4)) ∧
    (∃ (h : CmdHdr) (w : List Word) (s : State) (c : ℕ) (u : State), OwnDue s 0x0807 h w c u) ∧
    (∃ (f : ℕ) (s : State), dieRuns s (dieOfFlow f) = true ∧ clocksRun s = true ∧ cKind (flow s f) = 4 ∧ rcAny (flow s f) = false ∧
      bits (flow s f).w3.toNat 10 0 * 1000000 ≤ (shortNs s + 2 ^ 32 - (flow s f).w4.toNat) % 2 ^ 32) ∧
    (∃ (f : ℕ) (s : State), dieRuns s (dieOfFlow f) = true ∧ clocksRun s = true ∧ cKind (flow s f) = 2 ∧ stPol (flow s f) = true) ∧
    (∃ (q : ℕ) (s : State), dieRuns s (dieOfQueue q) = true ∧ clocksRun s = true) ∧
    (∃ (d : ℕ) (s : State), dieRuns s d = true ∧ clocksRun s = true) :=
  ⟨⟨hD 0, [1, 0, 5, 0, 0, 0, 0, 0, 0, 0], r0, _, _, solo (by decide +kernel) (by decide +kernel), by decide +kernel, by decide +kernel, rfl,
    by decide +kernel, by decide +kernel, by decide +kernel, rfl, by decide +kernel⟩,
   ⟨hD 0, [1, 0, 5, 0, 0, 0, 0, 0, 0, 0], flw [(0, { w0 := 5 })], _, _, solo (by decide +kernel) (by decide +kernel), by decide +kernel,
     by decide +kernel, rfl, by decide +kernel, by decide +kernel, rfl, by decide +kernel⟩,
   ⟨hD 0, [1, 0], flw [(0, { w0 := 5 })], _, solo (by decide +kernel) (by decide +kernel), by decide +kernel, by decide +kernel, rfl⟩,
   ⟨hP 0, [0, 0], r0, acc (by decide +kernel), by decide +kernel⟩,
   ⟨hD 1, [0x47, 0x10000, 1], r0, acc (by decide +kernel), by decide +kernel⟩,
   ⟨hD 0, [1, 0], flw [(0, { w0 := 4 })], solo (by decide +kernel) (by decide +kernel), by decide +kernel⟩,
   ⟨hD 0, [1, 0], ownRun (flw [(0, { w0 := 4 })]) 0x0807 (hD 0) [1, 0], 20000, _, due (by decide +kernel)⟩,
   ⟨0, flw [(0, { w0 := 4 })], by decide +kernel⟩,
   ⟨0, flw [(0, { w0 := 0x102 })], by decide +kernel⟩,
   ⟨0, r0, by decide +kernel⟩,
   ⟨1, r0, by decide +kernel⟩⟩

/-- RecoveryAndPolicerDecide. -/
theorem wit_RecoveryAndPolicerDecide :
    (∃ (s : State) (f : ℕ), rcAny (flow s f) = true) ∧
    (∃ (s : State) (f : ℕ), rcAny (flow s f) = false) ∧
    (∃ (s : State) (f : ℕ), rcAny (flow s f) = false) ∧
    (∃ (s : State) (f : ℕ), stPol (flow s f) = false) ∧
    (∃ (s : State) (f : ℕ), stPol (flow s f) = true) :=
  ⟨⟨flw [(0, { w0 := 0x44 })], 0, by decide +kernel⟩,
   ⟨flw [(0, { w0 := 4 })], 0, by decide +kernel⟩,
   ⟨flw [(0, { w0 := 4 })], 0, by decide +kernel⟩,
   ⟨flw [(0, { w0 := 2 })], 0, by decide +kernel⟩,
   ⟨flw [(0, { w0 := 0x102 })], 0, by decide +kernel⟩⟩

/-- QueueCommandsTakeEffect. -/
theorem wit_QueueCommandsTakeEffect :
    (∃ (h : CmdHdr) (w : List Word) (s : State), Accepted s 0x0901 h w ∧ countBad w 0 = none ∧
      idsBad (fld w 0 4 0) 18 (hasQueue s) dieOfQueue h w 1 = none) ∧
    (∃ (h : CmdHdr) (w : List Word) (s : State), Solo s 0x0902 h w ∧ countBad w (2 ^ 31) = none ∧
      idsBad (fld w 0 4 0) 18 (hasQueue s) dieOfQueue h w 5 = none ∧ (∀ i < fld w 0 4 0, fld w (1 + 5 * i) 23 18 = 0) ∧ queueWriteBad s w = none) ∧
    (∃ (h : CmdHdr) (w : List Word) (s : State), Accepted s 0x0903 h w ∧ countBad w 0 = none ∧
      idsBad (fld w 0 4 0) 18 (hasQueue s) dieOfQueue h w 1 = none) ∧
    (∃ (h : CmdHdr) (w : List Word) (s : State) (c : SvcCfg), Solo s 0x0904 h w ∧ c = svcOf w ∧ fld w 0 30 17 = 0 ∧ c.sweight ≠ 0 ∧ c.meter = 0 ∧
      fld w 1 31 8 = 0 ∧ fld w 4 31 8 = 0 ∧ fld w 6 31 8 = 0 ∧ c.burst < 2 ^ 24 ∧ c.credit < 2 ^ 24 ∧ c.cir < 2 ^ 24 ∧ c.pir < 2 ^ 24 ∧
      ((c.on = true → c.credit ≠ 0)) ∧ ((c.maxY ≠ 0 → c.maxG ≠ 0 → c.maxY ≤ c.maxG)) ∧ c.sched = false) ∧
    (∃ (h : CmdHdr) (w : List Word) (s : State) (c : PShape), Solo s 0x0905 h w ∧ c = pshapeOf w ∧ fld w 0 30 1 = 0 ∧ fld w 1 31 8 = 0 ∧
      c.burst < 2 ^ 24 ∧ c.credit < 2 ^ 24 ∧ ((c.on = true → c.credit ≠ 0))) ∧
    (∃ (h : CmdHdr) (w : List Word) (s : State), Accepted s 0x0906 h w ∧ prm w 0 ≤ 393216 ∧ prm w 2 < prm w 1 ∧ prm w 1 + prm w 0 ≤ 393216 ∧
      prm w 5 ≤ 2048 ∧ w64 w 3 % 2 ^ 20 = 0 ∧ ((prm w 5 ≠ 0 → w64 w 3 + prm w 5 * 2 ^ 20 ≤ ddrBytes s h.die)) ∧ spillUsed s h.die = 0) ∧
    (∃ (h : CmdHdr) (w : List Word) (s : State), Accepted s 0x0906 h w ∧ prm w 0 ≤ 393216 ∧ prm w 2 < prm w 1 ∧ prm w 1 + prm w 0 ≤ 393216 ∧
      prm w 5 ≤ 2048 ∧ w64 w 3 % 2 ^ 20 = 0 ∧ ((prm w 5 ≠ 0 → w64 w 3 + prm w 5 * 2 ^ 20 ≤ ddrBytes s h.die)) ∧ spillUsed s h.die ≠ 0) ∧
    (∃ (h : CmdHdr) (w : List Word) (s : State), Accepted s 0x0907 h w ∧ fld w 0 31 26 = 0 ∧ fld w 0 1 0 = 0 ∧ (port s h.port).ing.mode ≠ 0) ∧
    (∃ (h : CmdHdr) (w : List Word) (s : State), Accepted s 0x0907 h w ∧ fld w 0 31 26 = 0 ∧ fld w 0 1 0 = 0 ∧ (port s h.port).ing.mode = 0 ∧
      (port s h.port).ing.mask = fld w 0 9 2) ∧
    (∃ (h : CmdHdr) (w : List Word) (s : State) (c : Ingress), Accepted s 0x0907 h w ∧ fld w 0 31 26 = 0 ∧ fld w 0 1 0 = 1 ∧ prm w 2 < prm w 1 ∧
      ((prm w 3 ≠ 0 → prm w 1 ≤ prm w 3)) ∧ fld w 0 25 10 ≠ 0 ∧ (port s h.port).ing.mode ≠ 1 ∧
      c = ({ mode := 1, mask := fld w 0 9 2, pauseTime := fld w 0 25 10, hi := prm w 1, lo := prm w 2, max := prm w 3 } : Ingress)) ∧
    (∃ (h : CmdHdr) (w : List Word) (s : State), Accepted s 0x0908 h w ∧ h.scope = 1) :=
  ⟨⟨hD 1, [1, 0x3FFFF], r0, acc (by decide +kernel), by decide +kernel⟩,
   ⟨hD 0, [1, 0, 0x000103FF, 0, 0, 0], r0, solo (by decide +kernel) (by decide +kernel), by decide +kernel⟩,
   ⟨hD 0, [1, 0], r0, acc (by decide +kernel), by decide +kernel⟩,
   ⟨hP 519, [0x10, 0, 0, 0, 0, 0, 0, 0, 0, 0, 0, 0], r0, _, solo (by decide +kernel) (by decide +kernel), rfl, by decide +kernel⟩,
   ⟨hP 519, [0, 0, 0, 0], r0, _, solo (by decide +kernel) (by decide +kernel), rfl, by decide +kernel⟩,
   ⟨hD 1, [0, 1, 0, 0, 0, 0], r0, acc (by decide +kernel), by decide +kernel⟩,
   ⟨hD 0, [0, 1, 0, 0, 0, 0], { r0 with traffic := { r0.traffic with frames := [(0, { bytes := List.replicate 64 0 })], held := [(0, [{ frame := 0, spilled := true }])] } }, acc (by decide +kernel), by decide +kernel⟩,
   ⟨hP 0, [0, 0, 0, 0], pt 0 fun x => { x with ing := { x.ing with mode := 1 } }, acc (by decide +kernel), by decide +kernel⟩,
   ⟨hP 0, [4, 0, 0, 0], pt 0 fun x => { x with ing := { x.ing with mask := 1 } }, acc (by decide +kernel), by decide +kernel⟩,
   ⟨hP 0, [0x401, 1, 0, 0], r0, _, acc (by decide +kernel), by decide +kernel, by decide +kernel, by decide +kernel, by decide +kernel,
     by decide +kernel, by decide +kernel, rfl⟩,
   ⟨hD 1, [], r0, acc (by decide +kernel), by decide +kernel⟩⟩

/-- PortsSendAndReceive. -/
theorem wit_PortsSendAndReceive :
    (∃ (p : ℕ) (s u : State) (f : Tx), canSend (settleTx s p) p = true ∧
      u = (List.range 8).foldl (fun t k => testLengths t p k) (refreshShapers (settleTx s p) p) ∧ (port u p).txd.tx = some f ∧ f.pre = false) ∧
    (∃ (p : ℕ) (s u : State) (f : Tx) (c : ℕ × Cand × List DItem), canSend (settleTx s p) p = true ∧
      u = (List.range 8).foldl (fun t k => testLengths t p k) (refreshShapers (settleTx s p) p) ∧ (port u p).txd.tx = some f ∧ f.pre = true ∧
      chooseFrom u p (now16 u * 100) false = some c) ∧
    (∃ (p : ℕ) (s u : State) (f : List Byte), canSend (settleTx s p) p = true ∧
      u = (List.range 8).foldl (fun t k => testLengths t p k) (refreshShapers (settleTx s p) p) ∧ (port u p).txd.tx = none ∧
      (port u p).txd.lineFree ≤ now16 u ∧ (port u p).link.sleeping = false ∧ (port u p).txd.mac = some f ∧
      keepsLaunch u p (lineQ p (port u p)) (now16 u * 100) (now16 u * 100 + lineQ p (port u p) * (f.length + 20)) = true) ∧
    (∃ (p : ℕ) (s u : State) (c : ℕ × Cand × List DItem), canSend (settleTx s p) p = true ∧
      u = (List.range 8).foldl (fun t k => testLengths t p k) (refreshShapers (settleTx s p) p) ∧ (port u p).txd.tx = none ∧
      (port u p).txd.lineFree ≤ now16 u ∧ (port u p).link.sleeping = false ∧ (port u p).txd.mac = none ∧
      chooseFrom u p (now16 u * 100) false = some c) ∧
    (∃ (p : ℕ) (s u : State) (f : Tx), canSend (settleTx s p) p = true ∧
      u = (List.range 8).foldl (fun t k => testLengths t p k) (refreshShapers (settleTx s p) p) ∧ (port u p).txd.tx = none ∧
      (port u p).txd.lineFree ≤ now16 u ∧ (port u p).link.sleeping = true ∧ (port u p).txd.pend = some f ∧ holdAt u p (now16 u * 100) = false ∧
      openThrough (port u p) f.cls (now16 u * 100) (now16 u * 100 + fragQ p (port u p) (f.bytes.length - f.sent)) = true ∧
      keepsLaunch u p (lineQ p (port u p)) (now16 u * 100) (now16 u * 100 + fragQ p (port u p) (f.bytes.length - f.sent) + 12 * lineQ p (port u p)) = true) ∧
    (∃ (p : ℕ) (s : State) (f : Tx), (port s p).txd.tx = some f ∧ f.now ≠ 0) ∧
    (∃ (q : ℕ) (s : State) (c : Copy) (i : ℕ), (copies s q).zipIdx.find? (fun x => x.1.spilled) = some (c, i) ∧ i < 4 ∧
      (ddrChan s (dieOfQueue q)).trained = true ∧ (frameAt s c.frame).copies = 0 ∧
      cellsOf (frameAt s c.frame).bytes.length ≤ 393216 - (bufCfg s (dieOfQueue q)).schedRes - sharedUsed s (dieOfQueue q)) ∧
    (∃ (p : ℕ) (s : State), receives s p = true) ∧
    (∃ (p : ℕ) (s : State), receives s p = false) ∧
    (∃ (p t : ℕ) (s : State), receives s p = true ∧ peEn (port s p) = true ∧ canSend (at16 s t) p = true) ∧
    (∃ (p t : ℕ) (s : State), receives s p = true ∧ canSend (at16 s t) p = false) ∧
    (∃ (p : ℕ) (s : State), receives s p = true) ∧
    (∃ (p : ℕ) (s : State), receives s p = true) ∧
    (∃ (p : ℕ) (hd : List Byte) (s : State), hd.length < max (headEnd p (port s p) hd) (idEnd (port s p) hd)) ∧
    (∃ (p t : ℕ) (hd : List Byte) (s : State) (f : ℕ), streamOf s p hd = some f ∧ cKind (flow s f) = 2 ∧ stCut (flow s f) = false ∧
      (port s p).oldSets.all (·.1 ≤ t) = true) ∧
    (∃ (p t : ℕ) (hd : List Byte) (s : State) (f : ℕ) (c : Ctx) (u : State) (ch : ℕ) (y : State × Bool), streamOf s p hd = some f ∧ c = flow s f ∧
      cKind c = 2 ∧ stCut c = true ∧ isCourseFrame hd = false ∧ beAt hd (typeAt hd) 2 ≠ 0x8808 ∧ beAt hd (typeAt hd) 2 ≠ 0x88B5 ∧
      isPtp (port s p) hd = false ∧ (port s p).txd.cutIn = none ∧ receives s p = true ∧ idEnd (port s p) hd ≤ hd.length ∧ isTwinFrame p hd = false ∧
      headEnd p (port s p) hd ≤ hd.length ∧ (port s p).oldSets.all (·.1 ≤ t) = true ∧
      u = countCtx (identify (at16 s (t + lineQ p (port s p) * idEnd (port s p) hd / 100)) p hd).1 f (stCnt c) 1 1 ∧
      ch = (if stMaxSdu c = 0 then 1522 else stMaxSdu c) ∧ y = police u f ch ∧ y.2 = false) ∧
    (∃ (p t : ℕ) (hd : List Byte) (s : State) (f : ℕ) (c : Ctx) (u : State) (ch : ℕ) (y : State × Bool) (z : State × Option ℕ),
      streamOf s p hd = some f ∧ c = flow s f ∧ cKind c = 2 ∧ stCut c = true ∧ isCourseFrame hd = false ∧ beAt hd (typeAt hd) 2 ≠ 0x8808 ∧
      beAt hd (typeAt hd) 2 ≠ 0x88B5 ∧ isPtp (port s p) hd = false ∧ (port s p).txd.cutIn = none ∧ receives s p = true ∧
      idEnd (port s p) hd ≤ hd.length ∧ isTwinFrame p hd = false ∧ headEnd p (port s p) hd ≤ hd.length ∧ (port s p).oldSets.all (·.1 ≤ t) = true ∧
      u = countCtx (identify (at16 s (t + lineQ p (port s p) * idEnd (port s p) hd / 100)) p hd).1 f (stCnt c) 1 1 ∧
      ch = (if stMaxSdu c = 0 then 1522 else stMaxSdu c) ∧ y = police u f ch ∧ y.2 = true ∧ z = genSeq y.1 f (numOf c f hd) ∧ egressSet z.1 f ≠ []) :=
  ⟨⟨0, lpt { bytes := f64, t16 := 0, cls := 0, now := 64 }, _, _, by decide +kernel, rfl, Option.eq_some_of_isSome (by decide +kernel),
    by decide +kernel⟩,
   ⟨0, lp { tx := some { bytes := f64, t16 := 0, cls := 0, now := 64, pre := true }, ctl := [(7, [{ bytes := f64 }])] }, _, _, _, by decide +kernel,
     rfl, Option.eq_some_of_isSome (by decide +kernel), by decide +kernel, Option.eq_some_of_isSome (by decide +kernel)⟩,
   ⟨0, lp { mac := some f64 }, _, _, by decide +kernel, rfl, by decide +kernel, by decide +kernel, by decide +kernel,
     Option.eq_some_of_isSome (by decide +kernel), by decide +kernel⟩,
   ⟨0, lp { ctl := [(7, [{ bytes := f64 }])] }, _, _, by decide +kernel, rfl, by decide +kernel, by decide +kernel, by decide +kernel,
     by decide +kernel, Option.eq_some_of_isSome (by decide +kernel)⟩,
   ⟨0, pendS, _, _, by decide +kernel, rfl, by decide +kernel, by decide +kernel, by decide +kernel, Option.eq_some_of_isSome (by decide +kernel),
     by decide +kernel⟩,
   ⟨0, lpt { bytes := f64, t16 := 0, cls := 0, now := 64 }, _, Option.eq_some_of_isSome (by decide +kernel), by decide +kernel⟩,
   ⟨0, { r0 with traffic := { r0.traffic with frames := [(0, { bytes := f64 })], held := [(0, [{ frame := 0, spilled := true }])] } },
     { frame := 0, spilled := true }, 0, by decide +kernel⟩,
   ⟨0, lp {}, by decide +kernel⟩,
   ⟨0, r0, by decide +kernel⟩,
   ⟨0, 0, pt 0 fun _ => { link := { up := true, speed := 2 }, pre := { cfg := 1 } }, by decide +kernel⟩,
   ⟨0, 0, pt 0 fun _ => { link := { up := true, speed := 2, squelched := true } }, by decide +kernel⟩,
   ⟨0, lp {}, by decide +kernel⟩,
   ⟨0, lp {}, by decide +kernel⟩,
   ⟨0, [], r0, by decide +kernel⟩,
   ⟨0, 0, f64, lst 2, 5, by decide +kernel⟩,
   ⟨0, 0, f64, lst 0x142, 5, _, _, _, _, by decide +kernel, rfl, by decide +kernel, by decide +kernel, by decide +kernel, by decide +kernel,
     by decide +kernel, by decide +kernel, by decide +kernel, by decide +kernel, by decide +kernel, by decide +kernel, by decide +kernel,
     by decide +kernel, rfl, rfl, rfl, by decide +kernel⟩,
   ⟨0, 0, f64, lst 0x52, 5, _, _, _, _, _, by decide +kernel, rfl, by decide +kernel, by decide +kernel, by decide +kernel, by decide +kernel,
     by decide +kernel, by decide +kernel, by decide +kernel, by decide +kernel, by decide +kernel, by decide +kernel, by decide +kernel,
     by decide +kernel, rfl, rfl, rfl, by decide +kernel, rfl, by decide +kernel⟩⟩

/-- TwinCommandsTakeEffect. -/
theorem wit_TwinCommandsTakeEffect :
    (∃ (h : CmdHdr) (w : List Word) (s : State), Accepted s 0x0A01 h w) ∧
    (∃ (h : CmdHdr) (w : List Word) (s : State), Accepted s 0x0A02 h w ∧ s.twin.role = .off ∧ fld w 0 31 9 = 0 ∧ 4 ≤ fld w 0 8 1 ∧
      fld w 1 31 18 = 0 ∧ fld w 3 31 16 = 0 ∧ fld w 5 31 16 = 0 ∧ fld w 7 31 16 = 0 ∧ fld w 9 31 16 = 0 ∧
      ((List.range (nDies s)).all fun d => twinLoadOk s d [] []) = true) ∧
    (∃ (h : CmdHdr) (w : List Word) (s : State), Accepted s 0x0A02 h w ∧ s.twin.role ≠ .off) ∧
    (∃ (h : CmdHdr) (w : List Word) (s : State) (b : ℕ), Accepted s 0x0A03 h w ∧ (s.twin.role = .off ∨ s.twin.role = .follower) ∧
      s.line.last = none ∧ b = nextLine s (nowNs s) ∧ claimLive (atNs s b) = false) ∧
    (∃ (h : CmdHdr) (w : List Word) (s : State) (b : ℕ), Accepted s 0x0A03 h w ∧ (s.twin.role = .off ∨ s.twin.role = .follower) ∧
      s.line.last = none ∧ b = nextLine s (nowNs s) ∧ claimLive (atNs s b) = true) ∧
    (∃ (h : CmdHdr) (w : List Word) (s : State), Accepted s 0x0A04 h w ∧ s.twin.role = .off) ∧
    (∃ (h : CmdHdr) (w : List Word) (s : State), Accepted s 0x0A04 h w ∧ s.twin.role ≠ .off) ∧
    (∃ (h : CmdHdr) (w : List Word) (s : State) (tb : ℕ), Solo s 0x0A05 h w ∧ instantAt w 0 = .ok tb ∧ isBoundary s s.line.baseCt tb = true ∧
      s.twin.role = .leader ∧ bit s.twin.partner 2 = true) ∧
    (∃ (h : CmdHdr) (w : List Word) (s : State) (c : ℕ) (u : State), OwnDue s 0x0A05 h w c u ∧ u.twin.role = .leader) ∧
    (∃ (h : CmdHdr) (w : List Word) (s : State) (c : ℕ) (u : State), OwnDue s 0x0A05 h w c u ∧ u.twin.role ≠ .leader) ∧
    (∃ (h : CmdHdr) (w : List Word) (s : State), Accepted s 0x0A06 h w ∧ s.twin.role = .leader) ∧
    (∃ (h : CmdHdr) (w : List Word) (s : State), Accepted s 0x0A06 h w ∧ s.twin.role ≠ .leader) ∧
    (∃ (h : CmdHdr) (w : List Word) (s : State), Accepted s 0x0A07 h w ∧ s.twin.role ≠ .claiming ∧ (s.ports.any fun e => e.2.ccfg.plane == 3 &&
      e.2.course.state != 0) = false) :=
  ⟨⟨hG, [], r0, acc (by decide +kernel)⟩,
   ⟨hG, [8, 0, 0, 0, 0, 0, 0, 0, 0, 0], r0, acc (by decide +kernel), by decide +kernel⟩,
   ⟨hG, [8, 0, 0, 0, 0, 0, 0, 0, 0, 0], twn fun t => { t with role := .follower }, acc (by decide +kernel), by decide +kernel⟩,
   ⟨hG, [], { r0 with line := { r0.line with last := none } }, _, acc (by decide +kernel), by decide +kernel, by decide +kernel, rfl,
     by decide +kernel⟩,
   ⟨hG, [], twn fun t => { t with claimEdge := some 1 }, _, acc (by decide +kernel), by decide +kernel, by decide +kernel, rfl, by decide +kernel⟩,
   ⟨hG, [], r0, acc (by decide +kernel), by decide +kernel⟩,
   ⟨hG, [], twn fun t => { t with role := .leader }, acc (by decide +kernel), by decide +kernel⟩,
   ⟨hG, [0, 0, 0], twn fun t => { t with role := .leader, partner := 4 }, _, solo (by decide +kernel) (by decide +kernel), rfl, by decide +kernel⟩,
   ⟨hG, [0, 0, 0], ownRun (twn fun t => { t with role := .leader, partner := 4 }) 0x0A05 hG [0, 0, 0], 20000, _, due (by decide +kernel), rfl⟩,
   ⟨hG, [0, 0, 0], ownRun r0 0x0A05 hG [0, 0, 0], 20000, _, due (by decide +kernel), by decide +kernel⟩,
   ⟨hG, [], twn fun t => { t with role := .leader }, acc (by decide +kernel), by decide +kernel⟩,
   ⟨hG, [], r0, acc (by decide +kernel), by decide +kernel⟩,
   ⟨hG, [], r0, acc (by decide +kernel), by decide +kernel⟩⟩

/-- TwinEventsTakePlace. -/
theorem wit_TwinEventsTakePlace :
    (∃ (s : State), twinRuns s = true ∧ ¬(s.twin.role = .claiming ∧ s.twin.sideB = true)) ∧
    (∃ (s : State), twinRuns s = true ∧ s.twin.role = .claiming ∧ s.twin.sideB = true) ∧
    (∃ (s : State) (e : ℕ), s.twin.claimEdge = some e ∧ twinRuns s = true) ∧
    (∃ (s : State), twinRuns s = true) ∧
    (∃ (u : ℕ) (blk : List Byte) (t : ℕ) (s : State) (m : ℕ), GoodBlock s u 5 blk ∧ (twinUplinks s).contains u = true ∧ s.twin.role ≠ .off ∧
      m = lineNo s t ∧ beAt blk 2 4 = m) ∧
    (∃ (m : ℕ) (s : State), twinRuns s = true ∧ s.twin.role = .follower ∧ s.twin.wordSeen ≠ some (m % 2 ^ 32)) ∧
    (∃ (u : ℕ) (s : State), receives s (512 + u) = true) ∧
    (∃ (u : ℕ) (s : State) (mine : List TwinRec), mine = s.mirror.txQ.filter (fun r => r.lane == 512 + u) ∧ mine ≠ [] ∧ twinRuns s = true ∧
      isTwinLane (512 + u) = true ∧ laneUsable s (512 + u) = false ∧ laneUsable s (if u % 2 = 0 then 512 + u + 1 else 512 + u - 1) = true) ∧
    (∃ (u : ℕ) (s0 s : State) (n : ℕ) (mac : Word × Word) (mine : List TwinRec) (fs : ℕ), s0.mirror.txQ.filter (fun r => r.lane == 512 + u) ≠ [] ∧
      twinRuns s0 = true ∧ isTwinLane (512 + u) = true ∧ laneUsable s0 (512 + u) = true ∧
      s = syncAgain s0 ((s0.mirror.txQ.filter fun r => r.lane == 512 + u).filterMap (lateSync s0)) ∧
      mine = (s0.mirror.txQ.filter fun r => r.lane == 512 + u).filter (fun r => (lateSync s r).isNone) ∧ mine ≠ [] ∧ n = frameTake 255 1496 mine ∧
      fs = s.mirror.fseq.look (512 + u) 0 ∧ mac = s.twin.partnerMac.look u (0, 0)) ∧
    (∃ (u : ℕ) (blk : List Byte) (s : State), GoodBlock s u 7 blk ∧ (twinUplinks s).contains u = true ∧ s.twin.role ≠ .off ∧
      hasRegion s (beAt blk 1 1) = true) ∧
    (∃ (n : ℕ) (s : State) (m : Mirror), twinRuns s = true ∧ s.twin.role ≠ .off ∧ s.mirror.judged ≠ some (n % 2 ^ 32) ∧
      m = (List.range (nDies s)).foldl (fun m d => let good := (List.range 4).all fun i => m.matched.look (4 * d + i) 0 == n % 65536 + 1; let run := if good then min 16 (m.okRun.look d 0 + 1) else 0; { m with okRun := m.okRun.put d run 0, ok := if run = 16 then m.ok.put d true false else m.ok }) s.mirror) ∧
    (∃ (u : ℕ) (blk : List Byte) (s : State), GoodBlock s u 9 blk ∧ (twinUplinks s).contains u = true ∧ s.twin.role = .follower) ∧
    (∃ (s : State) (b : ℕ), s.mirror.handover = some b ∧ twinRuns s = true ∧ s.twin.role = .leader) ∧
    (∃ (s : State) (r : TwinRec) (l : List TwinRec) (u : State), RecordWaits s 1 r l ∧
      u = at16 { s with mirror := { s.mirror with recQ := l } } r.t ∧ twinPort u (dieOfPort r.lane) (beAt r.bytes 1 2) = none) ∧
    (∃ (s : State) (r : TwinRec) (l : List TwinRec) (u : State) (o n : ℕ) (d : Desc) (base e : ℕ), RecordWaits s 1 r l ∧
      u = at16 { s with mirror := { s.mirror with recQ := l } } r.t ∧ twinPort u (dieOfPort r.lane) (beAt r.bytes 1 2) = some o ∧
      n = r.bytes.length ∧ brickCheck (beAt r.bytes 3 2) true (beAt r.bytes 5 1 % 4) (beAt r.bytes 6 1) ((r.bytes.drop 13).take (n - 15)) = beAt r.bytes (n - 2) 2 ∧ ((port u o).course.state = 2 ∨ (port u o).course.state = 3) ∧ d = descOf u o (b2n (port u o).course.bank) (4 + beAt r.bytes 5 1 % 4) ∧ beAt r.bytes 6 1 < dCount d ∧ courseRuns u o = true ∧ merges u = false ∧ offers u = true ∧ bit (beAt r.bytes 5 1) 7 = true ∧ cycleNo u (port u o).ccfg.ct (r.t / 65536) % 65536 = beAt r.bytes 3 2 ∧ base = nextB u.line.anchor (port u o).ccfg.ct (r.t / 65536 + 1) - (port u o).ccfg.ct ∧ r.t ≤ (base + d.w3.toNat + 1000) * 65536 ∧ e = dFirst d + beAt r.bytes 6 1 ∧ (port u o).inStat.taken.look e false = false) ∧
    (∃ (s : State) (r : TwinRec) (l : List TwinRec) (u : State) (a : ℕ), RecordWaits s 2 r l ∧
      u = at16 { s with mirror := { s.mirror with recQ := l } } r.t ∧ a = beAt r.bytes 2 2 ∧ s.twin.role = .follower ∧ hasAxis u a = true ∧
      (axis u a).cfg.direct = true) ∧
    (∃ (s : State) (r : TwinRec) (l : List TwinRec) (u : State) (pk : List Word) (hd : CmdHdr), RecordWaits s 3 r l ∧
      u = at16 { s with mirror := { s.mirror with recQ := l } } r.t ∧ s.twin.role = .follower ∧ pk = toWordsBe 4096 (r.bytes.drop 8) ∧
      5 ≤ pk.length ∧ crc32c (wordsBe (pk.take (pk.length - 1))) = prm pk (pk.length - 1) ∧
      hd = pktHdr (.hyith (r.lane - 512) u.twin.partnerDev) pk ∧ fwdCheck u (pktOp pk) hd (pktParams pk) = true) ∧
    (∃ (s : State) (r : TwinRec) (l : List TwinRec) (u : State) (a : ℕ) (x : Axis) (cb : ℕ) (b : List Byte) (v : State), RecordWaits s 4 r l ∧
      u = at16 { s with mirror := { s.mirror with recQ := l } } r.t ∧ s.twin.role = .follower ∧ a = beAt r.bytes 2 2 ∧ x = axis u a ∧
      b = r.bytes.drop 8 ∧ cb = near16 u (beAt r.bytes 4 4 * 65536) / 65536 ∧ hasAxis u a = true ∧ x.cfg.ct ≠ 0 ∧ nowNs u < cb + x.cfg.ct - 2000 ∧
      v = setAxisState (usedRec u) a (beAt b 0 1 % 8) (beAt b 1 1 % 16)) ∧
    (∃ (s : State) (f : Fwd) (u : State), nextFwd s.mirror.fwd = some f ∧ clocksRun s = true ∧
      u = { atNs s f.at_ with mirror := { s.mirror with fwd := s.mirror.fwd.erase f } } ∧ stoppedTarget u f.op f.h f.w = none ∧ f.op ≠ 0x0607) :=
  ⟨⟨r0, by decide +kernel⟩,
   ⟨twn fun t => { t with role := .claiming, sideB := true }, by decide +kernel⟩,
   ⟨twn fun t => { t with claimEdge := some 1 }, 1, by decide +kernel⟩,
   ⟨r0, by decide +kernel⟩,
   ⟨2, cb [5], 0, hyp (twn fun t => { t with role := .leader }) 2, _, ⟨by decide +kernel, by decide +kernel, by decide +kernel, by decide +kernel,
     by decide +kernel⟩, by decide +kernel, by decide +kernel, rfl, by decide +kernel⟩,
   ⟨0, twn fun t => { t with role := .follower }, by decide +kernel⟩,
   ⟨2, hyp r0 2, by decide +kernel⟩,
   ⟨3, twLane 515, _, rfl, by decide +kernel⟩,
   ⟨2, twLane 514, _, _, _, _, _, by decide +kernel, by decide +kernel, by decide +kernel, by decide +kernel, rfl, rfl, by decide +kernel, rfl, rfl,
     rfl⟩,
   ⟨2, cb [7], hyp (twn fun t => { t with role := .leader }) 2, ⟨by decide +kernel, by decide +kernel, by decide +kernel, by decide +kernel,
     by decide +kernel⟩, by decide +kernel⟩,
   ⟨0, twn fun t => { t with role := .leader }, _, by decide +kernel, by decide +kernel, by decide +kernel, rfl⟩,
   ⟨2, cb [9], hyp (twn fun t => { t with role := .follower }) 2, ⟨by decide +kernel, by decide +kernel, by decide +kernel, by decide +kernel,
     by decide +kernel⟩, by decide +kernel⟩,
   ⟨{ (twn fun t => { t with role := .leader }) with mirror := { handover := some 9 } }, 9, by decide +kernel⟩,
   ⟨fol [1, 1, 1, 0, 0, 0, 0], fr [1, 1, 1, 0, 0, 0, 0], [], _, ⟨by decide +kernel, by decide +kernel, by decide +kernel⟩, rfl, by decide +kernel⟩,
   ⟨fol brk, fr brk, [], _, 0, _, _, _, _, ⟨by decide +kernel, by decide +kernel, by decide +kernel⟩, rfl, by decide +kernel, rfl, by decide +kernel,
     by decide +kernel, rfl, by decide +kernel, by decide +kernel, by decide +kernel, by decide +kernel, by decide +kernel, by decide +kernel, rfl,
     by decide +kernel, rfl, by decide +kernel⟩,
   ⟨fol [2], fr [2], [], _, _, ⟨by decide +kernel, by decide +kernel, by decide +kernel⟩, rfl, rfl, by decide +kernel⟩,
   ⟨fol cmdRec, fr cmdRec, [], _, _, _, ⟨by decide +kernel, by decide +kernel, by decide +kernel⟩, rfl, by decide +kernel, rfl, by decide +kernel,
     by decide +kernel, rfl, by decide +kernel⟩,
   ⟨fol [4], fr [4], [], _, _, _, _, _, _, ⟨by decide +kernel, by decide +kernel, by decide +kernel⟩, rfl, by decide +kernel, rfl, rfl, rfl, rfl,
     by decide +kernel, by decide +kernel, by decide +kernel, rfl⟩,
   ⟨mir fun m => { m with fwd := [{ op := 0x0704, h := hG, w := [0], at_ := 9 }] }, { op := 0x0704, h := hG, w := [0], at_ := 9 }, _,
     by decide +kernel, by decide +kernel, rfl, by decide +kernel⟩⟩

/-- SystemCommandsTakeEffect. -/
theorem wit_SystemCommandsTakeEffect :
    (∃ (h : CmdHdr) (w : List Word) (s : State), Accepted s 0x0E01 h w) ∧
    (∃ (h : CmdHdr) (w : List Word) (s : State), Accepted s 0x0E02 h w ∧ sysSetBad s w = none) ∧
    (∃ (h : CmdHdr) (w : List Word) (s : State) (r : Reply), Accepted s 0x0E02 h w ∧ sysSetBad s w = some r) ∧
    (∃ (h : CmdHdr) (w : List Word) (s : State) (n : ℕ), Accepted s 0x0E03 h w ∧ n = fld w 0 3 0 ∧ fld w 0 31 4 = 0 ∧ n ≤ 8 ∧ (∀ i < 2 * n,
      fld w (1 + i) 31 18 = 0)) ∧
    (∃ (h : CmdHdr) (w : List Word) (s : State) (tb : ℕ), Solo s 0x0E04 h w ∧ instantAt w 0 = .ok tb ∧ isBoundary s s.line.baseCt tb = true ∧
      s.sys.acting = true) ∧
    (∃ (h : CmdHdr) (w : List Word) (s : State) (c : ℕ) (u : State), OwnDue s 0x0E04 h w c u ∧ u.sys.acting = true) ∧
    (∃ (h : CmdHdr) (w : List Word) (s : State) (c : ℕ) (u : State), OwnDue s 0x0E04 h w c u ∧ u.sys.acting = false) ∧
    (∃ (h : CmdHdr) (w : List Word) (s : State) (tb : ℕ), Solo s 0x0E04 h w ∧ instantAt w 0 = .ok tb ∧ isBoundary s s.line.baseCt tb = true ∧
      s.sys.acting = false) ∧
    (∃ (h : CmdHdr) (w : List Word) (s : State), Accepted s 0x0E05 h w) :=
  ⟨⟨hG, [], r0, acc (by decide +kernel)⟩,
   ⟨hG, [0x3FC0000, 0, 0, 0, 0, 20], r0, acc (by decide +kernel), by decide +kernel⟩,
   ⟨hG, [0x3FC0000, 0, 0, 0, 0, 0], r0, _, acc (by decide +kernel), Option.eq_some_of_isSome (by decide +kernel)⟩,
   ⟨hP 514, [0], r0, _, acc (by decide +kernel), rfl, by decide +kernel⟩,
   ⟨hG, [0, 0, 0], sys fun t => { t with acting := true }, _, solo (by decide +kernel) (by decide +kernel), rfl, by decide +kernel⟩,
   ⟨hG, [0, 0, 0], ownRun (sys fun t => { t with acting := true }) 0x0E04 hG [0, 0, 0], 20000, _, due (by decide +kernel), rfl⟩,
   ⟨hG, [0, 0, 0], ownRun r0 0x0E04 hG [0, 0, 0], 20000, _, due (by decide +kernel), rfl⟩,
   ⟨hG, [0, 0, 0], r0, 0, solo (by decide +kernel) (by decide +kernel), by decide +kernel⟩,
   ⟨hP 514, [], r0, acc (by decide +kernel)⟩⟩

/-- LinkEventsTakePlace. -/
theorem wit_LinkEventsTakePlace :
    (∃ (u : ℕ) (blk : List Byte) (s : State), hyOn s u = true ∧ blk.length = 14 ∧ crc16 (blk.take 12) ≠ beAt blk 12 2) ∧
    (∃ (u : ℕ) (blk : List Byte) (s : State), GoodBlock s u 6 blk) ∧
    (∃ (u : ℕ) (s : State) (f : CtlFrame) (r : List CtlFrame), (hlink s u).outQ = f :: r ∧ hyOn s u = true ∧ s.sec.flipped = false ∧
      credit (hlink s u) ≠ 0 ∧ credit (hlink s u) < 2 ^ 15 ∧ (port s (512 + u)).txd.ctl.look (pMgmtClass (port s (512 + u))) [] = []) ∧
    (∃ (s : State), s.sec.flipped = true) ∧
    (∃ (u : ℕ) (s : State), (hlink s u).outQ ≠ [] ∧ credit (hlink s u) = 0) ∧
    (∃ (u : ℕ) (s : State) (i t e : ℕ) (v : State), hySends s u = true ∧ i = max ((nowNs s + 1023) / 1024) (tlink s u).wordDue ∧
      t = max (i * 1024 * 65536) (port s (512 + u)).txd.lineFree ∧ e = t / (1024 * 65536) ∧ v = at16 s t ∧ lrole v u ≠ 2 ∧ lrole v u ≠ 5 ∧
      ¬(i ≤ e - e % 1024) ∧ (tlink v u).rxSeq = none) ∧
    (∃ (u : ℕ) (s : State) (i t e : ℕ) (v : State), hySends s u = true ∧ i = max ((nowNs s + 1023) / 1024) (tlink s u).wordDue ∧
      t = max (i * 1024 * 65536) (port s (512 + u)).txd.lineFree ∧ e = t / (1024 * 65536) ∧ v = at16 s t ∧ lrole v u = 5 ∧ ¬(i ≤ e - e % 1024)) ∧
    (∃ (u : ℕ) (blk : List Byte) (t : ℕ) (s v : State), GoodBlock s u 1 blk ∧ v = at16 s t ∧ s.sys.parent ≠ u ∧ s.sys.standby ≠ u) ∧
    (∃ (u : ℕ) (blk : List Byte) (s : State) (k : TimeLink) (t1 : ℕ) (x : ℤ × ℤ), GoodBlock s u 2 blk ∧ k = tlink s u ∧
      (k.tx.find? fun x => x.1 == beAt blk 1 1).map (·.2) = some t1 ∧ k.rxNew = true ∧ follows k.echoSeq (beAt blk 1 1) = true ∧
      x = linkSample t1 (beAt blk 2 6) k.rxT3 k.rxT4 k.a ∧ isSource s u = true) ∧
    (∃ (u : ℕ) (blk : List Byte) (s : State), GoodBlock s u 3 blk ∧ isSource s u = true ∧ s.time.secKnown = false ∧
      (tlink s u).rxSeq ≠ some (beAt blk 1 1)) ∧
    (∃ (u : ℕ) (blk : List Byte) (s : State) (z : TrimRun), GoodBlock s u 4 blk ∧ s.trimRun = some z ∧ z.port = some u ∧ z.mark = none) ∧
    (∃ (u : ℕ) (blk : List Byte) (s : State), GoodBlock s u 8 blk ∧ beAt blk 3 3 % 2 ^ 18 ≠ s.sys.devno ∧ isSource s u = false) ∧
    (∃ (s u : State), backupPos s ≠ 0 ∧ s.sys.acting = false ∧ s.sys.parent < 8 ∧ clocksRun s = true ∧ s.sys.lostEp = true ∧
      u = atNs s (max (max s.sys.setAt ((hlink s s.sys.parent).wordAt.getD 0) + 1000000 * s.sys.masterTo) ((s.hlinks.filterMap (·.2.belowAt)).foldl max s.sys.setAt + 1000000 * s.sys.masterTo)) ∧ (s.hlinks.filterMap (·.2.belowAt)).foldl max s.sys.setAt + 1000000 * s.sys.masterTo ≤ nowNs u) :=
  ⟨⟨0, List.replicate 14 1, hyp r0 0, by decide +kernel⟩,
   ⟨0, cb [6], hyp r0 0, ⟨by decide +kernel, by decide +kernel, by decide +kernel, by decide +kernel, by decide +kernel⟩⟩,
   ⟨0, hln { outQ := [{ bytes := [1] }] }, { bytes := [1] }, [], by decide +kernel⟩,
   ⟨sec fun x => { x with flipped := true }, by decide +kernel⟩,
   ⟨0, hln { outQ := [{ bytes := [1] }], limit := 0 }, by decide +kernel⟩,
   ⟨0, hyp { tim fun t => { t with units := 2 ^ 41 } with sys := { r0.sys with parent := 0 } } 0, _, _, _, _, by decide +kernel, rfl, rfl, rfl, rfl,
     by decide +kernel⟩,
   ⟨0, furS, _, _, _, _, by decide +kernel, rfl, rfl, rfl, rfl, by decide +kernel⟩,
   ⟨0, cb [1], 0, hyp r0 0, _, ⟨by decide +kernel, by decide +kernel, by decide +kernel, by decide +kernel, by decide +kernel⟩, rfl,
     by decide +kernel⟩,
   ⟨0, cb [2], src0 { tx := [(0, 5)], rxNew := true }, _, 5, linkSample 5 (beAt (cb [2]) 2 6) 0 0 0, ⟨by decide +kernel, by decide +kernel,
     by decide +kernel, by decide +kernel, by decide +kernel⟩, rfl, by decide +kernel⟩,
   ⟨0, cb [3], src0 {}, ⟨by decide +kernel, by decide +kernel, by decide +kernel, by decide +kernel, by decide +kernel⟩, by decide +kernel⟩,
   ⟨0, cb [4], hyp { r0 with trimRun := some { port := some 0 } } 0, { port := some 0 }, ⟨by decide +kernel, by decide +kernel, by decide +kernel,
     by decide +kernel, by decide +kernel⟩, by decide +kernel⟩,
   ⟨0, cb [8, 0, 0, 0, 0, 1], hyp r0 0, ⟨by decide +kernel, by decide +kernel, by decide +kernel, by decide +kernel, by decide +kernel⟩,
     by decide +kernel⟩,
   ⟨sys fun t => { t with backups := [some 0], parent := 0, lostEp := true }, _, by decide +kernel, by decide +kernel, by decide +kernel,
     by decide +kernel, by decide +kernel, rfl, by decide +kernel⟩⟩

/-- TransactionsRun. -/
theorem wit_TransactionsRun :
    (∃ (h : CmdHdr) (w : List Word) (s : State), Accepted s 0x0E10 h w ∧ 1 ≤ prm w 0 ∧ prm w 0 ≤ 60000 ∧ s.txns.length < 16) ∧
    (∃ (h : CmdHdr) (w : List Word) (s : State), Accepted s 0x0E10 h w ∧ 1 ≤ prm w 0 ∧ prm w 0 ≤ 60000 ∧ 16 ≤ s.txns.length) ∧
    (∃ (h : CmdHdr) (w : List Word) (s : State) (t : Txn), Accepted s 0x0E12 h w ∧ fld w 0 31 8 = 0 ∧ findTxn s h (fld w 0 7 0) false = some t) ∧
    (∃ (h : CmdHdr) (w : List Word) (s : State), Accepted s 0x0E12 h w ∧ fld w 0 31 8 = 0 ∧ findTxn s h (fld w 0 7 0) false = none) ∧
    (∃ (h : CmdHdr) (w : List Word) (s : State) (t : Txn), Accepted s 0x0E13 h w ∧ fld w 0 31 8 = 0 ∧ findTxn s h (fld w 0 7 0) true = some t) ∧
    (∃ (id : ℕ) (s : State) (t : Txn), (s.txns.find? fun x => x.id == id) = some t ∧ t.commit = none) ∧
    (∃ (h : CmdHdr) (w : List Word) (s : State) (t : Txn) (c : ℕ), Accepted s 0x0E11 h w ∧ findTxn s h (fld w 0 7 0) false = some t ∧
      commitAt s w = .ok c ∧ barred t = none ∧ commitTest s c t.members = none ∧ s.twin.role ≠ .leader) ∧
    (∃ (h : CmdHdr) (w : List Word) (s : State) (t : Txn) (c : ℕ) (y : State × Bool), Accepted s 0x0E11 h w ∧
      findTxn s h (fld w 0 7 0) false = some t ∧ commitAt s w = .ok c ∧ barred t = none ∧ commitTest s c t.members = none ∧
      y = partnerDoes s (firstForwarded s t.members).isSome ∧ y.2 = true) ∧
    (∃ (h : CmdHdr) (w : List Word) (s : State) (t : Txn) (c n : ℕ), Accepted s 0x0E11 h w ∧ findTxn s h (fld w 0 7 0) false = some t ∧
      commitAt s w = .ok c ∧ barred t = none ∧ commitTest s c t.members = none ∧ firstForwarded s t.members = some n) ∧
    (∃ (h : CmdHdr) (w : List Word) (s : State) (t : Txn) (c n : ℕ), Accepted s 0x0E11 h w ∧ findTxn s h (fld w 0 7 0) false = some t ∧
      commitAt s w = .ok c ∧ barred t = some n) ∧
    (∃ (h : CmdHdr) (w : List Word) (s : State), Accepted s 0x0E11 h w ∧ findTxn s h (fld w 0 7 0) false = none) ∧
    (∃ (id : ℕ) (s : State) (t : Txn) (c : ℕ) (h : CmdHdr) (u : State) (y : State × Bool) (r : State × List Member),
      (s.txns.find? fun x => x.id == id) = some t ∧ t.commit = some (c, h) ∧ t.rollback = none ∧ coresUp s = true ∧ u = settleAxes (atNs s c) c ∧
      y = partnerDoes u (firstForwarded u t.members).isSome ∧ r = t.members.foldl (fun (a : State × List Member) m => ((applyMember a.1 c m).1,
      a.2 ++ [(applyMember a.1 c m).2])) (y.1, []) ∧ y.2 = true ∧ (r.2.all (·.applied)) = true ∧ id ≠ 0) ∧
    (∃ (id : ℕ) (s : State) (t : Txn) (c : ℕ) (h : CmdHdr) (u : State) (y : State × Bool) (r : State × List Member),
      (s.txns.find? fun x => x.id == id) = some t ∧ t.commit = some (c, h) ∧ t.rollback = none ∧ coresUp s = true ∧ u = settleAxes (atNs s c) c ∧
      y = partnerDoes u (firstForwarded u t.members).isSome ∧ r = t.members.foldl (fun (a : State × List Member) m => ((applyMember a.1 c m).1,
      a.2 ++ [(applyMember a.1 c m).2])) (y.1, []) ∧ (y.2 = false ∨ (r.2.all (·.applied)) = false) ∧
      ((firstForwarded u t.members).isSome = true ∨ (r.2.all (!·.applied)) = false) ∧ id ≠ 0) ∧
    (∃ (id : ℕ) (s : State) (t : Txn) (c : ℕ) (h : CmdHdr) (u : State) (r : State × List Member), (s.txns.find? fun x => x.id == id) = some t ∧
      t.commit = some (c, h) ∧ t.rollback = none ∧ coresUp s = true ∧ u = settleAxes (atNs s c) c ∧ firstForwarded u t.members = none ∧
      t.members ≠ [] ∧ r = t.members.foldl (fun (a : State × List Member) m => ((applyMember a.1 c m).1, a.2 ++ [(applyMember a.1 c m).2])) (u, []) ∧
      (r.2.all (·.applied)) = false ∧ (r.2.all (!·.applied)) = true ∧ id ≠ 0) ∧
    (∃ (s : State) (t : Txn) (c : ℕ) (h : CmdHdr) (u : State) (y : State × Bool) (m : Member) (l : List Member) (z : State × Member),
      (s.txns.find? fun x => x.id == 0) = some t ∧ t.commit = some (c, h) ∧ t.rollback = none ∧ coresUp s = true ∧ t.members = m :: l ∧
      u = settleAxes (atNs s c) c ∧ y = partnerDoes u (leads u m.op m.h) ∧ z = applyMember y.1 c m ∧ z.2.applied = true) ∧
    (∃ (h : CmdHdr) (w : List Word) (s : State) (op : ℕ) (f : TxnOp) (c : ℕ) (u : State) (a : Applied), OwnDue s op h w c u ∧ txnOpOf op = some f ∧
      f.apply h w c u = .ok a) ∧
    (∃ (h : CmdHdr) (w : List Word) (s : State) (op : ℕ) (f : TxnOp) (c : ℕ) (u : State) (r : Reply), OwnDue s op h w c u ∧ txnOpOf op = some f ∧
      f.apply h w c u = .error r) ∧
    (∃ (s : State) (t : Txn) (c : ℕ) (h : CmdHdr) (rb : ℕ) (m : Member) (l : List Member) (r : State × List Member),
      (s.txns.find? fun x => x.id == 0) = some t ∧ t.commit = some (c, h) ∧ t.rollback = some rb ∧ coresUp s = true ∧ t.members = m :: l ∧
      r = t.members.foldr (fun m (a : State × List Member) => ((undoMember a.1 rb m).1,
      (undoMember a.1 rb m).2 :: a.2)) (settleAxes (atNs s rb) (rb - 1), [])) ∧
    (∃ (id : ℕ) (s : State) (t : Txn) (c : ℕ) (h : CmdHdr) (rb : ℕ) (r : State × List Member), id ≠ 0 ∧ (s.txns.find? fun x => x.id == id) = some t ∧
      t.commit = some (c, h) ∧ t.rollback = some rb ∧ coresUp s = true ∧
      r = t.members.foldr (fun m (a : State × List Member) => ((undoMember a.1 rb m).1,
      (undoMember a.1 rb m).2 :: a.2)) (settleAxes (atNs s rb) (rb - 1), [])) :=
  ⟨⟨hG, [1], r0, acc (by decide +kernel), by decide +kernel⟩,
   ⟨hG, [1], { r0 with txns := List.replicate 16 tA }, acc (by decide +kernel), by decide +kernel⟩,
   ⟨hG, [1], tx1 tA, tA, acc (by decide +kernel), by decide +kernel⟩,
   ⟨hG, [1], r0, acc (by decide +kernel), by decide +kernel⟩,
   ⟨hG, [1], tx1 tA, tA, acc (by decide +kernel), by decide +kernel⟩,
   ⟨1, tx1 tA, tA, by decide +kernel⟩,
   ⟨hG, [1, 0, 0, 0, 0, 0], tx1 { tA with members := [mA] }, { tA with members := [mA] }, 20000, acc (by decide +kernel), by decide +kernel⟩,
   ⟨hG, [1, 0, 0, 0, 0, 0], tx1 { tA with members := [mA] }, { tA with members := [mA] }, 20000, _, acc (by decide +kernel), by decide +kernel,
     by decide +kernel, by decide +kernel, by decide +kernel, rfl, by decide +kernel⟩,
   ⟨hG, [1, 0, 0, 0, 0, 0], ledS (tQ 1 none), tQ 1 none, 20000, 1, acc (by decide +kernel), by decide +kernel⟩,
   ⟨hG, [1, 0, 0, 0, 0, 0], tx1 { tA with failedAt := some 1 }, { tA with failedAt := some 1 }, 20000, 1, acc (by decide +kernel), by decide +kernel⟩,
   ⟨hG, [1, 0, 0, 0, 0, 0], r0, acc (by decide +kernel), by decide +kernel⟩,
   ⟨1, tx1 { tA with commit := some (9, hG) }, { tA with commit := some (9, hG) }, 9, hG, _, _, _, by decide +kernel, by decide +kernel,
     by decide +kernel, by decide +kernel, rfl, rfl, rfl, by decide +kernel⟩,
   ⟨1, { flw [(0, { w0 := 4 })] with txns := [tF] }, tF, 9, hG, _, _, _, by decide +kernel, by decide +kernel, by decide +kernel, by decide +kernel,
     rfl, rfl, rfl, by decide +kernel⟩,
   ⟨1, tx1 { tA with commit := some (9, hG), members := [{ mA with lost := true }] },
     { tA with commit := some (9, hG), members := [{ mA with lost := true }] }, 9, hG, _, _, by decide +kernel, by decide +kernel, by decide +kernel,
     by decide +kernel, rfl, by decide +kernel, by decide +kernel, rfl, by decide +kernel⟩,
   ⟨ledS (tQ 0 (some 9)), tQ 0 (some 9), 9, hG, _, _, mQ 0, [], _, by decide +kernel, by decide +kernel, by decide +kernel, by decide +kernel,
     by decide +kernel, rfl, rfl, rfl, by decide +kernel⟩,
   ⟨hD 0, [1, 0], ownRun (flw [(0, { w0 := 4 })]) 0x0807 (hD 0) [1, 0], 0x0807, _, 20000, _, _, due (by decide +kernel), rfl, rfl⟩,
   ⟨hG, [0, 0, 0], ownRun r0 0x0A05 hG [0, 0, 0], 0x0A05, _, 20000, _, _, due (by decide +kernel), rfl, rfl⟩,
   ⟨tx1 { tA with id := 0, commit := some (9, hG), members := [mA], rollback := some 8 },
     { tA with id := 0, commit := some (9, hG), members := [mA], rollback := some 8 }, 9, hG, 8, mA, [], _, by decide +kernel, by decide +kernel,
     by decide +kernel, by decide +kernel, by decide +kernel, rfl⟩,
   ⟨1, tx1 { tA with commit := some (9, hG), members := [mA], rollback := some 8 },
     { tA with commit := some (9, hG), members := [mA], rollback := some 8 }, 9, hG, 8, _, by decide +kernel, by decide +kernel, by decide +kernel,
     by decide +kernel, by decide +kernel, rfl⟩⟩

/-- MembersArePrepared. -/
theorem wit_MembersArePrepared :
    (∃ (op : ℕ) (f : TxnOp) (h : CmdHdr) (w : List Word) (s : State) (t : Txn), txnOpOf op = some f ∧ Accepted s op h w ∧ h.txn = true ∧
      findTxn s h h.txid false = some t) :=
  ⟨0x0505, _, hT, [0, 0, 0, 0, 0], tx1 tA, tA, rfl, acc (by decide +kernel), by decide +kernel⟩

/-- FaultCommandsTakeEffect. -/
theorem wit_FaultCommandsTakeEffect :
    (∃ (h : CmdHdr) (w : List Word) (s : State) (p : ℕ), Accepted s 0x0B01 h w ∧ h.scope = 3 ∧ p = h.port) ∧
    (∃ (h : CmdHdr) (w : List Word) (s : State) (l : FaultLoc), Accepted s 0x0B02 h w ∧ l = targetLoc h ∧ prm w 0 < nSources l ∧ ((fld w 1 15 0 ≠ 0 →
      fld w 1 31 16 ≠ 0)) ∧ prm w 2 < 8 ∧ reactionOk l (prm w 0) (prm w 2) = true) ∧
    (∃ (h : CmdHdr) (w : List Word) (s : State), Accepted s 0x0B02 h w ∧ prm w 0 < nSources (targetLoc h) ∧ fld w 1 15 0 = 0 ∧
      reactionOk (targetLoc h) (prm w 0) (prm w 2) = false) ∧
    (∃ (h : CmdHdr) (w : List Word) (s : State), Accepted s 0x0B03 h w ∧ prm w 0 < 2 ^ nSources (targetLoc h)) ∧
    (∃ (h : CmdHdr) (w : List Word) (s : State), Accepted s 0x0B04 h w ∧ 1 ≤ prm w 0 ∧ prm w 0 ≤ 1000 ∧ prm w 1 = 0) ∧
    (∃ (h : CmdHdr) (w : List Word) (s : State), Accepted s 0x0B04 h w ∧ 1 ≤ prm w 0 ∧ prm w 0 ≤ 1000 ∧ prm w 1 = 1) ∧
    (∃ (h : CmdHdr) (w : List Word) (s : State), Accepted s 0x0B05 h w ∧ fld w 0 31 8 = 0 ∧ lsoBarred s = false) ∧
    (∃ (h : CmdHdr) (w : List Word) (s : State), Accepted s 0x0B05 h w ∧ fld w 0 31 8 = 0 ∧ lsoBarred s = true) ∧
    (∃ (loc : FaultLoc) (v : Word) (s : State), locPresent s loc = true ∧ Reached s (statusAddr loc) ∧ accHeld s (.w1c loc v) = false) ∧
    (∃ (s : State), Reached s 0x30100 ∧ s.safety.asserted = true ∧ faultnCase s = false ∧ s.safety.pulseEnd = none) ∧
    (∃ (s : State), Reached s 0x30100 ∧ faultnCase s = true) ∧
    (∃ (v : BitVec 8) (s : State), Reached s 0x30104 ∧ (v = 0 ∨ lsoBarred s = false)) ∧
    (∃ (v : BitVec 8) (s : State), Reached s 0x30104 ∧ v ≠ 0 ∧ lsoBarred s = true) :=
  ⟨⟨hP 0, [], r0, _, acc (by decide +kernel), by decide +kernel, rfl⟩,
   ⟨hG, [8, 0, 0], r0, _, acc (by decide +kernel), rfl, by decide +kernel⟩,
   ⟨hG, [8, 0, 7], r0, acc (by decide +kernel), by decide +kernel⟩,
   ⟨hG, [1], r0, acc (by decide +kernel), by decide +kernel⟩,
   ⟨hG, [1, 0], r0, acc (by decide +kernel), by decide +kernel⟩,
   ⟨hG, [1, 1], r0, acc (by decide +kernel), by decide +kernel⟩,
   ⟨hG, [0], r0, acc (by decide +kernel), by decide +kernel⟩,
   ⟨hG, [0], saf fun t => { t with safeLatch := true }, acc (by decide +kernel), by decide +kernel⟩,
   ⟨.port 0, 0, r0, by decide +kernel, ⟨by decide +kernel, by decide +kernel⟩, by decide +kernel⟩,
   ⟨r0, ⟨by decide +kernel, by decide +kernel⟩, by decide +kernel⟩,
   ⟨saf fun t => { t with clockSafe := true }, ⟨by decide +kernel, by decide +kernel⟩, by decide +kernel⟩,
   ⟨0, r0, ⟨by decide +kernel, by decide +kernel⟩, by decide +kernel⟩,
   ⟨1, saf fun t => { t with safeLatch := true }, ⟨by decide +kernel, by decide +kernel⟩, by decide +kernel⟩⟩

/-- FaultEventsTakePlace. -/
theorem wit_FaultEventsTakePlace :
    (∃ (loc : FaultLoc) (src : ℕ) (s : State), locPresent s loc = true ∧ src < nSources loc ∧ neverFires s loc src = false ∧ isCond loc src = false ∧
      isBlock loc src = false ∧ ((∀ p, loc = .port p → s.rails.look p 0 = 0))) ∧
    (∃ (loc : FaultLoc) (src : ℕ) (s : State), locPresent s loc = true ∧ src < nSources loc ∧ neverFires s loc src = false ∧ isCond loc src = false ∧
      isBlock loc src = true ∧ (s.faultPend.any fun e => e.1 == loc && e.2 == src) = true ∧ ((∀ p, loc = .port p → s.rails.look p 0 = 0))) ∧
    (∃ (s : State), (s.power.gate.isSome = true ∨ s.power.heldAcc = [])) ∧
    (∃ (s : State) (loc : FaultLoc) (src : ℕ), (faultSrc s loc src).slow = some (slowCycle s)) ∧
    (∃ (s : State) (loc : FaultLoc) (src : ℕ) (v : State), (faultSrc s loc src).slow ≠ some (slowCycle s) ∧
      v = setSrc s loc src (fun f => { f with slow := some (slowCycle s) }) ∧ masked v loc src = true) ∧
    (∃ (s : State) (loc : FaultLoc) (src : ℕ) (v u : State), (faultSrc s loc src).slow ≠ some (slowCycle s) ∧
      v = setSrc s loc src (fun f => { f with slow := some (slowCycle s) }) ∧ masked v loc src = false ∧ (faultSrc v loc src).sticky = true ∧
      (faultSrc v loc src).n = 0 ∧ u = markFresh (setSrc v loc src fun f => { f with sticky := true, u := true }) (statusAddr loc) (2 ^ src) ∧
      curLevel u loc src < curLevel v loc src + 1) ∧
    (∃ (loc : FaultLoc) (src : ℕ) (s : State) (t : ℕ), (faultSrc s loc src).winEnd = some t) ∧
    (∃ (p : ℕ) (s : State), quarantined s p = true ∧ (port s p).link.squelched = false ∧ (courseOf s p).state = 3 ∧
      (17 ≤ (courseOf s p).safeCycles ∨ (courseOf s p).safeCycles = 16 ∧ lastSafeLaunch s p ≤ nowNs s)) ∧
    (∃ (p : ℕ) (s : State), quarantined s p = true ∧ (port s p).link.squelched = false ∧ (courseOf s p).state = 0) ∧
    (∃ (r : ℕ) (s : State), dueFor s r = true ∧ regionBusy s r = false ∧ ((portsOf r).all fun p => (courseOf s p).state == 0) = true) ∧
    (∃ (s : State) (t : ℕ), s.safety.pulseEnd = some t ∧ s.safety.relPend = true ∧ faultnCase (atNs s t) = false) ∧
    (∃ (k : ResetKind) (s : State) (t : ℕ), (s.power.masks.find? fun m => m.1 == k) = some (k, some t) ∧ (s.faults.all fun e => !e.2.cond) = true) ∧
    (∃ (p pair : ℕ) (s : State), bit (s.rails.look p 0) pair = true ∧ s.rails.look p 0 ≠ 2 ^ pair) :=
  ⟨⟨.die 0, 6, r0, by decide +kernel, by decide +kernel, by decide +kernel, by decide +kernel, by decide +kernel, nofun⟩,
   ⟨.die 0, 0, { r0 with faultPend := [(.die 0, 0)] }, by decide +kernel, by decide +kernel, by decide +kernel, by decide +kernel, by decide +kernel,
     by decide +kernel, nofun⟩,
   ⟨r0, by decide +kernel⟩,
   ⟨sft (.die 0) 8 { slow := some 0 }, .die 0, 8, by decide +kernel⟩,
   ⟨pow (fun p => { p with masks := [(.die 0, none)] }), .die 0, 8, _, by decide +kernel, rfl, by decide +kernel⟩,
   ⟨sft (.die 0) 6 { sticky := true, u := true }, .die 0, 6, _, _, by decide +kernel, rfl, by decide +kernel, by decide +kernel, by decide +kernel,
     rfl, by decide +kernel⟩,
   ⟨.die 0, 6, sft (.die 0) 6 { winEnd := some 9 }, 9, by decide +kernel⟩,
   ⟨0, { (pt 0 fun _ => { cport with course := { state := 3, safeCycles := 17 } }) with faults := (sft (.port 0) 0 { sticky := true, took := 2 }).faults }, by decide +kernel⟩,
   ⟨0, { r0 with faults := (sft (.port 0) 0 { sticky := true, took := 2 }).faults }, by decide +kernel⟩,
   ⟨0, saf fun t => { t with regionDue := [0] }, by decide +kernel⟩,
   ⟨saf fun t => { t with pulseEnd := some 9, relPend := true }, 9, by decide +kernel⟩,
   ⟨.die 0, pow (fun p => { p with masks := [(.die 0, some 9)] }), 9, by decide +kernel⟩,
   ⟨0, 0, { r0 with rails := [(0, 3)] }, by decide +kernel⟩⟩

/-- SecurityCommandsTakeEffect. -/
theorem wit_SecurityCommandsTakeEffect :
    (∃ (h : CmdHdr) (w : List Word) (s : State), Accepted s 0x0C01 h w) ∧
    (∃ (h : CmdHdr) (w : List Word) (s : State), Accepted s 0x0C02 h w ∧ prm w 2 % 64 = 0 ∧ 256 ≤ prm w 2 ∧ prm w 2 ≤ 4194304 ∧ prm w 3 ≤ 1 ∧
      slotBarred s (prm w 3) = false) ∧
    (∃ (h : CmdHdr) (w : List Word) (s : State), Accepted s 0x0C02 h w ∧ prm w 2 % 64 = 0 ∧ 256 ≤ prm w 2 ∧ prm w 2 ≤ 4194304 ∧ prm w 3 ≤ 1 ∧
      slotBarred s (prm w 3) = true) ∧
    (∃ (h : CmdHdr) (w : List Word) (s : State), Accepted s 0x0C03 h w ∧ prm w 0 ≤ 1 ∧ slotBarred s (prm w 0) = false) ∧
    (∃ (h : CmdHdr) (w : List Word) (s : State), Accepted s 0x0C03 h w ∧ prm w 0 ≤ 1 ∧ slotBarred s (prm w 0) = true) ∧
    (∃ (h : CmdHdr) (w : List Word) (s : State) (tb : ℕ) (b : ℕ × ℕ), Accepted s 0x0C04 h w ∧ prm w 0 ≤ 1 ∧ instantAt w 1 = .ok tb ∧
      s.sec.bankLoaded = true ∧ s.sec.bankSlot = prm w 0 ∧ s.sec.actPending = none ∧ s.sec.trial = none ∧
      b = firstAt tb s.line.baseCt (nowNs s + 4000) ∧ b.1 ≤ nowNs s + 60000000000) ∧
    (∃ (h : CmdHdr) (w : List Word) (s : State) (tb : ℕ) (b : ℕ × ℕ), Accepted s 0x0C04 h w ∧ prm w 0 ≤ 1 ∧ instantAt w 1 = .ok tb ∧
      s.sec.bankLoaded = true ∧ s.sec.bankSlot = prm w 0 ∧ s.sec.actPending = none ∧ s.sec.trial = none ∧
      b = firstAt tb s.line.baseCt (nowNs s + 4000) ∧ nowNs s + 60000000000 < b.1) ∧
    (∃ (h : CmdHdr) (w : List Word) (s : State) (tb : ℕ), Accepted s 0x0C04 h w ∧ prm w 0 ≤ 1 ∧ instantAt w 1 = .ok tb ∧ s.sec.bankLoaded = false) ∧
    (∃ (h : CmdHdr) (w : List Word) (s : State), Accepted s 0x0C05 h w ∧ s.otp.idValid = true) ∧
    (∃ (h : CmdHdr) (w : List Word) (s : State), Accepted s 0x0C05 h w ∧ s.otp.idValid = false) ∧
    (∃ (h : CmdHdr) (w : List Word) (s : State), Accepted s 0x0C06 h w ∧ prm w 0 < 128 ∧ prm w 0 = s.otp.rollback) ∧
    (∃ (h : CmdHdr) (w : List Word) (s : State), Accepted s 0x0C06 h w ∧ prm w 0 < 128 ∧ prm w 0 < s.otp.rollback) ∧
    (∃ (h : CmdHdr) (w : List Word) (s : State), Accepted s 0x0C06 h w ∧ prm w 0 < 128 ∧ s.otp.rollback < prm w 0 ∧ prm w 0 ≤ leAt s.sec.image 12 1 ∧
      s.sec.actPending = none ∧ s.sec.trial = none) :=
  ⟨⟨hG, [], r0, acc (by decide +kernel)⟩,
   ⟨hG, [0, 0, 256, 1], r0, acc (by decide +kernel), by decide +kernel⟩,
   ⟨hG, [0, 0, 256, 0], r0, acc (by decide +kernel), by decide +kernel⟩,
   ⟨hG, [1], r0, acc (by decide +kernel), by decide +kernel⟩,
   ⟨hG, [0], r0, acc (by decide +kernel), by decide +kernel⟩,
   ⟨hG, [1, 0, 0, 0], sec fun c => { c with bankLoaded := true, bankSlot := 1 }, 0, _, acc (by decide +kernel), by decide +kernel, by decide +kernel,
     by decide +kernel, by decide +kernel, by decide +kernel, by decide +kernel, rfl, by decide +kernel⟩,
   ⟨hG, [1, 0, 100, 0], sec fun x => { x with bankLoaded := true, bankSlot := 1 }, _, _, acc (by decide +kernel), by decide +kernel, rfl,
     by decide +kernel, by decide +kernel, by decide +kernel, by decide +kernel, rfl, by decide +kernel⟩,
   ⟨hG, [1, 0, 0, 0], r0, 0, acc (by decide +kernel), by decide +kernel⟩,
   ⟨hG, [0, 0, 0, 0, 0, 0, 0, 0], otp fun c => { c with idValid := true }, acc (by decide +kernel), by decide +kernel⟩,
   ⟨hG, [0, 0, 0, 0, 0, 0, 0, 0], r0, acc (by decide +kernel), by decide +kernel⟩,
   ⟨hG, [0], r0, acc (by decide +kernel), by decide +kernel⟩,
   ⟨hG, [1], otp fun c => { c with rollback := 5 }, acc (by decide +kernel), by decide +kernel⟩,
   ⟨hG, [1], sec fun c => { c with image := List.replicate 13 5 }, acc (by decide +kernel), by decide +kernel⟩⟩

/-- BootAndActivationRun. -/
theorem wit_BootAndActivationRun :
    (∃ (s : State), s.sec.bootState = 0 ∧ clocksRun s = true ∧ s.power.held = none ∧ s.power.pinHeld = false ∧
      (s.power.ends.all fun e => !(coversPkg e.1)) = true) ∧
    (∃ (s : State), clocksRun s = true ∧ s.power.held = none ∧ s.power.pinHeld = false ∧ s.sec.bootState = 1) ∧
    (∃ (s : State), clocksRun s = true ∧ s.power.held = none ∧ s.power.pinHeld = false ∧ s.sec.bootState = 3) ∧
    (∃ (s u : State) (i : ℕ) (g : List Byte) (l : List (ℕ × Option (List Byte))), clocksRun s = true ∧ s.power.held = none ∧
      s.power.pinHeld = false ∧ s.sec.bootState = 4 ∧ s.sec.checking = (i, some g) :: l ∧ u = { s with sec := { s.sec with checking := [] } } ∧
      imageCheck u g = none) ∧
    (∃ (s : State), clocksRun s = true ∧ s.power.held = none ∧ s.power.pinHeld = false ∧ s.sec.bootState = 4 ∧
      s.sec.checking = [(0, none), (1, none)]) ∧
    (∃ (s : State), Reached s 0x8002C ∧ s.sec.bootState = 2) ∧
    (∃ (s : State), Reached s 0x8002C ∧ s.sec.bootState ≠ 2) ∧
    (∃ (s : State), coresRun s = true ∧ s.sec.ran = false) ∧
    (∃ (s : State) (i n a : ℕ), s.sec.staging = some (i, n, a) ∧ coresRun s = true ∧ fifoDead s = false ∧ s.pcie.up = true) ∧
    (∃ (s : State) (i : ℕ) (u : State), s.sec.verifying = some i ∧ coresRun s = true ∧ u = { s with sec := { s.sec with verifying := none } } ∧
      imageCheck u (slotOf u i).bytes = none) ∧
    (∃ (s : State) (i : ℕ) (u : State) (c : ℕ), s.sec.verifying = some i ∧ coresRun s = true ∧
      u = { s with sec := { s.sec with verifying := none } } ∧ imageCheck u (slotOf u i).bytes = some c) ∧
    (∃ (s : State) (i b k : ℕ), s.sec.actPending = some (i, b, k) ∧ coresRun s = true) ∧
    (∃ (s : State) (i b k : ℕ) (h : CmdHdr) (u : State), s.sec.actPending = some (i, b, k) ∧ s.sec.flipped = true ∧ s.sec.actReply = some h ∧
      u = { s with sec := { s.sec with flipped := false, actPending := none, actReply := none, trial := some b, oldSlot := s.sec.activeSlot, activeSlot := i, bankLoaded := false } }) ∧
    (∃ (s : State) (b : ℕ), s.sec.trial = some b ∧ coresRun s = true ∧ nowNs s ≤ b + 500000000) ∧
    (∃ (s : State) (b : ℕ), s.sec.trial = some b ∧ coresRun s = true) :=
  ⟨⟨sec fun c => { c with bootState := 0 }, by decide +kernel⟩,
   ⟨sec fun c => { c with bootState := 1 }, by decide +kernel⟩,
   ⟨sec fun c => { c with bootState := 3 }, by decide +kernel⟩,
   ⟨sgn0 (fun c => { c with bootState := 4, checking := [(0, some img)] }), _, 0, img, [], by decide +kernel, by decide +kernel, by decide +kernel,
     by decide +kernel, by decide +kernel, rfl, img_ok rfl (by decide +kernel)⟩,
   ⟨sec fun c => { c with bootState := 4, checking := [(0, none), (1, none)] }, by decide +kernel⟩,
   ⟨sec fun c => { c with bootState := 2 }, ⟨by decide +kernel, by decide +kernel⟩, by decide +kernel⟩,
   ⟨r0, ⟨by decide +kernel, by decide +kernel⟩, by decide +kernel⟩,
   ⟨sec fun c => { c with ran := false }, by decide +kernel⟩,
   ⟨sec (fun c => { c with staging := some (1, 256, 0) }), 1, 256, 0, by decide +kernel⟩,
   ⟨sgn0 (fun c => { c with verifying := some 1, slot1 := { bytes := img } }), 1, _, by decide +kernel, by decide +kernel, rfl,
     img_ok rfl (by decide +kernel)⟩,
   ⟨sec (fun c => { c with verifying := some 1 }), 1, _, _, by decide +kernel, by decide +kernel, rfl, Option.eq_some_of_isSome (by decide +kernel)⟩,
   ⟨sec (fun c => { c with actPending := some (1, 5, 0) }), 1, 5, 0, by decide +kernel⟩,
   ⟨sec (fun c => { c with actPending := some (1, 5, 0), flipped := true, actReply := some hG }), 1, 5, 0, hG, _, by decide +kernel,
     by decide +kernel, by decide +kernel, rfl⟩,
   ⟨sec (fun c => { c with trial := some 5 }), 5, by decide +kernel⟩,
   ⟨sec (fun c => { c with trial := some 5 }), 5, by decide +kernel⟩⟩

/-- ImagesThatPassAreSigned. -/
theorem wit_ImagesThatPassAreSigned :
    (∃ (s : State) (g : List Byte), imageCheck s g = none) :=
  ⟨sgn0 id, img, img_ok rfl (by decide +kernel)⟩

/-- ObservationSettingsTakeEffect. -/
theorem wit_ObservationSettingsTakeEffect :
    (∃ (h : CmdHdr) (w : List Word) (s : State), Accepted s 0x0D01 h w ∧ fld w 0 31 8 = 0 ∧ w64 w 1 % 2 ^ 20 = 0 ∧ prm w 3 ≤ 4096 ∧
      areaBad s (w64 w 1) (prm w 3) s.arch.base s.arch.size = false ∧ fld w 4 31 1 = 0) ∧
    (∃ (h : CmdHdr) (w : List Word) (s : State), Accepted s 0x0D02 h w) ∧
    (∃ (h : CmdHdr) (w : List Word) (s : State) (p : ℕ), Accepted s 0x0D03 h w ∧ p = prm w 0 ∧ (p = 0 ∨ (10 ≤ p ∧ p ≤ 60000)) ∧
      w64 w 1 % 2 ^ 20 = 0 ∧ 1 ≤ prm w 3 ∧ prm w 3 ≤ 4096 ∧ areaBad s (w64 w 1) (prm w 3) s.trace.base s.trace.size = false) ∧
    (∃ (h : CmdHdr) (w : List Word) (s : State), Accepted s 0x0D04 h w) :=
  ⟨⟨hG, [0, 0, 0, 0, 0], r0, acc (by decide +kernel), by decide +kernel⟩,
   ⟨hG, [], r0, acc (by decide +kernel)⟩,
   ⟨hG, [0, 0, 0, 1], r0, _, acc (by decide +kernel), rfl, by decide +kernel⟩,
   ⟨hG, [], r0, acc (by decide +kernel)⟩⟩

/-- ObservationEventsTakePlace. -/
theorem wit_ObservationEventsTakePlace :
    (∃ (d : ℕ) (s : State) (r : TraceRec) (q : List TraceRec), s.trace.queue.look d [] = r :: q ∧ traceReaches s d = true ∧ s.trace.size ≠ 0 ∧
      traceDead s = false) ∧
    (∃ (d : ℕ) (s : State) (r : TraceRec) (q : List TraceRec), s.trace.queue.look d [] = r :: q ∧ traceReaches s d = true ∧ s.trace.size = 0 ∧
      s.trace.bellOn = true ∧ traceDead s = false ∧ s.trace.bellQ.length < 256) ∧
    (∃ (d : ℕ) (s : State) (r : TraceRec) (q : List TraceRec), s.trace.queue.look d [] = r :: q ∧ traceReaches s d = true ∧ s.trace.size ≠ 0 ∧
      traceDead s = true) ∧
    (∃ (d : ℕ) (s : State), traceReaches s d = false) ∧
    (∃ (d : ℕ) (s : State) (n : ℕ), s.trace.pend.look d 0 = n ∧ n ≠ 0 ∧ (s.trace.queue.look d []).length < 512 ∧ traceDead s = false) ∧
    (∃ (s : State) (b : List Byte) (q : List (List Byte)), s.trace.bellQ = b :: q ∧ trcRuns s = true) ∧
    (∃ (s : State), trcRuns s = false) ∧
    (∃ (s : State), s.trace.bellPend ≠ 0 ∧ s.trace.bellQ.length < 256 ∧ s.trace.bellOn = true) ∧
    (∃ (s u : State), s.arch.period ≠ 0 ∧ clocksRun s = true ∧ dieRuns s 0 = true ∧ s.arch.busy = none ∧ u = atNs s (archNext s)) ∧
    (∃ (s : State), s.arch.period ≠ 0 ∧ clocksRun s = true ∧ dieRuns s 0 = true ∧ s.arch.busy.isSome = true) ∧
    (∃ (s : State) (k t : ℕ) (l : List (ℕ × Word)), s.arch.busy = some (k, t, l) ∧ clocksRun s = true ∧ dieRuns s 0 = true ∧
      (ddrChan s 0).trained = true) ∧
    (∃ (i : TapInstr) (s : State), s.pins.rstn = false ∧ (i = .bypass ∨ i = .clamp ∨ i = .highz)) ∧
    (∃ (i : TapInstr) (s : State), s.pins.rstn = false ∧ (i = .samplePreload ∨ i = .extest)) ∧
    (∃ (s : State), s.pins.rstn = false) ∧
    (∃ (s : State), s.tap.reset = false ∧ s.tap.inst = .extest) ∧
    (∃ (s : State), (s.tap.reset = true ∨ s.tap.inst = .samplePreload ∨ s.tap.inst = .bypass)) ∧
    (∃ (s : State), s.pins.rstn = true) :=
  ⟨⟨0, trc fun t => { t with queue := [(0, [rc0])], size := 1 }, rc0, [], by decide +kernel⟩,
   ⟨0, trc fun t => { t with queue := [(0, [rc0])], bellOn := true }, rc0, [], by decide +kernel⟩,
   ⟨0, { (trc fun t => { t with queue := [(0, [rc0])], size := 1 }) with power := { r0.power with die := [(0, 1)] } }, rc0, [], by decide +kernel⟩,
   ⟨1, clk fun c => { c with state := .off }, by decide +kernel⟩,
   ⟨0, trc fun t => { t with pend := [(0, 1)], size := 1 }, 1, by decide +kernel⟩,
   ⟨trc fun t => { t with bellQ := [[1]], bellOn := true }, [1], [], by decide +kernel⟩,
   ⟨r0, by decide +kernel⟩,
   ⟨trc fun t => { t with bellPend := 1, bellOn := true }, by decide +kernel⟩,
   ⟨arc fun a => { a with period := 10 }, _, by decide +kernel, by decide +kernel, by decide +kernel, by decide +kernel, rfl⟩,
   ⟨arc fun a => { a with period := 10, busy := some (0, 0, []) }, by decide +kernel⟩,
   ⟨arc fun a => { a with period := 10, busy := some (0, 0, []) }, 0, 0, [], by decide +kernel⟩,
   ⟨.bypass, { r0 with pins := { r0.pins with rstn := false } }, by decide +kernel⟩,
   ⟨.extest, { r0 with pins := { r0.pins with rstn := false } }, by decide +kernel⟩,
   ⟨{ r0 with pins := { r0.pins with rstn := false } }, by decide +kernel⟩,
   ⟨{ r0 with tap := { inst := .extest, reset := false } }, by decide +kernel⟩,
   ⟨r0, by decide +kernel⟩,
   ⟨r0, by decide +kernel⟩⟩

/-- HostFillsAndDrainsTheFifos. -/
theorem wit_HostFillsAndDrainsTheFifos :
    (∃ (o : ℕ) (l : List Word) (s : State) (g : Fifo), s.pcie.up = true ∧ dieRuns s 0 = true ∧ ctrlRuns s = true ∧ s.sec.bootState = 5 ∧
      s.fifo.mode = false ∧ o < 0x40000 ∧ l.length ≤ 65536 - s.fifo.used ∧ o = 4 * s.fifo.front ∧ fillWords l s.fifo = (g, none)) ∧
    (∃ (o : ℕ) (l : List Word) (s : State) (g : Fifo) (why : ℕ), s.pcie.up = true ∧ dieRuns s 0 = true ∧ ctrlRuns s = true ∧ s.sec.bootState = 5 ∧
      s.fifo.mode = false ∧ o < 0x40000 ∧ l.length ≤ 65536 - s.fifo.used ∧ o = 4 * s.fifo.front ∧ fillWords l s.fifo = (g, some why)) ∧
    (∃ (o : ℕ) (s : State), s.pcie.up = true ∧ dieRuns s 0 = true ∧ ctrlRuns s = true ∧ s.sec.bootState = 5 ∧ s.fifo.mode = false ∧ o < 0x40000) ∧
    (∃ (o : ℕ) (l : List Word) (s : State), s.pcie.up = true ∧ dieRuns s 0 = true ∧ ctrlRuns s = true ∧ s.sec.bootState = 5 ∧ s.fifo.mode = false ∧
      o < 0x40000 ∧ 65536 - s.fifo.used < l.length) ∧
    (∃ (o : ℕ) (l : List Word) (b : Bool) (s : State), s.pcie.up = true ∧ dieRuns s 0 = true ∧ ctrlRuns s = true ∧ s.sec.bootState = 5 ∧
      s.fifo.mode = false ∧ o < 0x40000 ∧ l.length ≤ 65536 - s.fifo.used ∧ (b = false ∨ o ≠ 4 * s.fifo.front)) ∧
    (∃ (o : ℕ) (l : List (Option Byte)) (s : State) (g : Fifo) (last : ℕ), s.pcie.up = true ∧ dieRuns s 0 = true ∧ ctrlRuns s = true ∧
      s.sec.bootState = 5 ∧ s.fifo.mode = true ∧ o < 0x40000 ∧ l ≠ [] ∧ last = (o + l.length - 1) / 4 ∧
      (o / 4 + 65536 - s.fifo.front) % 65536 < 65536 - s.fifo.used ∧ (last + 65536 - s.fifo.front) % 65536 < 65536 - s.fifo.used ∧
      last + 1 - o / 4 ≤ 65536 - s.fifo.used ∧ complete 65536 (putBytes s.fifo o l) = (g, none)) ∧
    (∃ (o : ℕ) (l : List (Option Byte)) (s : State) (g p : Fifo) (last : ℕ), s.pcie.up = true ∧ dieRuns s 0 = true ∧ ctrlRuns s = true ∧
      s.sec.bootState = 5 ∧ s.fifo.mode = true ∧ o < 0x40000 ∧ l ≠ [] ∧ last = (o + l.length - 1) / 4 ∧
      (o / 4 + 65536 - s.fifo.front) % 65536 < 65536 - s.fifo.used ∧ (last + 65536 - s.fifo.front) % 65536 < 65536 - s.fifo.used ∧
      last + 1 - o / 4 ≤ 65536 - s.fifo.used ∧ p = putBytes s.fifo o l ∧ complete 65536 { p with ends := p.ends.put (last % 65536) true false } = (g,
      none)) ∧
    (∃ (s : State), Reached s 0x70000 ∧ inFilling s.fifo = true) ∧
    (∃ (s : State), Reached s 0x70000 ∧ inFilling s.fifo = false) ∧
    (∃ (b : Bool) (s : State), Reached s 0x70000 ∧ s.fifo.mode = b) ∧
    (∃ (b : Bool) (s : State), Reached s 0x70000 ∧ s.fifo.mode ≠ b ∧ inFilling s.fifo = false) ∧
    (∃ (b : Bool) (s : State), Reached s 0x70000 ∧ s.fifo.mode ≠ b ∧ inFilling s.fifo = true) ∧
    (∃ (v : BitVec 16) (s : State), Reached s 0x70024 ∧ (v.toNat + 65536 - s.fifo.rplRd) % 65536 ≤ (s.fifo.rplWr + 65536 - s.fifo.rplRd) % 65536) ∧
    (∃ (v : BitVec 16) (s : State), Reached s 0x70024 ∧ (s.fifo.rplWr + 65536 - s.fifo.rplRd) % 65536 < (v.toNat + 65536 - s.fifo.rplRd) % 65536) ∧
    (∃ (v : BitVec 14) (s : State), Reached s 0x7002C ∧ (v.toNat + 16384 - s.fifo.evtRd) % 16384 ≤ s.fifo.evtUsed) ∧
    (∃ (v : BitVec 14) (s : State), Reached s 0x7002C ∧ s.fifo.evtUsed < (v.toNat + 16384 - s.fifo.evtRd) % 16384) :=
  ⟨⟨0, (pkt 0x0101 0).take 1, r0, (fillWords ((pkt 0x0101 0).take 1) r0.fifo).1, by decide +kernel⟩,
   ⟨0, [0], r0, (fillWords [0] r0.fifo).1, 3, by decide +kernel⟩,
   ⟨0, r0, by decide +kernel⟩,
   ⟨0, [1], ff fun f => { f with used := 65536 }, by decide +kernel⟩,
   ⟨0, [1], false, r0, by decide +kernel⟩,
   ⟨0, [some 1], ff (fun f => { f with mode := true }), (complete 65536 (putBytes (ff fun f => { f with mode := true }).fifo 0 [some 1])).1, _,
     by decide +kernel, by decide +kernel, by decide +kernel, by decide +kernel, by decide +kernel, by decide +kernel, by decide +kernel, rfl,
     by decide +kernel⟩,
   ⟨0, [some 1], ff (fun f => { f with mode := true }),
     (complete 65536 (let p := putBytes (ff fun f => { f with mode := true }).fifo 0 [some 1]; { p with ends := p.ends.put 0 true false })).1, _, _,
     by decide +kernel, by decide +kernel, by decide +kernel, by decide +kernel, by decide +kernel, by decide +kernel, by decide +kernel, rfl,
     by decide +kernel, by decide +kernel, by decide +kernel, rfl, by decide +kernel⟩,
   ⟨ff fun f => { f with front := 1, used := 1 }, ⟨by decide +kernel, by decide +kernel⟩, by decide +kernel⟩,
   ⟨r0, ⟨by decide +kernel, by decide +kernel⟩, by decide +kernel⟩,
   ⟨false, r0, ⟨by decide +kernel, by decide +kernel⟩, by decide +kernel⟩,
   ⟨true, r0, ⟨by decide +kernel, by decide +kernel⟩, by decide +kernel⟩,
   ⟨true, ff fun f => { f with front := 1, used := 1 }, ⟨by decide +kernel, by decide +kernel⟩, by decide +kernel⟩,
   ⟨0, r0, ⟨by decide +kernel, by decide +kernel⟩, by decide +kernel⟩,
   ⟨1, r0, ⟨by decide +kernel, by decide +kernel⟩, by decide +kernel⟩,
   ⟨0, r0, ⟨by decide +kernel, by decide +kernel⟩, by decide +kernel⟩,
   ⟨1, r0, ⟨by decide +kernel, by decide +kernel⟩, by decide +kernel⟩⟩

/-- CommandsAreTakenAndRun. -/
theorem wit_CommandsAreTakenAndRun :
    (∃ (s v : State) (x : State × List Word) (h : CmdHdr) (u : State), coresFree s = true ∧ pathTurn s = some 0 ∧ v = { s with served := 0 } ∧
      x = takePacket v ∧ h = pktHdr .pcie x.2 ∧ packetTests h x.2 = none ∧ h.devno = s.sys.devno ∧
      runOpcode (pktOp x.2) h (pktParams x.2) x.1 = some (.next u)) ∧
    (∃ (s v : State) (x : State × List Word) (h : CmdHdr), coresFree s = true ∧ pathTurn s = some 0 ∧ v = { s with served := 0 } ∧ x = takePacket v ∧
      h = pktHdr .pcie x.2 ∧ packetTests h x.2 = none ∧ h.devno = s.sys.devno ∧ runOpcode (pktOp x.2) h (pktParams x.2) x.1 = none) ∧
    (∃ (s v : State) (x : State × List Word) (h : CmdHdr) (r : Reply), coresFree s = true ∧ pathTurn s = some 0 ∧ v = { s with served := 0 } ∧
      x = takePacket v ∧ h = pktHdr .pcie x.2 ∧ packetTests h x.2 = some r) ∧
    (∃ (s v : State) (x : State × List Word) (h : CmdHdr), coresFree s = true ∧ pathTurn s = some 0 ∧ v = { s with served := 0 } ∧ x = takePacket v ∧
      h = pktHdr .pcie x.2 ∧ packetTests h x.2 = none ∧ h.devno ≠ s.sys.devno) ∧
    (∃ (s v : State) (x : State × List Word), coresFree s = true ∧ pathTurn s = some 0 ∧ v = { s with served := 0 } ∧ x = takePacket v) ∧
    (∃ (s : State) (f : MgmtFrame) (q : List MgmtFrame), coresFree s = true ∧ pathTurn s = some 1 ∧ s.mgmtQ = f :: q) ∧
    (∃ (s : State) (f : HyithFrame) (q : List HyithFrame), coresFree s = true ∧ pathTurn s = some 2 ∧ s.hyithQ = f :: q ∧ isReply f.bytes = false) ∧
    (∃ (s : State) (i : ℕ) (p : PathSel), pathTurn s = some i ∧ p ≠ pathOf i) ∧
    (∃ (s : State), pathTurn s = none) ∧
    (∃ (s : State), coresFree s = false) :=
  ⟨⟨fpk (pkt 0x0101 0), _, _, _, _, by decide +kernel, by decide +kernel, rfl, rfl, rfl, by decide +kernel, by decide +kernel, rfl⟩,
   ⟨fpk (pkt 0x0FFF 0), _, _, _, by decide +kernel, by decide +kernel, rfl, rfl, rfl, by decide +kernel⟩,
   ⟨fpk ((pkt 0x0101 0).take 2 ++ [0x50000, 0, 1]), _, _, _, _, by decide +kernel, by decide +kernel, rfl, rfl, rfl,
     Option.eq_some_of_isSome (by decide +kernel)⟩,
   ⟨fpk (pkt 0x0101 1), _, _, _, by decide +kernel, by decide +kernel, rfl, rfl, rfl, by decide +kernel⟩,
   ⟨fpk (pkt 0x0101 0), _, _, by decide +kernel, by decide +kernel, rfl, rfl⟩,
   ⟨{ r0 with mgmtQ := [mgF] }, mgF, [], by decide +kernel⟩,
   ⟨{ r0 with hyithQ := [hyF] }, hyF, [], by decide +kernel⟩,
   ⟨{ r0 with mgmtQ := [mgF] }, 1, .pcie, by decide +kernel⟩,
   ⟨r0, by decide +kernel⟩,
   ⟨clk (fun c => { c with state := .off }), by decide +kernel⟩⟩

/-- RegistersAreWrittenAndRead. -/
theorem wit_RegistersAreWrittenAndRead :
    (∃ (a : ℕ) (v : Word) (s : State) (e : ℕ), a < 0x4000000 ∧ a % 4 = 0 ∧ Reached s a ∧ defined s (blkOf a) = true ∧ enableAddr a = some e ∧
      accHeld s (.write a v 15) = false) ∧
    (∃ (a : ℕ) (v : Word) (s : State), a < 0x4000000 ∧ a % 4 = 0 ∧ Reached s a ∧ defined s (blkOf a) = true ∧ enableAddr a = none ∧ 4 ≤ a ∧
      accHeld s (.write a v 15) = false ∧ enableAddr (a - 4) = some a) ∧
    (∃ (a : ℕ) (v : Word) (s : State), a < 0x4000000 ∧ a % 4 = 0 ∧ Reached s a ∧ defined s (blkOf a) = true ∧ accHeld s (.write a v 15) = false) ∧
    (∃ (a : ℕ) (v : Word) (be : BitVec 4) (s : State), a < 0x4000000 ∧ Reached s a ∧ defined s (blkOf (a - a % 4)) = true ∧ (a % 4 ≠ 0 ∨ be ≠ 15) ∧
      accHeld s (.write a v be) = false) ∧
    (∃ (a : ℕ) (v : Word) (be : BitVec 4) (s : State), a < 0x4000000 ∧ Reached s a ∧ defined s (blkOf (a - a % 4)) = false ∧
      accHeld s (.write a v be) = false) ∧
    (∃ (a p o : ℕ) (s : State), blkOf a = .port p o ∧ (o = 0x100 ∨ o = 0x180) ∧ Reached s a ∧ hasPort s p = true ∧ accHeld s (.readLo a) = false) ∧
    (∃ (a o : ℕ) (s : State), blkOf a = .pkg 5 o ∧ 0x100 ≤ o ∧ o < 0x140 ∧ o % 16 = 12 ∧ Reached s a) ∧
    (∃ (a : ℕ) (s : State), a < 0x4000000 ∧ busStop s (blkOf a) = none ∧ (inSlow (blkOf a) = true ∨ dieRuns s 0 = true) ∧
      defined s (blkOf (a - a % 4)) = true ∧ a % 4 ≠ 0 ∧ s.pcie.up = true ∧ accHeld s (.read 0 a 1) = false) ∧
    (∃ (a n : ℕ) (s : State), dieRuns s 0 = true ∧ ctrlRuns s = true ∧ s.sec.bootState = 5 ∧ inPage a n = false ∧ s.pcie.up = true) ∧
    (∃ (s : State), dieRuns s 0 = false ∧ s.pcie.up = true) ∧
    (∃ (s : State), s.pcie.up = false) ∧
    (∃ (a : ℕ) (v : Word) (be : BitVec 4) (s : State), accHeld s (.write a v be) = true) ∧
    (∃ (b a n : ℕ) (s : State), accHeld s (.read b a n) = true) ∧
    (∃ (m o : ℕ) (s : State), Reached s (chanBase m + o)) ∧
    (∃ (m : ℕ) (s : State), Reached s (chanBase m + 0x14)) ∧
    (∃ (m : ℕ) (s : State), Reached s (chanBase m + 0x20)) ∧
    (∃ (m : ℕ) (s : State), Reached s (chanBase m + 0x20)) ∧
    (∃ (d r o : ℕ) (s : State), Reached s (moverBase d + 0x2000 + 0x20 * r + o)) ∧
    (∃ (d r : ℕ) (s : State), Reached s (moverBase d + 0x2000 + 0x20 * r + 0x10)) :=
  ⟨⟨0x80018, 1, r0, _, by decide +kernel, by decide +kernel, ⟨by decide +kernel, by decide +kernel⟩, by decide +kernel,
    Option.eq_some_of_isSome (by decide +kernel), by decide +kernel⟩,
   ⟨0x8001C, 1, r0, by decide +kernel, by decide +kernel, ⟨by decide +kernel, by decide +kernel⟩, by decide +kernel⟩,
   ⟨0x80018, 1, r0, by decide +kernel, by decide +kernel, ⟨by decide +kernel, by decide +kernel⟩, by decide +kernel⟩,
   ⟨0x80019, 1, 15, r0, by decide +kernel, ⟨by decide +kernel, by decide +kernel⟩, by decide +kernel⟩,
   ⟨0x8FFF0, 1, 15, r0, by decide +kernel, ⟨by decide +kernel, by decide +kernel⟩, by decide +kernel⟩,
   ⟨portBase 0 + 0x100, 0, 0x100, r0, by decide +kernel, by decide +kernel, ⟨by decide +kernel, by decide +kernel⟩, by decide +kernel⟩,
   ⟨0x5010C, 0x10C, r0, by decide +kernel, by decide +kernel, by decide +kernel, by decide +kernel, ⟨by decide +kernel, by decide +kernel⟩⟩,
   ⟨0x80019, r0, by decide +kernel⟩,
   ⟨0xFFC, 2, r0, by decide +kernel⟩,
   ⟨pow fun p => { p with die := [(0, 2)] }, by decide +kernel⟩,
   ⟨{ r0 with pcie := { r0.pcie with up := false } }, by decide +kernel⟩,
   ⟨portBase 511, 1, 15, gateS, by decide +kernel⟩,
   ⟨0, portBase 511, 1, gateS, by decide +kernel⟩,
   ⟨63, 0x18, r0, ⟨by decide +kernel, by decide +kernel⟩⟩,
   ⟨63, r0, ⟨by decide +kernel, by decide +kernel⟩⟩,
   ⟨63, r0, ⟨by decide +kernel, by decide +kernel⟩⟩,
   ⟨63, r0, ⟨by decide +kernel, by decide +kernel⟩⟩,
   ⟨1, 3, 8, r0, ⟨by decide +kernel, by decide +kernel⟩⟩,
   ⟨1, 3, r0, ⟨by decide +kernel, by decide +kernel⟩⟩⟩

/-- MoverRegistersAreWritten. -/
theorem wit_MoverRegistersAreWritten :
    (∃ (m o : ℕ) (v : Word) (s : State), Reached s (chanBase m + o) ∧ o % 4 = 0 ∧ o ≤ 0x18 ∧ (o ≠ 0x14 ∨ bit v.toNat 0 = false) ∧
      (chan s m).handover = false ∧ (chan s m).state = 0) ∧
    (∃ (m o : ℕ) (v : Word) (s : State), Reached s (chanBase m + o) ∧ o % 4 = 0 ∧ o ≤ 0x18 ∧ (o ≠ 0x14 ∨ bit v.toNat 0 = false) ∧
      (chan s m).handover = false ∧ (chan s m).state ≠ 0 ∧ (chan s m).armed = false) ∧
    (∃ (m o : ℕ) (s : State), Reached s (chanBase m + o) ∧ o % 4 = 0 ∧ o ≤ 0x18 ∧ (chan s m).handover = false ∧ (chan s m).state ≠ 0 ∧
      (chan s m).armed = true) ∧
    (∃ (m : ℕ) (v : Word) (s u : State), Reached s (chanBase m + 0x14) ∧ (chan s m).handover = false ∧ (chan s m).state = 0 ∧
      u = modChan s m (fun c => { c with act := setWord c.act 0x14 v }) ∧ ringOn (mring u (dieOfMover m) (mRing (chan u m).act)) = true ∧
      (chan u m).act.count ≠ 0 ∧ startBad u (dieOfMover m) (chan u m).act = none) ∧
    (∃ (m : ℕ) (s : State), Reached s (chanBase m + 0x14) ∧ (chan s m).handover = false ∧ (chan s m).state ≠ 0 ∧ (chan s m).armed = false) ∧
    (∃ (m o : ℕ) (s : State), Reached s (chanBase m + o) ∧ (o % 4 ≠ 0 ∨ 0x18 < o) ∧ (chan s m).handover = false) ∧
    (∃ (m : ℕ) (v : Word) (s u : State), Reached s (chanBase m + 0x14) ∧ (chan s m).handover = false ∧ (chan s m).state = 0 ∧
      u = modChan s m (fun c => { c with act := setWord c.act 0x14 v }) ∧ ringOn (mring u (dieOfMover m) (mRing (chan u m).act)) = false) ∧
    (∃ (m : ℕ) (v : Word) (s u : State) (e : ℕ), Reached s (chanBase m + 0x14) ∧ (chan s m).handover = false ∧ (chan s m).state = 0 ∧
      u = modChan s m (fun c => { c with act := setWord c.act 0x14 v }) ∧ ringOn (mring u (dieOfMover m) (mRing (chan u m).act)) = true ∧
      startBad u (dieOfMover m) (chan u m).act = some e) ∧
    (∃ (m : ℕ) (s : State), Reached s (chanBase m + 0x14) ∧ (chan s m).handover = false ∧ (chan s m).state ≠ 0 ∧ (chan s m).armed = true) ∧
    (∃ (m : ℕ) (s : State), Reached s (chanBase m + 0x20) ∧ (chan s m).handover = false ∧ (chan s m).state = 1) ∧
    (∃ (m : ℕ) (s : State), Reached s (chanBase m + 0x20) ∧ (chan s m).handover = false ∧ (chan s m).state ≠ 1) ∧
    (∃ (m : ℕ) (s : State), Reached s (chanBase m + 0x20) ∧ (chan s m).handover = false ∧ (chan s m).state = 4) ∧
    (∃ (m : ℕ) (s : State), Reached s (chanBase m + 0x20) ∧ (chan s m).handover = false ∧ (chan s m).state ≠ 4) ∧
    (∃ (d r : ℕ) (s : State), Reached s (moverBase d + 0x2000 + 0x20 * r) ∧ r ≤ 3 ∧ ((∀ c, c < 32 →
      (chan s (32 * d + c)).state = 0 ∨ (chan s (32 * d + c)).state = 4 ∨ mRing (chan s (32 * d + c)).act ≠ r))) ∧
    (∃ (d r : ℕ) (s : State), Reached s (moverBase d + 0x2000 + 0x20 * r + 4) ∧ r ≤ 3 ∧ ((∀ c, c < 32 →
      (chan s (32 * d + c)).state = 0 ∨ (chan s (32 * d + c)).state = 4 ∨ mRing (chan s (32 * d + c)).act ≠ r))) ∧
    (∃ (d r c o : ℕ) (s : State), Reached s (moverBase d + 0x2000 + 0x20 * r + o) ∧ r ≤ 3 ∧ (o = 0 ∨ o = 4 ∨ o = 8) ∧ c < 32 ∧
      1 ≤ (chan s (32 * d + c)).state ∧ (chan s (32 * d + c)).state ≤ 3 ∧ mRing (chan s (32 * d + c)).act = r ∧ ((∀ k, k < c →
      (chan s (32 * d + k)).state = 0 ∨ (chan s (32 * d + k)).state = 4 ∨ mRing (chan s (32 * d + k)).act ≠ r))) ∧
    (∃ (d r o : ℕ) (s : State), Reached s (moverBase d + 0x2000 + 0x20 * r + o) ∧ (3 < r ∨ (o ≠ 0 ∧ o ≠ 4 ∧ o ≠ 8))) ∧
    (∃ (d r : ℕ) (s : State), Reached s (moverBase d + 0x2000 + 0x20 * r + 8) ∧ r ≤ 3 ∧ ((∀ c, c < 32 →
      (chan s (32 * d + c)).state = 0 ∨ (chan s (32 * d + c)).state = 4 ∨ mRing (chan s (32 * d + c)).act ≠ r))) ∧
    (∃ (d r : ℕ) (v : BitVec 17) (s : State), Reached s (moverBase d + 0x2000 + 0x20 * r + 0x10) ∧ r ≤ 3 ∧
      ((mring s d r).wr + 131072 - v.toNat) % 131072 ≤ ringRoom (mring s d r)) ∧
    (∃ (d r : ℕ) (v : BitVec 17) (s : State), Reached s (moverBase d + 0x2000 + 0x20 * r + 0x10) ∧
      (3 < r ∨ ringRoom (mring s d r) < ((mring s d r).wr + 131072 - v.toNat) % 131072)) :=
  ⟨⟨0, 0, 5, r0, ⟨by decide +kernel, by decide +kernel⟩, by decide +kernel⟩,
   ⟨0, 0, 5, chn 0 { state := 1 }, ⟨by decide +kernel, by decide +kernel⟩, by decide +kernel⟩,
   ⟨0, 0, chn 0 { state := 1, armed := true }, ⟨by decide +kernel, by decide +kernel⟩, by decide +kernel⟩,
   ⟨0, 0x7F810001, { (chn 0 { act := { count := 64 } }) with rings := [(0, { cfg := 4 })] }, _, ⟨by decide +kernel, by decide +kernel⟩,
     by decide +kernel, by decide +kernel, rfl, by decide +kernel⟩,
   ⟨0, chn 0 { state := 1 }, ⟨by decide +kernel, by decide +kernel⟩, by decide +kernel⟩,
   ⟨63, 0x1C, r0, ⟨by decide +kernel, by decide +kernel⟩, by decide +kernel⟩,
   ⟨63, 1, r0, _, ⟨by decide +kernel, by decide +kernel⟩, by decide +kernel, by decide +kernel, rfl, by decide +kernel⟩,
   ⟨0, 0x381, rngS, _, _, ⟨by decide +kernel, by decide +kernel⟩, by decide +kernel, by decide +kernel, rfl, by decide +kernel,
     Option.eq_some_of_isSome (by decide +kernel)⟩,
   ⟨63, chn 63 { state := 1, armed := true }, ⟨by decide +kernel, by decide +kernel⟩, by decide +kernel⟩,
   ⟨0, chn 0 { state := 1 }, ⟨by decide +kernel, by decide +kernel⟩, by decide +kernel⟩,
   ⟨0, r0, ⟨by decide +kernel, by decide +kernel⟩, by decide +kernel⟩,
   ⟨0, chn 0 { state := 4 }, ⟨by decide +kernel, by decide +kernel⟩, by decide +kernel⟩,
   ⟨0, r0, ⟨by decide +kernel, by decide +kernel⟩, by decide +kernel⟩,
   ⟨0, 0, r0, ⟨by decide +kernel, by decide +kernel⟩, by decide +kernel⟩,
   ⟨1, 3, r0, ⟨by decide +kernel, by decide +kernel⟩, by decide +kernel⟩,
   ⟨0, 0, 0, 8, chn 0 { state := 1 }, ⟨by decide +kernel, by decide +kernel⟩, by decide +kernel⟩,
   ⟨0, 4, 0, r0, ⟨by decide +kernel, by decide +kernel⟩, by decide +kernel⟩,
   ⟨0, 3, r0, ⟨by decide +kernel, by decide +kernel⟩, by decide +kernel⟩,
   ⟨0, 0, 0, r0, ⟨by decide +kernel, by decide +kernel⟩, by decide +kernel⟩,
   ⟨0, 0, 1, r0, ⟨by decide +kernel, by decide +kernel⟩, by decide +kernel⟩⟩

/-- MoverWorks. -/
theorem wit_MoverWorks :
    (∃ (d l a n : ℕ) (s u : State), clocksRun s = true ∧ dieRuns s d = true ∧ l < 32 ∧ nextBurst (chan s (32 * d + l)) = some (a, n) ∧ ((∀ k,
      k < 32 → k ≠ l → nextBurst (chan s (32 * d + k)) = none)) ∧
      a + (if mFix (chan s (32 * d + l)).act false then mW (chan s (32 * d + l)).act false else n) ≤ spaceSize s d (mSp (chan s (32 * d + l)).act false) ∧ u = chargeBurst s (32 * d + l) n) ∧
    (∃ (m a n t : ℕ) (r : List (ℕ × ℕ × ℕ)) (l b : List Byte) (s : State), (chan s m).x.flight = (a, n, t) :: r ∧ clocksRun s = true ∧
      dieRuns s (dieOfMover m) = true ∧ spaceUp s (dieOfMover m) (mSp (chan s m).act false) = true ∧ b = burstBytes s m a n l ∧ n ≤ b.length) ∧
    (∃ (m a n t : ℕ) (r : List (ℕ × ℕ × ℕ)) (s : State), (chan s m).x.flight = (a, n, t) :: r ∧ clocksRun s = true ∧
      dieRuns s (dieOfMover m) = true ∧ t < mRetry (chan s m).act) ∧
    (∃ (m a n t : ℕ) (r : List (ℕ × ℕ × ℕ)) (s : State), (chan s m).x.flight = (a, n, t) :: r ∧ clocksRun s = true ∧
      dieRuns s (dieOfMover m) = true ∧ mRetry (chan s m).act ≤ t) ∧
    (∃ (m : ℕ) (s : State), needsEntry (chan s m) false = true ∧ clocksRun s = true ∧ dieRuns s (dieOfMover m) = true ∧
      mSp (chan s m).act false = 0 ∧ spaceUp s (dieOfMover m) 0 = true ∧ (chan s m).x.src.next + 16 ≤ 2 ^ 64) ∧
    (∃ (m : ℕ) (s : State), needsEntry (chan s m) true = true ∧ clocksRun s = true ∧ dieRuns s (dieOfMover m) = true ∧ mSp (chan s m).act true = 0 ∧
      spaceUp s (dieOfMover m) 0 = true ∧ (chan s m).x.dst.next + 16 ≤ 2 ^ 64) ∧
    (∃ (m : ℕ) (dst : Bool) (s : State), needsEntry (chan s m) dst = true ∧ clocksRun s = true ∧ dieRuns s (dieOfMover m) = true ∧
      mRetry (chan s m).act ≤ (if dst then (chan s m).x.dst else (chan s m).x.src).tries) ∧
    (∃ (m e : ℕ) (s : State) (d : ℕ) (r : MRing), (chan s m).x.ending = some e ∧ (chan s m).state = 3 ∧ (chan s m).handover = false ∧
      clocksRun s = true ∧ dieRuns s (dieOfMover m) = true ∧ d = dieOfMover m ∧ r = mring s d (mRing (chan s m).act) ∧ ringFull r = false ∧
      spaceOpen s d (bits r.cfg.toNat 6 5) = true ∧ hostUp s d = true ∧ e ≠ 0 ∧ e ≠ 1) ∧
    (∃ (m : ℕ) (s : State) (d : ℕ) (r : MRing), (chan s m).x.ending = some 0 ∧ (chan s m).state = 3 ∧ (chan s m).handover = false ∧
      clocksRun s = true ∧ dieRuns s (dieOfMover m) = true ∧ d = dieOfMover m ∧ r = mring s d (mRing (chan s m).act) ∧ ringFull r = false ∧
      spaceOpen s d (bits r.cfg.toNat 6 5) = true ∧ mIrq (chan s m).act = false) ∧
    (∃ (m e : ℕ) (s : State), (chan s m).x.ending = some e ∧ (chan s m).state = 3 ∧ (chan s m).handover = false ∧ clocksRun s = true ∧
      dieRuns s (dieOfMover m) = true ∧ ringFull (mring s (dieOfMover m) (mRing (chan s m).act)) = true ∧ (chan s m).x.fullRaised = true) ∧
    (∃ (m e : ℕ) (s : State) (d : ℕ) (r : MRing), (chan s m).x.ending = some e ∧ (chan s m).state = 3 ∧ (chan s m).handover = false ∧
      clocksRun s = true ∧ dieRuns s (dieOfMover m) = true ∧ d = dieOfMover m ∧ r = mring s d (mRing (chan s m).act) ∧ ringFull r = false ∧
      spaceOpen s d (bits r.cfg.toNat 6 5) = false) ∧
    (∃ (m : ℕ) (s : State), clocksRun s = true ∧ dieRuns s (dieOfMover m) = true ∧ (chan s m).handover = true ∧ (chan s m).x.ending = some 1) ∧
    (∃ (m e : ℕ) (s : State), clocksRun s = true ∧ dieRuns s (dieOfMover m) = true ∧ (chan s m).handover = true ∧ (chan s m).x.ending = some e ∧
      e ≠ 1 ∧ ((chan s m).x.atStart = true ∨ (e ≠ 2 ∧ e ≠ 3)) ∧ (chan s m).armed = false) ∧
    (∃ (m e : ℕ) (s : State), clocksRun s = true ∧ dieRuns s (dieOfMover m) = true ∧ (chan s m).handover = true ∧ (chan s m).x.ending = some e ∧
      (e = 2 ∨ e = 3) ∧ (chan s m).x.atStart = false) ∧
    (∃ (m : ℕ) (s : State), (chan s m).handover = false) :=
  ⟨⟨0, 0, 0x1000, 64, chn 0 { state := 1, act := { src := 0x1000, count := 64 } }, _, by decide +kernel, by decide +kernel, by decide +kernel,
    by decide +kernel, by decide +kernel, by decide +kernel, rfl⟩,
   ⟨0, 0, 4, 0, [], [1, 2, 3, 4], _, chn 0 { state := 1, x := { flight := [(0, 4, 0)] } }, by decide +kernel, by decide +kernel, by decide +kernel,
     by decide +kernel, rfl, by decide +kernel⟩,
   ⟨0, 0, 4, 0, [], chn 0 { state := 1, act := { ctrl := 0x7FF10000 }, x := { flight := [(0, 4, 0)] } }, by decide +kernel⟩,
   ⟨0, 0, 4, 0, [], chn 0 { state := 1, x := { flight := [(0, 4, 0)] } }, by decide +kernel⟩,
   ⟨0, chn 0 { state := 1, act := { ctrl := 0x7F810002, count := 64 } }, by decide +kernel⟩,
   ⟨0, chn 0 { state := 1, act := { ctrl := 0x7F810004, count := 64 } }, by decide +kernel⟩,
   ⟨0, false, chn 0 { state := 1, act := { ctrl := 0x7F810002, count := 64 } }, by decide +kernel⟩,
   ⟨0, 2, chn 0 { state := 3, x := { ending := some 2 } }, _, _, by decide +kernel, by decide +kernel, by decide +kernel, by decide +kernel,
     by decide +kernel, rfl, rfl, by decide +kernel⟩,
   ⟨0, chn 0 { state := 3, x := { ending := some 0 } }, _, _, by decide +kernel, by decide +kernel, by decide +kernel, by decide +kernel,
     by decide +kernel, rfl, rfl, by decide +kernel⟩,
   ⟨0, 2, { (chn 0 { state := 3, x := { ending := some 2, fullRaised := true } }) with rings := [(0, { wr := 1 })] }, by decide +kernel⟩,
   ⟨32, 2, { chn 32 { state := 3, x := { ending := some 2 } } with power := { r0.power with die := [(0, 1)] } }, _, _, by decide +kernel,
     by decide +kernel, by decide +kernel, by decide +kernel, by decide +kernel, rfl, rfl, by decide +kernel⟩,
   ⟨0, chn 0 { handover := true, x := { ending := some 1 } }, by decide +kernel⟩,
   ⟨0, 5, chn 0 { handover := true, x := { ending := some 5 } }, by decide +kernel⟩,
   ⟨0, 2, chn 0 { handover := true, x := { ending := some 2 } }, by decide +kernel⟩,
   ⟨0, r0, by decide +kernel⟩⟩

/-- AStepRunsTheFrontCommand. -/
theorem wit_AStepRunsTheFrontCommand :
    (∃ (c : Instr) (r : List Instr) (s : State), s.pending = c :: r) :=
  ⟨.bootStart, [], { r0 with pending := [.bootStart] }, by decide +kernel⟩

/-- AnEmptyQueueIsATimeCycle. -/
theorem wit_AnEmptyQueueIsATimeCycle :
    (∃ (s : State), s.pending = []) :=
  ⟨r0, by decide +kernel⟩

/-- EveryStepGoesOnAndOnlyBlowsFuses. -/
theorem wit_EveryStepGoesOnAndOnlyBlowsFuses :
    (∃ (s t : State), step s = .next t ∧ OtpOk s.otp) :=
  ⟨r0, _, rfl, ⟨by decide +kernel, by decide +kernel, by decide +kernel⟩⟩

/-- RefusedCommandsOnlyReply. -/
theorem wit_RefusedCommandsOnlyReply :
    (∃ (i : Instr) (op : ℕ) (h : CmdHdr) (w : List Word) (s : State) (r : Reply), i.command = some (op, h, w) ∧ coresFree s = true ∧
      canTake s h = true ∧ targetAgrees h = true ∧ h.devno = s.sys.devno ∧ headerTests s h op w = some r) ∧
    (∃ (i : Instr) (op : ℕ) (h : CmdHdr) (w : List Word) (s : State), i.command = some (op, h, w) ∧ coresFree s = true ∧ canTake s h = true ∧
      targetAgrees h = true ∧ h.devno ≠ s.sys.devno ∧ hasRoom s h = true) ∧
    (∃ (i : Instr) (op : ℕ) (h : CmdHdr) (w : List Word) (s : State), i.command = some (op, h, w) ∧ coresFree s = true ∧ canTake s h = true ∧
      targetAgrees h = true ∧ h.devno ≠ s.sys.devno ∧ hasRoom s h = false) ∧
    (∃ (i : Instr) (op : ℕ) (h : CmdHdr) (w : List Word) (s : State), i.command = some (op, h, w) ∧ coresFree s = true ∧ canTake s h = true ∧
      targetAgrees h = true ∧ h.devno = s.sys.devno ∧ headerTests s h op w = none ∧ h.txn = true ∧ findTxn s h h.txid false = none) ∧
    (∃ (i : Instr) (op : ℕ) (h : CmdHdr) (w : List Word) (s : State), i.command = some (op, h, w) ∧ coresFree s = true ∧ canTake s h = true ∧
      targetAgrees h = true ∧ h.devno = s.sys.devno ∧ headerTests s h op w = none ∧ ((h.txn = true → (findTxn s h h.txid false).isSome = true)) ∧
      busy s h (unitsIn s op h w) = true) ∧
    (∃ (i : Instr) (op : ℕ) (h : CmdHdr) (w : List Word) (s : State) (d : ℕ), i.command = some (op, h, w) ∧ coresFree s = true ∧ canTake s h = true ∧
      targetAgrees h = true ∧ h.devno = s.sys.devno ∧ headerTests s h op w = none ∧ ((h.txn = true → (findTxn s h h.txid false).isSome = true)) ∧
      busy s h (unitsIn s op h w) = false ∧ stoppedTarget s op h w = some d) ∧
    (∃ (i : Instr) (op : ℕ) (h : CmdHdr) (w : List Word) (s : State), i.command = some (op, h, w) ∧ (coresFree s = false ∨ canTake s h = false)) :=
  ⟨⟨.idQuery hG [0], 0x0101, hG, [0], r0, _, by decide +kernel, by decide +kernel, by decide +kernel, by decide +kernel, by decide +kernel,
    Option.eq_some_of_isSome (by decide +kernel)⟩,
   ⟨.idQuery { hG with devno := 1 } [], 0x0101, { hG with devno := 1 }, [], r0, by decide +kernel⟩,
   ⟨.idQuery { hG with devno := 1 } [], 0x0101, { hG with devno := 1 }, [],
     { r0 with hlinks := [(0, { ranges := [(1, 1)], outQ := [{ bytes := f64 }] })] }, by decide +kernel⟩,
   ⟨.valveStop hT [], 0x0507, hT, [], r0, by decide +kernel⟩,
   ⟨.valveStop (hP 0) [], 0x0507, hP 0, [], tx1 { tA with members := [{ mA with held := [.port 0] }] }, by decide +kernel⟩,
   ⟨.portQuery (hP 0) [], 0x0301, hP 0, [], pow (fun p => { p with region := [(0, 1)] }), _, by decide +kernel, by decide +kernel, by decide +kernel,
     by decide +kernel, by decide +kernel, by decide +kernel, by decide +kernel, by decide +kernel, Option.eq_some_of_isSome (by decide +kernel)⟩,
   ⟨.idQuery hG [], 0x0101, hG, [], clk fun c => { c with state := .off }, by decide +kernel⟩⟩

/-- Ddr4HoldsWhatWasStored. -/
theorem wit_Ddr4HoldsWhatWasStored :
    (∃ (s : State), Memory.wf s.ddr = true) ∧
    (∃ (d a : ℕ) (l : List Byte) (e b : ℕ), (d * 2 ^ 36 + a + l.length ≤ e * 2 ^ 36 + b ∨ e * 2 ^ 36 + b < d * 2 ^ 36 + a)) ∧
    (∃ (s : State), Memory.wf s.ddr = true) :=
  ⟨⟨r0, by decide +kernel⟩,
   ⟨0, 0, [1], 0, 1, by decide +kernel⟩,
   ⟨r0, by decide +kernel⟩⟩

/-- APacketIsReadBackAsItsCommand. -/
theorem wit_APacketIsReadBackAsItsCommand :
    (∃ (i : Instr) (op : ℕ) (h : CmdHdr) (w l : List Word), Instr.command i = some (op, h, w) ∧ cmdWf h w = true ∧ targetAgrees h = true ∧
      l = packet (b2n h.txn * 4 + b2n h.quiet * 8) op h.tag.toNat h.scope h.die h.region h.txid h.devno h.port w) :=
  ⟨.idQuery hG [], 0x0101, hG, [], _, by decide +kernel, by decide +kernel, by decide +kernel, rfl⟩

/-- ACommandWrittenIsTheCommandTaken. -/
theorem wit_ACommandWrittenIsTheCommandTaken :
    (∃ (i : Instr) (op : ℕ) (h : CmdHdr) (w l : List Word) (s : State), Instr.command i = some (op, h, w) ∧ cmdWf h w = true ∧
      targetAgrees h = true ∧ h.path = .pcie ∧
      l = packet (b2n h.txn * 4 + b2n h.quiet * 8) op h.tag.toNat h.scope h.die h.region h.txid h.devno h.port w ∧ s.pcie.up = true ∧
      dieRuns s 0 = true ∧ ctrlRuns s = true ∧ s.sec.bootState = 5 ∧ coresFree s = true ∧ canTake s {} = true ∧ (s.served % 3 = 2 ∨ (s.mgmtQ = [] ∧
      s.hyithQ = [])) ∧ s.fifo.mode = false ∧ s.fifo.used = 0 ∧ s.fifo.count = 0 ∧ s.fifo.rd = s.fifo.head ∧ s.fifo.head = s.fifo.front ∧
      s.fifo.front < 65536 ∧ Tbl.wf s.fifo.ring 0 = true ∧ h.devno = s.sys.devno) :=
  ⟨.idQuery hG [], 0x0101, hG, [], _, r0, by decide +kernel, by decide +kernel, by decide +kernel, by decide +kernel, rfl, by decide +kernel⟩

/-- AnEdgeAtAFullCaptureFifoIsLost. -/
theorem wit_AnEdgeAtAFullCaptureFifoIsLost :
    (∃ (c : ℕ) (b : Bool) (s : State), bit (capture s c).edges (b2n b) = true ∧ (capture s c).fifo.length = 16) :=
  ⟨0, true, cap 0 { edges := 3, fifo := List.replicate 16 (0, false) }, by decide +kernel⟩

/-- ShortTimeIsLongTimeModuloItsWidth. -/
theorem wit_ShortTimeIsLongTimeModuloItsWidth :
    (∃ (s : State) (sec ns frac : ℕ), ns < 1000000000 ∧ frac < 65536 ∧ s.time.units / 2 ^ 25 = (sec * 1000000000 + ns) * 65536 + frac) :=
  ⟨r0, 0, 0, 0, by decide +kernel⟩

/-- MoverChannelsLieInTheirDie. -/
theorem wit_MoverChannelsLieInTheirDie :
    (∃ (m o : ℕ), m < 64 ∧ o < 0x100) ∧
    (∃ (d o : ℕ), d < 2 ∧ o < 0xE000) ∧
    (∃ (s : State) (m o : ℕ), s.otp.part5124 = false ∧ o < 0x100 ∧ m < 32) ∧
    (∃ (s : State) (m o : ℕ), s.otp.part5124 = false ∧ o < 0x100 ∧ 32 ≤ m ∧ m < 64) :=
  ⟨⟨63, 255, by decide +kernel⟩,
   ⟨1, 0xDFFF, by decide +kernel⟩,
   ⟨otp (fun c => { c with part5124 := false }), 31, 255, by decide +kernel⟩,
   ⟨otp (fun c => { c with part5124 := false }), 63, 255, by decide +kernel⟩⟩

end Sys2Proof.Tests
end

section
/-! The settled statements on capture inputs and short time, with what their proofs need of a capture input's entry and of line time. -/

namespace Sys2Proof.Machine

/-! ### Capture inputs (R70, R71) -/

/-- The capture inputs lie in the pulse state alone. -/
theorem capture_of_pulse_eq {s t : State} (h : t.pulse = s.pulse) (c : Nat) : capture t c = capture s c := by
  unfold capture
  rw [h]

/-- A sample of the PPS source changes line time only, no capture input (R50). -/
@[simp] theorem ppsSample_pulse (s : State) (t16 : Nat) : (ppsSample s t16).pulse = s.pulse := by
  unfold ppsSample
  dsimp only
  split <;> rfl

/-- An input whose FIFO still holds an entry is not at its reset value, so that the table keeps what is written to it. -/
theorem capture_modCapture_of_fifo_ne_nil (s : State) (c : Nat) (f : Capture → Capture) (h : (f (capture s c)).fifo ≠ []) :
    capture (modCapture s c f) c = f (capture s c) :=
  Tbl.look_put_ne _ _ _ _ fun e => h (congrArg Capture.fifo e)

/-- At a full FIFO only LOST is written, whether or not its new value and its crossing of half are noted for capture (R71, R237). -/
theorem capturePut_pulse_of_full (s : State) (c : Nat) (falling : Bool) (t16 : Nat) (hfull : 16 ≤ (capture s c).fifo.length) :
    (capturePut s c falling t16).pulse = (modCapture s c fun x => { x with lost := min 0xFFFF (x.lost + 1) }).pulse := by
  unfold capturePut
  dsimp only
  rw [if_neg (Nat.not_lt.mpr hfull)]
  by_cases hhalf : (capture s c).lost = 0x7FFF
  · rw [if_pos hhalf]
    rfl
  · rw [if_neg hhalf]
    rfl

/-- An edge at a full FIFO is counted in LOST, and nothing else of its input changes (R71). -/
theorem capture_capturePut_of_full (s : State) (c : Nat) (falling : Bool) (t16 : Nat) (hfull : 16 ≤ (capture s c).fifo.length) :
    capture (capturePut s c falling t16) c = { capture s c with lost := min 0xFFFF ((capture s c).lost + 1) } := by
  have hheld : (capture s c).fifo ≠ [] := List.ne_nil_of_length_pos (by omega)
  rw [capture_of_pulse_eq (capturePut_pulse_of_full s c falling t16 hfull)]
  exact capture_modCapture_of_fifo_ne_nil s c _ hheld

/-- A selected edge enters its FIFO or LOST at its instant, after the sample it is where the input is the PPS source (R50, R70). -/
theorem execCaptureEdge_selected (c : Nat) (falling : Bool) (t16 : Nat) (s : State)
    (hsel : bit (capture s c).edges (b2n falling) = true) :
    execCaptureEdge c falling t16 s =
      .next (capturePut (if isPps s c && !falling then ppsSample (at16 s t16) t16 else at16 s t16) c falling t16) := by
  simp [execCaptureEdge, hsel]

/-- Settles O58: the edge's instant and its PPS sample leave the input as it was, so that the edge finds the FIFO full. -/
theorem anEdgeAtAFullCaptureFifoIsLost : Obligations.AnEdgeAtAFullCaptureFifoIsLost := by
  intro c b t s hsel hfull
  refine ⟨_, (exec_captureEdge c b t s).trans (execCaptureEdge_selected c b t s hsel), ?_⟩
  have hcap : capture (if isPps s c && !b then ppsSample (at16 s t) t else at16 s t) c = capture s c := by
    refine capture_of_pulse_eq ?_ c
    split
    · rw [ppsSample_pulse, at16_pulse]
    · exact at16_pulse s t
  rw [capture_capturePut_of_full _ c b t (by rw [hcap, hfull]), hcap]

/-! ### Short time (R44) -/

/-- Whole ns are line time's visible resolution without FRAC's 16 bits. -/
theorem nowNs_eq_now16_div (s : State) : nowNs s = now16 s / 65536 := by
  unfold nowNs now16
  omega

/-- Short time with fraction: the low 48 bits of line time are short time followed by FRAC. -/
theorem now16_mod_eq_shortNs_frac (s : State) : now16 s % 2 ^ 48 = shortNs s * 65536 + nowFrac s := by
  unfold shortNs nowFrac
  rw [nowNs_eq_now16_div]
  omega

/-- Line time read as whole ns and a fraction of 16 bits has these as its parts. -/
theorem nowNs_nowFrac_of_now16 {s : State} {ns frac : Nat} (hfrac : frac < 65536) (h : now16 s = ns * 65536 + frac) :
    nowNs s = ns ∧ nowFrac s = frac := by
  rw [nowNs_eq_now16_div, nowFrac, h]
  omega

/-- The state after reset with line time at ns, in whole ns. -/
def resetAtNs (ns : Nat) : State := atNs State.reset ns

theorem nowNs_resetAtNs (ns : Nat) : nowNs (resetAtNs ns) = ns := by
  have hunits : (resetAtNs ns).time.units = ns * 2 ^ 41 := Nat.zero_max _
  rw [nowNs, hunits, Nat.mul_div_cancel _ (by decide)]

/-- Settles O59; one second after reset, NS has wrapped to 0 and short time has not. -/
theorem shortTimeIsLongTimeModuloItsWidth : Obligations.ShortTimeIsLongTimeModuloItsWidth := by
  refine ⟨fun s sec ns frac _ hfrac htime => ?_, resetAtNs 1000000000, ?_⟩
  · obtain ⟨hns, hfr⟩ := nowNs_nowFrac_of_now16 hfrac htime
    rw [now16_mod_eq_shortNs_frac, shortNs, hns, hfr]
    exact ⟨rfl, rfl⟩
  · rw [shortNs, nowNs_resetAtNs]
    decide

end Sys2Proof.Machine
end

section
/-! The settled statement on where the mover's registers lie, with the block of each address of a mover block. -/

namespace Sys2Proof.Machine

/-! ### The mover's blocks (R308) -/

/-- The 64 KiB at a die's mover base are that die's mover block. -/
theorem blkOf_moverBase_add {d o : Nat} (hd : d < 2) (ho : o < 0x10000) : blkOf (moverBase d + o) = .mover d o := by
  have hdie : (moverBase d + o) / 0x1000000 - 1 = d := by
    unfold moverBase dieBase
    omega
  have hofs : (moverBase d + o) % 0x1000000 = 0x10000 + o := by
    unfold moverBase dieBase
    omega
  obtain ⟨hlow, hhigh⟩ : 0x1000000 ≤ moverBase d + o ∧ moverBase d + o < 0x3000000 := by
    unfold moverBase dieBase
    omega
  unfold blkOf
  dsimp only
  rw [if_neg (by omega), if_neg (Nat.not_lt.mpr hlow), if_neg (Nat.not_le.mpr hhigh), hdie, hofs, if_neg (by omega),
    if_pos (by omega), Nat.add_sub_cancel_left]

/-- A register of channel m lies among local channel m mod 32's in the mover block of die m / 32. -/
theorem blkOf_chanBase_add {m o : Nat} (hm : m < 64) (ho : o < 0x100) :
    blkOf (chanBase m + o) = .mover (m / 32) (0x100 * (m % 32) + o) := by
  rw [chanBase, Nat.add_assoc]
  exact blkOf_moverBase_add (Nat.div_lt_of_lt_mul hm) (by omega)

/-- A mover block is present where its die is (R2). -/
@[simp] theorem blkPresent_mover (s : State) (d o : Nat) : blkPresent s (.mover d o) = hasDie s d := rfl

/-- The MHV-2562 has die 0 alone (R1). -/
theorem hasDie_of_part2562 {s : State} (hpart : s.otp.part5124 = false) (d : Nat) : hasDie s d = decide (d < 1) := by
  simp [hasDie, nDies, hpart]

/-- The MHV-2562 has a block for a channel's registers where the channel is one of die 0's. -/
theorem blkPresent_chanBase_of_part2562 {s : State} {m o : Nat} (hpart : s.otp.part5124 = false) (hm : m < 64) (ho : o < 0x100) :
    blkPresent s (blkOf (chanBase m + o)) = decide (m / 32 < 1) := by
  rw [blkOf_chanBase_add hm ho, blkPresent_mover, hasDie_of_part2562 hpart]

/-- Settles O60: a channel's registers and a die's own lie in the die's mover block, which the MHV-2562 has for die 0 alone. -/
theorem moverChannelsLieInTheirDie : Obligations.MoverChannelsLieInTheirDie := by
  refine ⟨fun _ => rfl, fun _ _ => blkOf_chanBase_add, fun d o hd ho => ?dieRegisters,
    fun s m o hpart ho hm => ?die0, fun s m o hpart ho hlow hm => ?die1⟩
  case dieRegisters =>
    rw [Nat.add_assoc]
    exact blkOf_moverBase_add hd (by omega)
  case die0 =>
    rw [blkPresent_chanBase_of_part2562 hpart (by omega) ho]
    exact decide_eq_true (by omega)
  case die1 =>
    rw [blkPresent_chanBase_of_part2562 hpart hm ho]
    exact decide_eq_false (by omega)

end Sys2Proof.Machine
end

section
/-! The settled statements on the machine as a whole: a step, the queue of commands, reset, and the one-time programmable memory. -/

namespace Sys2Proof.Machine

/-! ### A step and the queue of commands -/

/-- Settles O48. -/
theorem aStepRunsTheFrontCommand : Obligations.AStepRunsTheFrontCommand := by
  intro c r s h
  rw [step, h]

/-- Settles O49. -/
theorem anEmptyQueueIsATimeCycle : Obligations.AnEmptyQueueIsATimeCycle := by
  intro s h
  have tick : step s = .next (timeTick s) := by rw [step, h]
  exact tick

/-! ### The one-time programmable memory (R374, R385) -/

/-- A TIME cycle leaves the OTP and the empty queue. -/
theorem step_of_pending_nil {s : State} (h : s.pending = []) :
    ∃ t, step s = .next t ∧ OtpStep s.otp t.otp ∧ t.pending = s.pending.tail := by
  rw [anEmptyQueueIsATimeCycle s h]
  exact ⟨_, rfl, OtpStep.refl _, congrArg List.tail h ▸ h⟩

/-- What the front command does to the OTP, a step does; the rest of the queue is left. -/
theorem step_of_pending_cons {s : State} {c : Instr} {r : List Instr} (h : s.pending = c :: r) :
    ∃ t, step s = .next t ∧ OtpStep s.otp t.otp ∧ t.pending = s.pending.tail := by
  rw [aStepRunsTheFrontCommand c r s h, h]
  exact exec_steps c { s with pending := r }

/-- Blowing fuses keeps the OTP's fields in their ranges. -/
theorem OtpStep.keeps_ok {a b : Otp} (h : OtpStep a b) (ok : OtpOk a) : OtpOk b where
  rollback := h.top.elim (fun same => same ▸ ok.rollback) id
  prog := h.keyProg ▸ ok.prog
  revoked := by
    obtain ⟨m, hm, hrev⟩ := h.revoke
    rw [hrev]
    exact Nat.or_lt_two_pow (n := 4) ok.revoked hm

/-- Settles O52: by the queue's two cases, a TIME cycle or the front command, whose effect on the OTP is that of every command. -/
theorem everyStepGoesOnAndOnlyBlowsFuses : Obligations.EveryStepGoesOnAndOnlyBlowsFuses := by
  have goes : ∀ s, ∃ t, step s = .next t ∧ OtpStep s.otp t.otp ∧ t.pending = s.pending.tail := by
    intro s
    cases h : s.pending with
    | nil => simpa only [h] using step_of_pending_nil h
    | cons c r => simpa only [h] using step_of_pending_cons h
  refine ⟨goes, fun s t ht ok => ?_⟩
  obtain ⟨u, hu, hotp, -⟩ := goes s
  cases hu.symm.trans ht
  exact hotp.keeps_ok ok

/-! ### Reset -/

/-- Settles O51. -/
theorem theOtpIsInRangeAtReset : Obligations.TheOtpIsInRangeAtReset where
  rollback := by decide
  prog := by decide
  revoked := by decide

/-- The axis image reads zeros after reset. -/
theorem imgRead_reset (a o n : Nat) : imgRead State.reset a o n = List.replicate n 0 := by
  have zero : (fun i => State.reset.image.bytes.look (128 * a + o + i) 0) = fun _ => (0 : Byte) := rfl
  rw [imgRead, zero, List.map_const', List.length_range]

/-- Settles O50: every table is empty, so that each entry reads as the default. -/
theorem resetLeaves : Obligations.ResetLeaves :=
  ⟨rfl, rfl, rfl, rfl, rfl, rfl, rfl, fun _ => ⟨rfl, rfl⟩, fun _ => rfl, fun _ => rfl, imgRead_reset, fun _ => rfl,
    fun _ _ => rfl, fun _ => rfl, rfl, rfl⟩

end Sys2Proof.Machine
end

section
/-! The settled statements on a command's packet: it is read back as its command, and written to an empty command ring it is the
command the cores take next. -/

namespace Sys2Proof.Machine

section

/-! ### The words of a command's packet (R282) -/

/-- The packet of a command as it is written for the header h. -/
def cmdWords (h : CmdHdr) (op : Nat) (w : List Word) : List Word :=
  packet (b2n h.txn * 4 + b2n h.quiet * 8) op h.tag.toNat h.scope h.die h.region h.txid h.devno h.port w

/-- A packet without its CRC. -/
def cmdBody (h : CmdHdr) (op : Nat) (w : List Word) : List Word :=
  wd (0x474D * 65536 + 0x0100 + (b2n h.txn * 4 + b2n h.quiet * 8)) :: wd (op * 65536 + h.tag.toNat % 65536) ::
    wd ((w.length + 5) * 65536 + h.scope * 16384 + h.die * 4096 + h.region * 512 + h.txid * 2) ::
    wd (h.devno * 16384 + h.port * 16) :: w

variable (h : CmdHdr) (op : Nat) (w : List Word)

/-- A packet ends with the CRC of what stands before it. -/
theorem cmdWords_eq : cmdWords h op w = cmdBody h op w ++ [wd (crc32c (wordsBe (cmdBody h op w)))] := rfl

@[simp] theorem cmdBody_length : (cmdBody h op w).length = w.length + 4 := rfl

@[simp] theorem cmdWords_length : (cmdWords h op w).length = w.length + 5 := by simp [cmdWords_eq]

theorem b2n_le (b : Bool) : b2n b ≤ 1 := by cases b <;> decide

/-- A word below 2^32 reads as the number it was made of. -/
theorem wd_toNat_of_lt {n : Nat} (hn : n < 2 ^ 32) : (wd n).toNat = n := by rw [wd, BitVec.toNat_ofNat, Nat.mod_eq_of_lt hn]

/-- Word 0: magic, version and flags. -/
theorem prm_cmdWords_0 : prm (cmdWords h op w) 0 = 0x474D * 65536 + 0x0100 + (b2n h.txn * 4 + b2n h.quiet * 8) := by
  have ht := b2n_le h.txn
  have hq := b2n_le h.quiet
  exact wd_toNat_of_lt (by omega)

/-- Word 1: opcode and TAG. -/
theorem prm_cmdWords_1 (hop : op < 65536) : prm (cmdWords h op w) 1 = op * 65536 + h.tag.toNat := by
  have htag : h.tag.toNat < 65536 := h.tag.isLt
  rw [← Nat.mod_eq_of_lt htag]
  exact wd_toNat_of_lt (by omega)

/-- The ranges of the fields that words 2 and 3 hold, and of LENGTH. -/
structure HdrFits (h : CmdHdr) (w : List Word) : Prop where
  scope : h.scope < 4
  die : h.die < 4
  region : h.region < 8
  port : h.port < 1024
  txid : h.txid < 256
  devno : h.devno < 262144
  length : w.length ≤ 4091

theorem hdrFits_of_cmdWf {h : CmdHdr} {w : List Word} (wf : cmdWf h w = true) : HdrFits h w := by
  simp only [cmdWf, CmdHdr.wf, Bool.and_eq_true, decide_eq_true_eq] at wf
  obtain ⟨⟨⟨⟨⟨⟨⟨-, hscope⟩, hdie⟩, hregion⟩, hport⟩, htxid⟩, hdevno⟩, hlen⟩ := wf
  exact ⟨hscope, hdie, hregion, hport, htxid, hdevno, hlen⟩

variable {h op w} (fit : HdrFits h w)
include fit

/-- Word 2: LENGTH, scope, die, region and TXID. -/
theorem prm_cmdWords_2 : prm (cmdWords h op w) 2 =
    (w.length + 5) * 65536 + h.scope * 16384 + h.die * 4096 + h.region * 512 + h.txid * 2 := by
  obtain ⟨hscope, hdie, hregion, -, htxid, -, hlen⟩ := fit
  exact wd_toNat_of_lt (by omega)

/-- Word 3: device number and port. -/
theorem prm_cmdWords_3 : prm (cmdWords h op w) 3 = h.devno * 16384 + h.port * 16 := by
  obtain ⟨-, -, -, hport, -, hdevno, -⟩ := fit
  exact wd_toNat_of_lt (by omega)

/-! ### The packet read back (R282, R285) -/

omit fit in
/-- The magic of word 0. -/
theorem bits_cmdWords_magic : bits (prm (cmdWords h op w) 0) 31 16 = 0x474D := by
  have ht := b2n_le h.txn
  have hq := b2n_le h.quiet
  rw [prm_cmdWords_0, bits]
  omega

/-- LENGTH is the number of the packet's words. -/
theorem bits_cmdWords_length : bits (prm (cmdWords h op w) 2) 31 16 = (cmdWords h op w).length := by
  obtain ⟨hscope, hdie, hregion, -, htxid, -, hlen⟩ := id fit
  rw [prm_cmdWords_2 fit, cmdWords_length, bits]
  omega

theorem pktHdr_cmdWords (hop : op < 65536) : pktHdr h.path (cmdWords h op w) = h := by
  obtain ⟨hscope, hdie, hregion, hport, htxid, hdevno, hlen⟩ := id fit
  have htag : h.tag.toNat < 65536 := h.tag.isLt
  have htxn : bit (prm (cmdWords h op w) 0) 2 = h.txn := by
    rw [prm_cmdWords_0]
    cases h.txn <;> cases h.quiet <;> rfl
  have hquiet : bit (prm (cmdWords h op w) 0) 3 = h.quiet := by
    rw [prm_cmdWords_0]
    cases h.txn <;> cases h.quiet <;> rfl
  have htag' : BitVec.ofNat 16 (prm (cmdWords h op w) 1) = h.tag := by
    rw [prm_cmdWords_1 h op w hop]
    exact BitVec.eq_of_toNat_eq (by rw [BitVec.toNat_ofNat]; omega)
  unfold pktHdr
  simp only [htxn, hquiet, htag', fld, prm_cmdWords_2 fit, prm_cmdWords_3 fit, bits]
  congr 1 <;> omega

omit fit in
theorem pktOp_cmdWords (hop : op < 65536) : pktOp (cmdWords h op w) = op := by
  have htag : h.tag.toNat < 65536 := h.tag.isLt
  rw [pktOp, fld, prm_cmdWords_1 h op w hop, bits]
  omega

omit fit in
theorem pktParams_cmdWords : pktParams (cmdWords h op w) = w := by
  rw [pktParams, cmdWords_length, cmdWords_eq]
  simp [cmdBody]

/-- The packet of a command whose target agrees passes tests 3 to 5 of R285. -/
theorem packetTests_cmdWords (ht : targetAgrees h = true) : packetTests h (cmdWords h op w) = none := by
  obtain ⟨hscope, hdie, hregion, hport, htxid, hdevno, hlen⟩ := id fit
  have hbody : (cmdWords h op w).take (w.length + 4) = cmdBody h op w := by
    rw [cmdWords_eq, List.take_left' (cmdBody_length h op w)]
  have hcrc : (cmdWords h op w).getD (w.length + 4) 0 = wd (crc32c (wordsBe (cmdBody h op w))) := by
    rw [cmdWords_eq, List.getD_eq_getElem?_getD, List.getElem?_append_right (by simp)]
    simp
  have hversion : bits (prm (cmdWords h op w) 0) 15 8 = 1 := by
    rw [prm_cmdWords_0]
    cases h.txn <;> cases h.quiet <;> rfl
  have hlow : bits (prm (cmdWords h op w) 0) 1 0 = 0 := by
    rw [prm_cmdWords_0]
    cases h.txn <;> cases h.quiet <;> rfl
  have hflags : bits (prm (cmdWords h op w) 0) 7 4 = 0 := by
    rw [prm_cmdWords_0]
    cases h.txn <;> cases h.quiet <;> rfl
  have hreserved2 : bit (prm (cmdWords h op w) 2) 0 = false := by
    rw [prm_cmdWords_2 fit, bit, beq_eq_false_iff_ne]
    omega
  have hreserved3 : fld (cmdWords h op w) 3 3 0 = 0 := by
    rw [fld, prm_cmdWords_3 fit, bits]
    omega
  have hlast : (cmdWords h op w).length - 1 = w.length + 4 := by rw [cmdWords_length]; omega
  simp only [packetTests, hlast, hbody, hcrc, hversion, hlow, hflags, hreserved2, hreserved3, ht, ne_eq, not_true_eq_false,
    Bool.true_eq_false, Bool.false_eq_true, or_self, if_false]

omit fit in
/-- The bytes of word i. -/
theorem take_drop_wordsBe (l : List Word) (i : Nat) (hi : i < l.length) : ((wordsBe l).drop (4 * i)).take 4 = be 4 (prm l i) := by
  induction l generalizing i with
  | nil => cases hi
  | cons x l ih =>
    have split : wordsBe (x :: l) = be 4 x.toNat ++ wordsBe l := rfl
    cases i with
    | zero => rw [split, Nat.mul_zero, List.drop_zero, List.take_left' (be_len _)]; rfl
    | succ i =>
      rw [split, Nat.mul_succ, Nat.add_comm, ← List.drop_drop, List.drop_left' (be_len _), ih i (Nat.lt_of_succ_lt_succ hi)]
      rfl

omit fit in
theorem prm_lt (l : List Word) (i : Nat) : prm l i < 2 ^ 32 := BitVec.isLt _

omit fit in
/-- The upper half of a word, from its first two bytes. -/
theorem ofBe_take_two_be (n : Nat) (hn : n < 2 ^ 32) : ofBe ((be 4 n).take 2) = bits n 31 16 := by
  rw [be_four]
  simp only [List.take_succ_cons, List.take_zero, ofBe, List.foldl_cons, List.foldl_nil, by8, BitVec.toNat_ofNat, bits]
  omega

/-- A frame that holds the packet gives it back whole. -/
theorem frameWords_cmdWords : frameWords (wordsBe (cmdWords h op w)) = some (cmdWords h op w) := by
  have hlen := fit.length
  have hword := take_drop_wordsBe (cmdWords h op w) 2 (by rw [cmdWords_length]; omega)
  have hbe : beAt (wordsBe (cmdWords h op w)) 8 2 = (cmdWords h op w).length := by
    have htwo : ((wordsBe (cmdWords h op w)).drop (4 * 2)).take 2 = (be 4 (prm (cmdWords h op w) 2)).take 2 := by
      rw [← hword, List.take_take, Nat.min_eq_left (by decide)]
    rw [beAt, show 8 = 4 * 2 from rfl, htwo, ofBe_take_two_be _ (prm_lt _ _), bits_cmdWords_length fit]
  have hfit : ¬((cmdWords h op w).length < 5 ∨ 4096 < (cmdWords h op w).length ∨
      (wordsBe (cmdWords h op w)).length < 4 * (cmdWords h op w).length) := by
    rw [wordsBe_len, cmdWords_length]
    omega
  simp only [frameWords, hbe]
  rw [if_neg hfit, toWordsBe_wordsBe]

end

/-- Settles O56: the fields lie apart in the four words of the header, so that each is read back, and the opcode's row is the command's. -/
theorem aPacketIsReadBackAsItsCommand : Obligations.APacketIsReadBackAsItsCommand := by
  intro i op h w l hi hwf ht hl
  have fit := hdrFits_of_cmdWf hwf
  have hop := command_op hi
  have hl : l = cmdWords h op w := hl
  subst hl
  exact ⟨packetTests_cmdWords fit ht, pktHdr_cmdWords fit hop, pktOp_cmdWords hop, pktParams_cmdWords, frameWords_cmdWords fit,
    commandOf_command hi, runOpcode_command hi⟩

/-! ### A packet written and taken (R289, R290, R295) -/

/-- The ring after the packet l has been written whole at FRONT. -/
def withPacket (f : Fifo) (l : List Word) : Fifo :=
  { f with
    ring := ringStore f.ring 65536 f.front l, front := (f.front + l.length) % 65536, used := f.used + l.length
    head := (f.front + l.length) % 65536, count := f.count + 1 }

/-- A write of a whole packet at FRONT of an empty ring makes it visible and nothing else. -/
theorem exec_cmdFifoWrite_packet {s : State} {l : List Word} (hup : s.pcie.up = true) (hdie : dieRuns s 0 = true)
    (hctrl : ctrlRuns s = true) (hboot : s.sec.bootState = 5) (hmode : s.fifo.mode = false) (hused : s.fifo.used = 0)
    (hhead : s.fifo.head = s.fifo.front) (hfront : s.fifo.front < 65536) (hring : Tbl.wf s.fifo.ring 0 = true)
    (h5 : 5 ≤ l.length) (hn : l.length ≤ 4096) (hmagic : bits (prm l 0) 31 16 = 0x474D)
    (hlen : bits (prm l 2) 31 16 = l.length) :
    exec (.cmdFifoWrite (4 * s.fifo.front) l true false) s = .next { s with fifo := withPacket s.fifo l } := by
  have hroom : ¬(cmdFree s.fifo < l.length) := by rw [cmdFree, hused]; omega
  have hwindow : ¬(0x40000 ≤ 4 * s.fifo.front) := by omega
  have hempty : ({ s.fifo with ring := ringStore s.fifo.ring 65536 s.fifo.front []
                               front := (s.fifo.front + ([] : List Word).length) % 65536
                               used := s.fifo.used + ([] : List Word).length } : Fifo) = s.fifo := by
    rw [List.length_nil, Nat.add_zero, Nat.add_zero, Nat.mod_eq_of_lt hfront]
    rfl
  have hfill : fillWords l s.fifo = (withPacket s.fifo l, none) := by
    have := fillWords_packet s.fifo l hring hfront hhead h5 hn hmagic hlen [] l rfl (List.ne_nil_of_length_pos (by omega))
    rwa [hempty] at this
  rw [exec_cmdFifoWrite, execCmdFifoWrite, bar2Write]
  simp only [hup, hdie, hctrl, hboot, hmode, hroom, hwindow, hfill, Bool.not_true, Bool.false_eq_true, bne_self_eq_false,
    decide_false, Bool.or_self, ne_eq, not_true_eq_false, if_false]

/-- A command that waits on the PCIe path is the next to take where it is that path's turn or no other path has one. -/
theorem pathTurn_eq_pcie {s : State} (hturn : s.served % 3 = 2 ∨ (s.mgmtQ = [] ∧ s.hyithQ = [])) (hready : pathReady s .pcie = true) :
    pathTurn s = some 0 := by
  have hpcie : pathReady s (pathOf 0) = true := hready
  by_cases h2 : s.served % 3 = 2
  · have hfirst : (s.served + 1) % 3 = 0 := by omega
    simp [pathTurn, hfirst, hpcie]
  · obtain ⟨hmgmt, hhyith⟩ := hturn.resolve_left h2
    have hframes : pathReady s (pathOf 1) = false := by simp only [pathOf, pathReady, hmgmt]
    have hlinks : pathReady s (pathOf 2) = false := by simp only [pathOf, pathReady, hhyith]
    obtain h0 | h1 : s.served % 3 = 0 ∨ s.served % 3 = 1 := by omega
    · have e1 : (s.served + 1) % 3 = 1 := by omega
      have e2 : (s.served + 2) % 3 = 2 := by omega
      have e3 : (s.served + 3) % 3 = 0 := by omega
      simp [pathTurn, e1, e2, e3, hframes, hlinks, hpcie]
    · have e1 : (s.served + 1) % 3 = 2 := by omega
      have e2 : (s.served + 2) % 3 = 0 := by omega
      simp [pathTurn, e1, e2, hlinks, hpcie]

/-- A packet that passes the tests and is for this device runs the command its opcode names. -/
theorem runPacket_command {i : Instr} {op : Nat} {h : CmdHdr} {w : List Word} {t : Taken} (s : State)
    (hi : Instr.command i = some (op, h, w)) (hh : pktHdr t.path t.words = h) (hop : pktOp t.words = op)
    (hw : pktParams t.words = w) (htests : packetTests h t.words = none) (hdev : h.devno = s.sys.devno) :
    .next (runPacket s t) = exec i s := by
  obtain ⟨u, hu, -⟩ := exec_steps i s
  simp only [runPacket, hh, hop, hw, htests, hdev, runOpcode_command hi, hu, ne_eq, not_true_eq_false, if_false]

/-- Settles O57: the ring holds the packet's words alone, so that the take reads them back as the command. -/
theorem aCommandWrittenIsTheCommandTaken : Obligations.ACommandWrittenIsTheCommandTaken := by
  intro i op h w l s hi hwf ht hpath hl hup hdie hctrl hboot hfree hroom hturn hmode hused hcount hrd hhead hfront hring hdev
  have fit := hdrFits_of_cmdWf hwf
  have hop := command_op hi
  have hlen := fit.length
  have hl : l = cmdWords h op w := hl
  subst hl
  have h5 : 5 ≤ (cmdWords h op w).length := by rw [cmdWords_length]; omega
  have hn : (cmdWords h op w).length ≤ 4096 := by rw [cmdWords_length]; omega
  have hhdr : pktHdr .pcie (cmdWords h op w) = h := hpath ▸ pktHdr_cmdWords fit hop
  generalize hf : withPacket s.fifo (cmdWords h op w) = f
  have hfused : f.used = (cmdWords h op w).length := by subst hf; exact (congrArg (· + _) hused).trans (Nat.zero_add _)
  have hfcount : f.count = 1 := by subst hf; exact congrArg (· + 1) hcount
  have hfrd : f.rd = s.fifo.front := by subst hf; exact hrd.trans hhead
  have hfring : f.ring = ringStore s.fifo.ring 65536 f.rd (cmdWords h op w) := by rw [hfrd]; subst hf; rfl
  refine ⟨f, _, hf ▸ exec_cmdFifoWrite_packet hup hdie hctrl hboot hmode hused hhead hfront hring h5 hn bits_cmdWords_magic
    (bits_cmdWords_length fit), hfcount, rfl, ?_⟩
  have htake (v : State) (hv : v.fifo = s.fifo) : takePacket { v with fifo := f } =
      ({ v with fifo := { f with rd := (s.fifo.front + (cmdWords h op w).length) % 65536, used := 0, count := 0 } },
        cmdWords h op w) := by
    have := take_all v f (cmdWords h op w) (hv ▸ hring) (by omega) h5 hn (bits_cmdWords_length fit) (hv ▸ hfring)
    rwa [hfused, hfcount, hfrd, Nat.sub_self, Nat.sub_self] at this
  have hroom' : canTake { s with fifo := f } h = true := by
    unfold canTake at hroom ⊢
    rw [hpath]
    subst hf
    exact hroom
  have hhas : hasRoom { s with fifo := f } h = true := by
    have : (h.devno == s.sys.devno) = true := beq_iff_eq.mpr hdev
    simp only [hasRoom, hroom', this, Bool.true_or, Bool.and_self]
  have hready : pathReady { s with fifo := f } .pcie = true := by
    simp only [pathReady, htake s rfl, hhdr, hhas, hfcount]
    rfl
  have hturn' : pathTurn { s with fifo := f } = some 0 := pathTurn_eq_pcie hturn hready
  have hfree' : coresFree { s with fifo := f } = true := hfree
  have hhas' : hasRoom { s with fifo := f, served := 0 } h = true := hhas
  rw [exec_commandTake, execCommandTake]
  simp only [hfree', hturn', takePcie, htake { s with served := 0 } rfl, hhdr, hhas', hfcount, pathOf, Bool.not_true,
    Bool.false_eq_true, Nat.one_ne_zero, decide_false, Bool.or_self, ne_eq, not_true_eq_false, if_false]
  exact runPacket_command _ hi hhdr (pktOp_cmdWords hop) pktParams_cmdWords (packetTests_cmdWords fit ht) hdev

end Sys2Proof.Machine
end

section
/-! The settled statements on decisions and safe states: the quick-stop, sequence recovery and the policer, the members of a transaction,
the safe states, and the checks of an image. -/

namespace Sys2Proof.Machine

/-! ### Quick-stop (R134) -/

theorem imgWriteLate_axes (s : State) (a o : Nat) (l : List Byte) : (imgWriteLate s a o l).axes = s.axes := by
  unfold imgWriteLate imgStore
  split <;> rfl

theorem writeCmdLate_axes (s : State) (a : Nat) : (writeCmdLate s a).axes = s.axes := by
  unfold writeCmdLate
  split
  · exact imgWriteLate_axes _ _ _ _
  · rfl

/-- The SETs of an instant write the axis image only. -/
theorem foldl_applySet_axes (l : List Rule) (s : State) : (l.foldl applySet s).axes = s.axes := by
  induction l generalizing s with
  | nil => rfl
  | cons r l ih => exact (ih _).trans (imgWrite_axes _ _ _ _)

/-- u is s with axis a in QSTOP for its cause: what the axis runs may have changed, no other axis has. -/
structure Quickstopped (s : State) (a cause : Nat) (u : State) : Prop where
  state : (axis u a).dyn.state = 4
  cause : (axis u a).dyn.cause = cause
  others : ∀ b, b ≠ a → axis u b = axis s b

variable {s u v : State} {a cause : Nat}

theorem quickstopped_setAxisState (s : State) (a cause : Nat) : Quickstopped s a cause (setAxisState s a 4 cause) where
  state := by rw [setAxisState_same _ _ _ _ (by decide)]
  cause := by rw [setAxisState_same _ _ _ _ (by decide)]
  others := fun _ => setAxisState_other _ _ _ _ _

/-- A change of what the stopped axis runs leaves it stopped. -/
theorem Quickstopped.modRun (q : Quickstopped s a cause u) (f : Axis → AxisRun) :
    Quickstopped s a cause (modAxis u a fun x => { x with run := f x }) := by
  have same : axis (modAxis u a fun x => { x with run := f x }) a = { axis u a with run := f (axis u a) } :=
    axis_modAxis_ne _ _ _ fun e => by
      have off : (axis u a).dyn.state = 0 := congrArg (fun x : Axis => x.dyn.state) e
      rw [q.state] at off
      cases off
  exact ⟨by rw [same]; exact q.state, by rw [same]; exact q.cause, fun b hb => (axis_modAxis_other _ _ _ _ hb).trans (q.others b hb)⟩

theorem Quickstopped.of_axes_eq (q : Quickstopped s a cause u) (h : v.axes = u.axes) : Quickstopped s a cause v :=
  ⟨axis_congr h a ▸ q.state, axis_congr h a ▸ q.cause, fun b hb => axis_congr h b ▸ q.others b hb⟩

/-- A quick-stop request stops an axis in ARMED, RUN, HOLD or DIRECT. -/
theorem quickstopped_qstopReq (s : State) (a cause t : Nat) (h : (axis s a).dyn.state = 1 ∨ (axis s a).dyn.state = 2 ∨
    (axis s a).dyn.state = 3 ∨ (axis s a).dyn.state = 6) : Quickstopped s a cause (qstopReq s a cause t) := by
  unfold qstopReq
  extract_lets x st b sets s1 s2 s3
  have moving : st = 1 ∨ st = 2 ∨ st = 3 ∨ st = 6 := h
  rw [if_neg (by omega)]
  have stop2 : Quickstopped s a cause s2 := (quickstopped_setAxisState s a cause).modRun _
  have stop3 : Quickstopped s a cause s3 := by
    unfold s3
    split
    · exact stop2.modRun _
    · exact stop2
  refine stop3.of_axes_eq ?_
  rw [raiseTraj_axes, foldl_applySet_axes]
  split
  · exact writeCmd_axes _ _
  · exact writeCmdLate_axes _ _

/-- Settles O22. -/
theorem quickStopActsOnMovingAxesOnly : Obligations.QuickStopActsOnMovingAxesOnly := by
  refine ⟨fun s a cause t h => ?still, fun s a cause t h => ?moving⟩
  case still =>
    unfold qstopReq
    exact if_pos (by omega)
  case moving =>
    obtain ⟨state, cause, others⟩ := quickstopped_qstopReq s a cause t h
    exact ⟨state, cause, others⟩

/-! ### Sequence recovery and the policer (R187, R193, R194) -/

/-- The vector algorithm takes a number ahead of the last one or, within the history, one not marked as seen. -/
theorem recovVector_passes (s : State) (f n : Nat) (hany : rcAny (flow s f) = false) :
    (recovVector s f n).2 = true ↔
      -(rcH (flow s f) : Int) < seqDist n (bits (flow s f).w1.toNat 15 0) ∧
      seqDist n (bits (flow s f).w1.toNat 15 0) < rcH (flow s f) ∧
      (seqDist n (bits (flow s f).w1.toNat 15 0) ≤ 0 →
        bit (flow s f).w2.toNat (-(seqDist n (bits (flow s f).w1.toNat 15 0))).toNat = false) := by
  unfold recovVector
  simp only [hany, Bool.false_eq_true, if_false]
  generalize seqDist n (bits (flow s f).w1.toNat 15 0) = d
  by_cases hout : (rcH (flow s f) : Int) ≤ d ∨ d ≤ -(rcH (flow s f) : Int)
  · rw [if_pos hout]
    simp only [Bool.false_eq_true, false_iff]
    omega
  · rw [if_neg hout]
    by_cases hold : d ≤ 0
    · rw [if_pos hold]
      cases hseen : bit (flow s f).w2.toNat (-d).toNat with
      | true => simp [hold]
      | false =>
        simp only [Bool.false_eq_true, if_false, true_iff, implies_true, and_true]
        omega
    · rw [if_neg hold]
      simp only [true_iff]
      omega

/-- The match algorithm takes every number but the last one taken. -/
theorem recovMatch_passes (s : State) (f n : Nat) (hany : rcAny (flow s f) = false) :
    (recovMatch s f n).2 = true ↔ n ≠ bits (flow s f).w1.toNat 15 0 := by
  unfold recovMatch
  simp only [hany, Bool.false_eq_true, if_false]
  by_cases hsame : n = bits (flow s f).w1.toNat 15 0
  · simp [← hsame]
  · simp [hsame]

/-- The policer passes what its tokens cover. -/
theorem police_passes (s : State) (f n : Nat) (hpol : stPol (flow s f) = true) :
    (police s f n).2 = true ↔ n * 256 ≤ (flow (refreshStream s f) f).w7.toNat := by
  unfold police
  simp only [hpol, Bool.not_true, Bool.false_eq_true, if_false]
  by_cases hcover : n * 256 ≤ (flow (refreshStream s f) f).w7.toNat
  · simp [hcover]
  · simp [hcover]

/-- Settles O26. -/
theorem recoveryAndPolicerDecide : Obligations.RecoveryAndPolicerDecide := by
  refine ⟨fun s f n hany => ?takeAny, fun s f n => recovVector_passes s f n, fun s f n => recovMatch_passes s f n,
    fun s f n hpol => ?unpoliced, fun s f n => police_passes s f n⟩
  case takeAny =>
    unfold recovVector recovMatch
    simp only [hany, if_true, and_self]
  case unpoliced =>
    unfold police
    simp only [hpol, Bool.not_false, if_true]

/-! ### Members of a transaction (R298, R299) -/

/-- A command of any opcode that may join a transaction is prepared, opcode by opcode, and its reply delivered. -/
theorem runOpcode_member {op : Nat} {f : TxnOp} {h : CmdHdr} {w : List Word} {s : State} {t : Txn} (hf : txnOpOf op = some f)
    (a : Accepted s op h w) (h0 : h.txn = true) (h1 : findTxn s h h.txid false = some t) :
    runOpcode op h w s = some (.next (deliver (prepareMember op f h w s t).1 h op (prepareMember op f h w s t).2)) := by
  unfold txnOpOf at hf
  split at hf <;> cases hf
  · exact member_valveStartOp a h0 h1
  · exact member_valveSwapOp a h0 h1
  · exact member_valveStopOp a h0 h1
  · exact member_courseStartOp a h0 h1
  · exact member_courseSwapOp a h0 h1
  · exact member_courseResumeOp a h0 h1
  · exact member_courseStopOp a h0 h1
  · exact member_axisStartOp a h0 h1
  · exact member_axisOffOp a h0 h1
  · exact member_flowAddOp a h0 h1
  · exact member_flowWriteOp a h0 h1
  · exact member_flowDeleteOp a h0 h1
  · exact member_flowRecovResetOp a h0 h1
  · exact member_queueWriteOp a h0 h1
  · exact member_serviceSetOp a h0 h1
  · exact member_portShapeOp a h0 h1
  · exact member_twinHandoverOp a h0 h1
  · exact member_sysRootReturnOp a h0 h1

/-- Settles O34: what preparing a member gives in its three cases. -/
theorem membersArePrepared : Obligations.MembersArePrepared := by
  intro op f h w s t hf a h0 h1
  rw [runOpcode_member hf a h0 h1]
  refine ⟨fun hroom hprep => ?prepared, fun r hroom hprep => ?failed, fun hfull => ?full⟩
  case prepared => rw [prepareMember, if_neg (Nat.not_le.mpr hroom), hprep]; rfl
  case failed => rw [prepareMember, if_neg (Nat.not_le.mpr hroom), hprep]; simp only [failMember, h0, if_true]
  case full => rw [prepareMember, if_pos hfull]; simp only [failMember, h0, if_true]

/-! ### Safe states (R339, R340, R343, R344) -/

/-- Settles O37: both end by making the outputs safe and asserting FAULTn. -/
theorem safeStatesReleaseOutputs : Obligations.SafeStatesReleaseOutputs := by
  refine ⟨fun s t => ?package, fun s => ?clockLoss⟩
  case package =>
    unfold packageSafe
    exact ⟨(assert_rest _).1, (assert_rest _).2.1, assert_asserted _⟩
  case clockLoss =>
    have hsafe : (clockLossSafe s).safety.clockSafe = true := (assert_rest _).2.2
    refine ⟨(assert_rest _).1, (assert_rest _).2.1, assert_asserted _, hsafe, fun p => ?_⟩
    simp only [canSend, hsafe, Bool.not_true, Bool.and_false, Bool.false_and]

/-! ### Images (R375, R376) -/

/-- What the header of an image that passes its checks says. -/
theorem headerCheck_none {s : State} {g : List Byte} {n : Nat} (h : headerCheck s g n = none) :
    128 ≤ g.length ∧ leAt g 0 4 = 0x53484E44 ∧ leAt g 4 2 = 1 ∧ (leAt g 6 2 = partNumber s ∨ leAt g 6 2 = 0xFFFF) ∧
    imgTotal g = n ∧ leAt g 13 1 < 4 ∧ bit s.otp.keyProg (leAt g 13 1) = true ∧
    bit s.otp.keyRevoked (leAt g 13 1) = false ∧ bit (leAt g 14 1) (leAt g 13 1) = false ∧
    ofBe (sha256 (sub g 56 64)) = s.otp.keyHash.getD (leAt g 13 1) 0 ∧ s.otp.rollback ≤ leAt g 12 1 := by
  unfold headerCheck at h
  obtain ⟨hformat, h⟩ := ite_none h
  obtain ⟨hpart, h⟩ := ite_none h
  obtain ⟨hsize, h⟩ := ite_none h
  obtain ⟨hkey, h⟩ := ite_none h
  obtain ⟨hrevoked, h⟩ := ite_none h
  obtain ⟨hhash, h⟩ := ite_none h
  obtain ⟨hself, h⟩ := ite_none h
  obtain ⟨hroll, -⟩ := ite_none h
  simp only [Bool.or_eq_true, Bool.not_eq_true', decide_eq_true_eq, not_or, Bool.not_eq_false] at hkey
  exact ⟨by omega, by omega, by omega, by omega, by omega, by omega, hkey.1, by simpa using hrevoked, by simpa using hself,
    by simpa using hhash, by omega⟩

/-- Settles O40: an image passes where its header does, its signature and its digest. -/
theorem imagesThatPassAreSigned : Obligations.ImagesThatPassAreSigned := by
  intro s g h
  unfold imageCheck at h
  cases hheader : headerCheck s g g.length with
  | some c => rw [hheader] at h; cases h
  | none =>
    rw [hheader] at h
    obtain ⟨hsign, h⟩ := ite_none h
    obtain ⟨hdigest, -⟩ := ite_none h
    obtain ⟨hlen, hmagic, hformat, hpart, htotal, hslot, hprog, hrev, hself, hhash, hroll⟩ := headerCheck_none hheader
    exact ⟨hlen, hmagic, hformat, hpart, htotal, hslot, hprog, hrev, hself, hhash, hroll, by simpa using hsign, by simpa using hdigest⟩

end Sys2Proof.Machine
end

section
/-! The settled statements on what refusals, reports and DDR4 leave unchanged. -/

namespace Sys2Proof.Machine

/-! ### Commands that do not pass the gate (R275, R284, R285, R293, R298, R299, R368, R369) -/

section

variable {s : State} {h : CmdHdr} {op : Nat} {w : List Word}

/-- No command starts while the cores are not free or its reply has no room. -/
theorem gateCmd_of_waits (hw : coresFree s = false ∨ canTake s h = false) : gateCmd s h op w = (s, false) := by
  have hclosed : (coresFree s && canTake s h) = false := by
    obtain hf | ht := hw
    · rw [hf, Bool.false_and]
    · rw [ht, Bool.and_false]
  simp only [gateCmd, hclosed, Bool.not_false, if_true]

variable (hfree : coresFree s = true) (htake : canTake s h = true)
include hfree htake

/-- A command for another device goes on its way, where that has room. -/
theorem gateCmd_of_other (htarget : targetAgrees h = true) (hdev : h.devno ≠ s.sys.devno) :
    gateCmd s h op w = (if hasRoom s h then routePacket s h op 0 (cmdBytes h op w) else s, false) := by
  simp only [gateCmd, hfree, htake, htarget, bne_iff_ne.mpr hdev, Bool.and_self, Bool.not_true, Bool.false_eq_true, if_false, if_true]

variable (hdev : h.devno = s.sys.devno)
include hdev

omit hfree htake in
/-- A command that names this device is not routed. -/
theorem here_of_devno : (h.devno != s.sys.devno) = false := by rw [hdev, bne_self_eq_false]

theorem gateCmd_of_header {r : Reply} (htests : headerTests s h op w = some r) :
    gateCmd s h op w = (deliver (authEvent s op r) h op r, false) := by
  simp only [gateCmd, hfree, htake, here_of_devno hdev, htests, Bool.and_self, Bool.and_false, Bool.not_true, Bool.false_eq_true,
    if_false]

variable (htests : headerTests s h op w = none)
include htests

theorem gateCmd_of_txnUnknown (htxn : h.txn = true) (hnone : findTxn s h h.txid false = none) :
    gateCmd s h op w = (deliver s h op (.err stTxnUnknown), false) := by
  simp only [gateCmd, hfree, htake, here_of_devno hdev, htests, htxn, hnone, Option.isNone_none, Bool.and_self, Bool.and_false,
    Bool.not_true, Bool.false_eq_true, if_false, if_true]

variable (hopen : h.txn = true → (findTxn s h h.txid false).isSome = true)

omit hfree htake hdev htests in
include hopen in
/-- A command of no transaction, or of an open one, is not unknown. -/
theorem not_txnUnknown_of_open : (h.txn && (findTxn s h h.txid false).isNone) = false := by
  cases htxn : h.txn with
  | false => rfl
  | true => rw [Bool.true_and, Option.isNone_eq_false_iff]; exact hopen htxn

include hopen

theorem gateCmd_of_busy (hbusy : busy s h (unitsIn s op h w) = true) :
    gateCmd s h op w = (deliver (failMember s h op w stBusy) h op (.err stBusy), false) := by
  simp only [gateCmd, hfree, htake, here_of_devno hdev, htests, not_txnUnknown_of_open hopen, hbusy, Bool.and_self, Bool.and_false,
    Bool.not_true, Bool.false_eq_true, if_false, if_true]

theorem gateCmd_of_stopped {d : Nat} (hbusy : busy s h (unitsIn s op h w) = false) (hstop : stoppedTarget s op h w = some d) :
    gateCmd s h op w = (deliver (failMember (accessErr s d) h op w stStopped) h op (.err stStopped), false) := by
  simp only [gateCmd, hfree, htake, here_of_devno hdev, htests, not_txnUnknown_of_open hopen, hbusy, hstop, Bool.and_self,
    Bool.and_false, Bool.not_true, Bool.false_eq_true, if_false]

end

/-- An authority event only reports. -/
theorem authEvent_reports (s : State) (op : Nat) (r : Reply) : OnlyReports s (authEvent s op r) := by
  unfold authEvent
  exact .ite (raise_reports _ _ _) (.refl s)

/-- Settles O53: what the gate answers is what the command is. -/
theorem refusedCommandsOnlyReply : Obligations.RefusedCommandsOnlyReply := by
  refine ⟨fun i op h w s r hi hfree htake _ hdev htests => ⟨?header, ?onlyReplies⟩,
    fun i op h w s hi hfree htake htarget hdev hroom => ?routed, fun i op h w s hi hfree htake htarget hdev hroom => ?waits,
    fun i op h w s hi hfree htake _ hdev htests htxn hnone => ?unknown,
    fun i op h w s hi hfree htake _ hdev htests hopen hbusy => ?busy,
    fun i op h w s d hi hfree htake _ hdev htests hopen hbusy hstop => ?stopped, fun i op h w s hi hw => ?closed⟩
  case header => exact exec_stopped hi (gateCmd_of_header hfree htake hdev htests)
  case onlyReplies => exact (authEvent_reports s op r).replies.trans (deliver_replies _ _ _ _)
  case routed => exact exec_stopped hi (by rw [gateCmd_of_other hfree htake htarget hdev, hroom]; rfl)
  case waits => exact exec_stopped hi (by rw [gateCmd_of_other hfree htake htarget hdev, hroom]; rfl)
  case unknown => exact exec_stopped hi (gateCmd_of_txnUnknown hfree htake hdev htests htxn hnone)
  case busy => exact exec_stopped hi (gateCmd_of_busy hfree htake hdev htests hopen hbusy)
  case stopped => exact exec_stopped hi (gateCmd_of_stopped hfree htake hdev htests hopen hbusy hstop)
  case closed => exact exec_stopped hi (gateCmd_of_waits hw)

/-! ### Reports (R237, R282, R293, R294, R331, R392) -/

/-- Settles O54. -/
theorem reportsOnlyReport : Obligations.ReportsOnlyReport :=
  ⟨raise_reports, count_reports, count64_reports, deliver_replies⟩

/-! ### DDR4 -/

/-- A byte of what was stored is read back. -/
theorem ddrGet_ddrWrite (s : State) (d a : Nat) (l : List Byte) (hwf : Memory.wf s.ddr = true) (i : Nat) (hi : i < l.length) :
    ddrGet (ddrWrite s d a l) d (a + i) = l[i] := by
  have hmem : (l[i], i) ∈ l.zipIdx := by simp [List.mem_zipIdx_iff_getElem?, hi]
  have hapart : l.zipIdx.Pairwise fun x y => d * 2 ^ 36 + a + x.2 ≠ d * 2 ^ 36 + a + y.2 := by
    rw [List.pairwise_iff_getElem]
    intro j k hj hk hjk
    simp only [List.getElem_zipIdx]
    omega
  have := Tbl.look_foldl_same (fun k => d * 2 ^ 36 + a + k) 0 l.zipIdx s.ddr hwf hapart (l[i], i) hmem
  rw [ddrGet, ← Nat.add_assoc]
  exact this

/-- Settles O55: the bytes stored lie at different addresses. -/
theorem ddr4HoldsWhatWasStored : Obligations.Ddr4HoldsWhatWasStored := by
  refine ⟨fun s d a l hwf => ?same, fun s d a l e b hapart => ?other, ddrWrite_wf⟩
  case same =>
    refine List.ext_getElem (by simp [ddrRead]) fun i _ hi => ?_
    simpa [ddrRead] using ddrGet_ddrWrite s d a l hwf i hi
  case other => exact ddrCells_other _ _ _ _ _ (by omega)

end Sys2Proof.Machine
end

section
/-! The settled statements on identity, clocks and power, with what a command that passes the gate answers. -/

namespace Sys2Proof.Machine

section

variable {s t : State} {op : Nat} {h : CmdHdr} {w : List Word} {o : Out} {r : Reply}

/-- An accepted command answers what its body says. -/
theorem Accepted.answers (a : Accepted s op h w) {b : Body} (ho : o = .next (runCmd s h op w b)) (hb : b h w s = (t, r)) :
    o = .next (deliver t h op r) := by
  rw [ho, a.run, hb]

/-- An accepted command that may reply later replies at once. -/
theorem Accepted.answersNow (a : Accepted s op h w) {b : CmdHdr → List Word → State → State × Option Reply}
    (ho : o = .next (runLater s h op w b)) (hb : b h w s = (t, some r)) : o = .next (deliver t h op r) := by
  rw [ho, a.later, hb]

/-- An accepted command that may reply later has its effect and replies later. -/
theorem Accepted.answersLater (a : Accepted s op h w) {b : CmdHdr → List Word → State → State × Option Reply}
    (ho : o = .next (runLater s h op w b)) (hb : b h w s = (t, none)) : o = .next t := by
  rw [ho, a.later, hb]

/-- A posted write that reaches its register has its effect. -/
theorem Reached.writes {a : Nat} (hr : Reached s a) {f : State → State} (ho : o = .next (busWrite s a f)) (hf : f s = t) :
    o = .next t := by
  rw [ho, hr.write, hf]

end

/-! ### Identity, the clock output and the trim (R306, R355, R363) -/

/-- Settles O1. -/
theorem clockCommandsTakeEffect : Obligations.ClockCommandsTakeEffect := by
  refine ⟨fun h w s a => ?idQuery, fun h w s a => ?echo, fun h w s a => ?clockQuery,
    fun h w s a hres hsrc hrate => ?clkoutSet, fun h w s a hbad => ?clkoutRefused,
    fun v s hr hsrc hrate => ?clkoutWrite, fun v s hr hrate => ?clkoutIgnored,
    fun h w s a hres hmarks hrun href => ?trimRefclk,
    fun h w s a hres hmarks hlow hhigh hport hon hrole hrun => ?trimMarks,
    fun h w s a hres hmarks hbusy => ?trimBusy, fun h w s a hres hmarks hhigh hport => ?trimAbsent⟩
  case idQuery => exact a.answers rfl rfl
  case echo => exact a.answers rfl rfl
  case clockQuery => exact a.answers rfl rfl
  case clkoutSet => exact a.answers rfl (by simp [bodyClkoutSet, clkoutOk, setClock, hres, hsrc, hrate])
  case clkoutRefused =>
    refine a.answers rfl (if_pos ?_)
    simp only [clkoutOk, Bool.and_eq_false_iff, decide_eq_false_iff_not]
    omega
  case clkoutWrite => exact hr.writes rfl (by simp [clkoutOk, setClock, hsrc, hrate])
  case clkoutIgnored => exact hr.writes rfl (by simp [clkoutOk, hrate])
  case trimRefclk => exact a.answers rfl (by simp [bodyReedTrim, hres, hmarks, hrun, href])
  case trimMarks =>
    refine a.answers rfl ?_
    have hin : ¬(520 ≤ fld w 0 10 1) := by omega
    simp only [bodyReedTrim, hres, hmarks, hin, hlow, hport, hon, hrole, hrun]
    simp
  case trimBusy => exact a.answers rfl (by simp [bodyReedTrim, hres, hmarks, hbusy])
  case trimAbsent =>
    have hin : ¬(520 ≤ fld w 0 10 1) := by omega
    exact a.answers rfl (by simp [bodyReedTrim, hres, hmarks, hin, hport])

/-! ### Parking and resets (R28, R364, R368, R370) -/

section

variable {s t : State} {h : CmdHdr} {w : List Word} (a : Accepted s 0x0204 h w)
include a

/-- PARK_SET answers at once where it opens no gate handshake. -/
theorem Accepted.parkAnswers {r : Reply} (hp : parkSet s h w = (t, some r)) :
    exec (.parkSet h w) s = .next (deliver t h 0x0204 r) := by
  simp only [exec_parkSet, execParkSet, a.gate, hp, Bool.not_true, Bool.false_eq_true, if_false]

/-- PARK_SET that opens a gate handshake leaves its reply to its end. -/
theorem Accepted.parkWaits (hp : parkSet s h w = (t, none)) : exec (.parkSet h w) s = .next t := by
  simp only [exec_parkSet, execParkSet, a.gate, hp, Bool.not_true, Bool.false_eq_true, if_false]

end

/-- Settles O2. -/
theorem parkAndResetCommandsTakeEffect : Obligations.ParkAndResetCommandsTakeEffect := by
  refine ⟨fun h w s a hw hscope hheld hway hstate hlow => ?park, fun h w s a hw hscope hheld hway hstate => ?unpark,
    fun h w s y a hw hscope hheld hway hstate hlow => ?parkRefused, fun h w s a hw hrole hlow => ?standby,
    fun h w s a hw hscope => ?region, fun h w s a hw hscope => ?pkg, fun h w s a hw hscope hpart hdie => ?die,
    fun h w s a hw hscope hpart hdie hlock => ?barred⟩
  case park =>
    exact a.parkWaits (by
      simp [parkSet, parkKind, scopeState, openGate, fld, bits, bit, hw, hscope, hheld, hway, hstate, hlow])
  case unpark =>
    exact a.parkAnswers (by simp [parkSet, parkKind, scopeState, fld, bits, bit, hw, hscope, hheld, hway, hstate])
  case parkRefused =>
    exact a.parkAnswers (by
      simp [parkSet, parkKind, scopeState, scopeTarget, fld, bits, bit, hw, hscope, hheld, hway, hstate, hlow])
  case standby =>
    simp only [exec_standbyEnter, execStandbyEnter, a.gate, hw, hrole, hlow, openGate]
    simp
  case region => exact a.answers rfl (by simp [bodyResetIssue, issueKind, hw, hscope])
  case pkg => exact a.answers rfl (by simp [bodyResetIssue, issueKind, hw, hscope])
  case die => exact a.answers rfl (by simp [bodyResetIssue, issueKind, dieBarred, hw, hscope, hpart, hdie])
  case barred => exact a.answers rfl (by simp [bodyResetIssue, dieBarred, hw, hscope, hpart, hdie, hlock])

end Sys2Proof.Machine
end

section
/-! The settled statements on the events of clocks, gates and low-power states. -/

namespace Sys2Proof.Machine

/-! ### Clocks (R355, R358 to R362) -/

/-- The end of a clock timer is an instant of line time: the clocks stay. -/
@[simp] theorem timerEnd_clock (s : State) : (timerEnd s).clock = s.clock := by
  unfold timerEnd
  split <;> rfl

theorem OnlyReports.trimRun {s t : State} (h : OnlyReports s t) : t.trimRun = s.trimRun := by
  unfold OnlyReports at h
  rw [h]

/-- The end of a trim leaves none running. -/
theorem trimEnd_trimRun (s : State) (ok : Bool) : (trimEnd s ok).trimRun = none := by
  unfold trimEnd
  exact (raise_reports _ _ _).trimRun

/-- Settles O3. -/
theorem clockEventsTakePlace : Obligations.ClockEventsTakePlace := by
  refine ⟨fun s hst hreed href => ?oscRefclk, fun s hst hreed href => ?oscReed, fun s hst hreed => ?oscNone,
    fun s hst hdue => ?pllLock, fun s hst htried href hreed => ?lockTimeout, fun s hst hdiv => ?rampStep,
    fun s hst hdiv => ?rampEnd, fun s hst hreed => ?refclk, fun s hreed htrip => ?reedGood, fun s hreed => ?reedLost,
    fun s hst => ?pllLost, fun s hr hst hreed href hcourses => ?return_, fun s hr href => ?returnRefused,
    fun c s => ?meters, fun e s z hz hport => ?trimRound, fun s z x y hz hy hres => ?trimDone, fun e s hz => ?noTrim⟩
  case oscRefclk => simp [execOscWaitEnd, hst, hreed, href]
  case oscReed => simp [execOscWaitEnd, hst, hreed, href]
  case oscNone => simp [execOscWaitEnd, hst, hreed, enterWait, setClock]
  case pllLock => simp [execPllLock, hst, hdue, setClock]
  case lockTimeout => simp [execPllLockTimeout, hst, htried, href, hreed]
  case rampStep => simp [execRampStep, hst, hdiv, setClock]
  case rampEnd => simp [execRampStep, hst, hdiv, setClock]
  case refclk => simp [execRefclkQualified, hst, hreed, setClock]
  case reedGood => simp [execReedQual, hreed, htrip, setClock]
  case reedLost => simp [execReedQual, hreed]
  case pllLost => simp [execClockTrip, tripClock, monitored, tripState, tripSlow, tripStops, hst, setClock]
  case return_ =>
    have hpll : (s.clock.state == .lock || s.clock.state == .ramp || s.clock.state == .run) = true := by
      obtain h | h | h := hst <;> rw [h] <;> rfl
    exact hr.writes rfl (by simp only [hpll, hreed, href, hcourses, and_self, if_true])
  case returnRefused => exact hr.writes rfl (by simp [href])
  case meters => rfl
  case trimRound => simp [execReedTrimRound, hz, hport]
  case trimDone => simp [trimRound, hz, hres, trimEnd_trimRun]
  case noTrim => simp [execReedTrimRound, hz]

/-! ### Gates and low-power states (R367 to R370, R373) -/

/-- Settles O4. -/
theorem gateAndLowPowerEventsTakePlace : Obligations.GateAndLowPowerEventsTakePlace := by
  refine ⟨fun s r t h hgate ht => ?regionDone, fun s d t h hgate ht hd => ?dieDone, fun s t h hgate ht => ?standbyDone,
    fun s r t h hgate => ?timeout, fun s r t h a v b hgate hup hblk hreg hst => ?heldWrite,
    fun s r t h a hgate hup hblk hreg hst => ?heldRead, fun s hr hheld hleaving => ?wake,
    fun s r t hleaving => ?regionUnparks, fun s d t hleaving => ?dieUnparks⟩
  case regionDone => simp [execGateHandshakeDone, hgate, ht, gateOp]
  case dieDone => simp [execGateHandshakeDone, hgate, ht, hd, gateOp]
  case standbyDone => simp [execGateHandshakeDone, hgate, ht, gateOp]
  case timeout => simp [execGateHandshakeTimeout, hgate, gateOp, scopeTarget]
  case heldWrite => simp [execRegisterWrite, heldOr, accHeld, accRegion, coversRegion, hgate, hup, hblk, hreg, hst]
  case heldRead => simp [execCounterLoRead, heldOr, accHeld, accRegion, coversRegion, hgate, hup, hblk, hreg, hst]
  case wake => exact hr.writes rfl (by simp [hheld, hleaving])
  case regionUnparks => simp [execUnparkDone, hleaving, setScope, scopeTarget]
  case dieUnparks => simp [execUnparkDone, hleaving, setScope, scopeTarget]

end Sys2Proof.Machine
end

section
/-! The settled statements on resets and on the two control-core pairs. -/

namespace Sys2Proof.Machine

/-! ### Resets (R28, R364 to R366) -/

/-- Settles O5. -/
theorem resetsTakePlace : Obligations.ResetsTakePlace := by
  refine ⟨fun s r t hat => ?beginRegion, fun s t hat hpart hactive => ?beginDie, fun s r t hends => ?releaseRegion,
    fun s t hends => ?releasePkg, fun h w s a hoff => ?portReset, fun h w s a hrun => ?portRefused,
    fun s k e b hends habs => ?absorbed, fun o b s => ?por, fun o b s hends => ?pinLow, fun o b s hheld hclk hends => ?pinHigh,
    fun s hfill => ?perstLow, fun s hheld hboot hpci => ?perstHigh, fun s => rfl, fun s => rfl⟩
  case beginRegion => simp [execResetBegin, plainResetBegin, releasing, issueReset, hat]
  case beginDie => simp [execResetBegin, plainResetBegin, releasing, issueReset, hat, hpart, hactive, b2n]
  case releaseRegion => simp [execResetRelease, setScope, hends]
  case releasePkg => simp [execResetRelease, hends]
  case portReset => exact a.answers rfl (by simp [bodyPortReset, hoff])
  case portRefused => exact a.answers rfl (by simp [bodyPortReset, hrun])
  case absorbed => simp [beginReset, hends, habs]
  case por => exact ⟨_, rfl, rfl, rfl, rfl, rfl, rfl, rfl, rfl, rfl, rfl, rfl, rfl, rfl⟩
  case pinLow => simp [execPinReset, hends]
  case pinHigh => simp [execPinReset, hheld, hclk, hends]
  case perstLow => simp [execPerstn, hfill]
  case perstHigh => simp [execPerstn, hheld, hboot, hpci]

/-! ### The two control-core pairs (R28, R373, R388) -/

/-- Settles O6. -/
theorem controlPassesBetweenThePairs : Obligations.ControlPassesBetweenThePairs := by
  refine ⟨fun s t hwait => ?alone, fun s t d hwait => ?withReset, fun s t d hwait => ?withPark,
    fun s hpart herr hactive hwait => ?memoryError, fun s hpart => ?mismatch, fun s hpart => ?onePair,
    fun s hrejoin hdies herr hactive => ?rejoin⟩
  case alone => simp [execControlHandover, plainControlHandover, releasing, hwait]
  case withReset => simp [execControlHandover, plainControlHandover, releasing, hwait]
  case withPark => simp [execControlHandover, plainControlHandover, releasing, hwait]
  case memoryError => simp [execCoreMemoryError, setLockstep_power, hpart, herr, hactive, hwait]
  case mismatch => simp [execLockstepMismatch, hpart]
  case onePair => simp [execLockstepMismatch, hpart]
  case rejoin =>
    simp only [exec_lockstepRejoin, execLockstepRejoin, hrejoin, hdies, herr, hactive, setLockstep_power]
    simp

end Sys2Proof.Machine
end

section
/-! The settled statements on ports, lanes and links, pauses and DDR4. -/

namespace Sys2Proof.Machine

/-! ### Ports (R237, R239, R244, R245, R248) -/

/-- A single register of a port that is a plain counter reads from the register file. -/
theorem portReg_broadcast (s : State) (p : Nat) : portReg s p 0x108 = reg s (portBase p + 0x108) := rfl

/-- A port's new settings are in force, the ones before kept with the instant of the change. -/
theorem port_putSettings (p : Nat) (n : PortSet) (s : State) :
    (port (putSettings s p n) p).set = n ∧ (port (putSettings s p n) p).oldSets.head? = some (now16 s, (port s p).set) := by
  unfold putSettings
  rw [port_modPort_ne]
  · exact ⟨rfl, rfl⟩
  · exact fun h => List.cons_ne_nil _ _ (congrArg Port.oldSets h)

/-- SLEEP is entered at once where no frame is in transmission and none is cut. -/
theorem sleepEnd_idle {p : Nat} {s : State} (hsleep : (port s p).link.sleeping = true) (htx : (port s p).txd.tx = none)
    (hpend : (port s p).txd.pend = none) :
    ∃ u, (sleepEnd s p = u ∨ sleepEnd s p = modLane u (laneOf p) fun l =>
        { l with off := true, lock := false, recal := none, retry := false }) ∧
      u = modPort (clearPort true (.port p) (setLink s p false 0) p) p fun x =>
        { x with link := { x.link with phySpeed := none, phyUp := false } } := by
  refine ⟨_, ?_, rfl⟩
  simp only [sleepEnd, hsleep, htx, hpend, Option.isSome_none, Bool.not_true, Bool.or_false, Bool.false_eq_true, if_false]
  split
  · exact .inr rfl
  · exact .inl rfl

/-- Settles O7. -/
theorem portCommandsTakeEffect : Obligations.PortCommandsTakeEffect := by
  refine ⟨fun h w s a => ?query, fun h w s a hclear hword hone hmax hend => ?countRead, fun h w s a hclear hofs hone => ?countClear,
    fun h w s a hok hlive => ?setLive, port_putSettings, fun h w s a hok hre hoff htime => ?setRestart,
    fun h w s a hok hre hrun => ?setRefused, fun h w s d a hbad => ?setInvalid, fun p s hp => ?restarted,
    fun h w s a hoff hwake => ?sleep, fun p s hsleep hdown => ?down, fun p s h => ?notDown, fun p s h => ?sending,
    fun p s hsleep htx hpend => sleepEnd_idle hsleep htx hpend, fun h w s a hrun => ?sleepRefused,
    fun h w s a hsleep hon => ?wake, fun h w s a hsleep hoff => ?wakeLane⟩
  case query => exact a.answers rfl rfl
  case countRead =>
    have hin : ¬0x1000 ≤ prm w 1 := by omega
    exact a.answers rfl (by simp [bodyPortCountRead, fld, bits, bit, hclear, hword, hin, Function.comp_def]; omega)
  case countClear =>
    exact a.answers rfl (by
      simp [bodyPortCountRead, fld, bits, bit, hclear, hofs, hone, counterWords, isCounter, portReg_broadcast])
  case setLive => exact a.answers rfl (by simp [bodyPortSet, hok, hlive])
  case setRestart => exact a.answers rfl (by simp [bodyPortSet, hok, hre, hoff, htime])
  case setRefused => exact a.answers rfl (by simp [bodyPortSet, hok, hre, hrun])
  case setInvalid => exact a.answers rfl (by simp [bodyPortSet, hbad])
  case restarted => simp [execPcsRestartDone, hp]
  case sleep => exact a.answers rfl (by simp [bodyPortSleep, hoff, hwake])
  case down => simp [sleepDown, hsleep, hdown]
  case notDown =>
    rcases h with hwake | hup
    · simp [sleepDown, hwake]
    · simp [sleepDown, hup]
  case sending =>
    rcases h with htx | hpend
    · simp [sleepEnd, htx]
    · simp [sleepEnd, hpend]
  case sleepRefused => exact a.answers rfl (by simp [bodyPortSleep, parkRefused, hrun])
  case wake => exact a.answers rfl (by simp [bodyPortWake, hsleep, hon])
  case wakeLane => exact a.answers rfl (by simp [bodyPortWake, hsleep, hoff])

/-! ### Lanes and links (R228 to R232, R246, R249, R413, R429) -/

/-- A change of a port that leaves its course and its course settings leaves every course. -/
theorem courseOf_modPort (s : State) (p q : Nat) (f : Port → Port) (hc : ∀ x, (f x).ccfg = x.ccfg) (hd : ∀ x, (f x).course = x.course)
    (h : f (port s p) ≠ {}) : courseOf (modPort s p f) q = courseOf s q := by
  have hown : own (modPort s p f) q = own s q := by
    simp only [own, port_modPort_proj Port.ccfg s p _ f hc h]
  rw [courseOf, courseOf, hown, port_modPort_proj Port.course s p _ f hd h]

/-- A port that has taken a PHY's control word with the link up. -/
def takenPort (v : Nat) (d : Bool) (x : Port) : Port :=
  { x with link := { x.link with phySpeed := some v, fullDuplex := d, phyUp := true } }

/-- The state in which that word has been taken. -/
def takenWord (s : State) (p v : Nat) (d : Bool) : State :=
  modLane (modPort s p (takenPort v d)) (laneOf p) fun l => { l with lock := true }

theorem takenPort_ne (v : Nat) (d : Bool) (x : Port) : takenPort v d x ≠ {} :=
  fun h => Bool.noConfusion (show true = false from congrArg (fun x => x.link.phyUp) h)

section

variable {s : State} {p v : Nat} {d : Bool}

theorem port_takenWord : port (takenWord s p v d) p = takenPort v d (port s p) :=
  port_modPort_ne s p _ (takenPort_ne v d _)

theorem courseOf_takenWord : courseOf (takenWord s p v d) p = courseOf s p :=
  courseOf_modPort s p p _ (fun _ => rfl) (fun _ => rfl) (takenPort_ne v d _)

/-- In MODE 0 a control word that arrives is taken, and then the link follows it. -/
theorem exec_takenWord (hp : p < 512) (hmode : pMode (port s p) = 0) (hv : v < 3) (hcan : canLink s p = true) :
    exec (.inBandControlWord p v d true) s = .next (sleepDown (controlLink (takenWord s p v d) p) p) := by
  have htaken : (512 ≤ p || pMode (port s p) != 0 || 3 ≤ v || !canLink s p) = false := by simp [hmode, hcan]; omega
  rw [exec_inBandControlWord, execInBandControlWord, htaken]
  rfl

variable (hp : p < 512) (hmode : pMode (port s p) = 0) (hcan : canLink (takenWord s p v d) p = true)
  (hlock : (lane (takenWord s p v d) (laneOf p)).lock = true)
include hp hmode hcan hlock

/-- After a good control word the link is down with its event where duplex or speed bar it, else up at the PHY's speed. -/
theorem controlLink_takenWord : controlLink (takenWord s p v d) p =
    if !d then raisePort (setLink (takenWord s p v d) p false 0) p 0x024 2
    else if ((courseOf s p).state != 0 || (port s p).valve.state != 0) && v != pSpeed (port s p) then
      raisePort (setLink (takenWord s p v d) p false 0) p 0x024 128
    else setLink (takenWord s p v d) p true (v + 1) := by
  have hin : ¬512 ≤ p := by omega
  have hmode' : pMode (port (takenWord s p v d) p) = 0 := by rw [port_takenWord]; exact hmode
  have hwrong : speedWrong (takenWord s p v d) p =
      (((courseOf s p).state != 0 || (port s p).valve.state != 0) && v != pSpeed (port s p)) := by
    rw [speedWrong, courseOf_takenWord, port_takenWord]; rfl
  simp only [controlLink, hwrong, hmode', hcan, hlock, hin]
  simp [port_takenWord, takenPort]

end

/-- Settles O8. -/
theorem lanesAndLinksChange : Obligations.LanesAndLinksChange := by
  refine ⟨fun h w s a hres0 hres1 hpre hpost hswing => ?laneSet, fun h w s a hkind hfull => ?adaptFull,
    fun h w s a hkind hother => ?adapt, fun h w s a hkind hoff => ?recal, fun q s k hl hk => ?recalOk,
    fun q s k hl hk => ?recalFailed, fun q s hl hretry => ?retry, fun q s hq hl => ?alignLoss,
    fun p r s hp hlock => ?linkDown, fun p s hp hup => ?uplinkDown, fun p r s hp hcan hup => ?uplinkUp,
    fun p v s u hp hmode hv hcan hu hcanu hlock => ⟨fun hcourse hvalve => ?wordUp, fun hrun hwrong => ?wordWrong⟩,
    fun p v s u hp hmode hv hcan hu hcanu hlock => ?wordHalf, fun p v d l s hp => ?wordUplink⟩
  case laneSet =>
    exact a.answers rfl (by simp [bodyLaneSet, hres0, hres1, hpre, hpost, hswing])
  case adaptFull => exact a.answers rfl (by simp [bodyLaneRecal, fld, bits, bit, modLane, hkind, hfull])
  case adapt => exact a.answers rfl (by simp [bodyLaneRecal, fld, bits, bit, modLane, hkind, hother])
  case recal => exact a.answers rfl (by simp [bodyLaneRecal, fld, bits, bit, hkind, hoff])
  case recalOk => simp [execRecalDone, hl, hk, modLane]
  case recalFailed => simp [execRecalDone, hl, hk]
  case retry => simp [execRecalRetry, hl, hretry]
  case alignLoss => simp [execLaneAlignLoss, hl, hq]
  case linkDown =>
    have hkeep : (isUplink p && !r) = false := by rcases hlock with h | h <;> simp [h]
    simp [execLinkStateChange, faultSeen, hp, hkeep]
  case uplinkDown => simp [execLinkStateChange, faultSeen, hp, hup]
  case uplinkUp => simp [execLinkStateChange, hp, hcan, hup]
  case wordUp =>
    subst hu
    rw [exec_takenWord hp hmode hv hcan]
    exact congrArg (fun t => Host.Outcome.next (sleepDown t p)) ((controlLink_takenWord hp hmode hcanu hlock).trans (by simp [hcourse, hvalve]; rfl))
  case wordWrong =>
    subst hu
    rw [exec_takenWord hp hmode hv hcan]
    have hbusy : ((courseOf s p).state != 0 || (port s p).valve.state != 0) = true := by simpa using hrun
    exact congrArg (fun t => Host.Outcome.next (sleepDown t p)) ((controlLink_takenWord hp hmode hcanu hlock).trans (by simp [hbusy, hwrong]; rfl))
  case wordHalf =>
    subst hu
    rw [exec_takenWord hp hmode hv hcan]
    exact congrArg (fun t => Host.Outcome.next (sleepDown t p)) (controlLink_takenWord hp hmode hcanu hlock)
  case wordUplink => simp [execInBandControlWord, hp]

/-! ### Masks of bits -/

/-- A mask of n bits lies below 2^n. -/
theorem mask_lt (g : Nat → Bool) (n : Nat) : ((List.range n).filter g).foldl (fun a c => a + 2 ^ c) 0 < 2 ^ n := by
  induction n with
  | zero => simp
  | succ n ih =>
    rw [List.range_succ, List.filter_append, List.foldl_append, Nat.pow_succ]
    cases hg : g n
    · simp [hg]; omega
    · simp [hg]; omega

/-- Bit c of a mask says whether c is chosen. -/
theorem testBit_mask (g : Nat → Bool) (n c : Nat) (hc : c < n) :
    (((List.range n).filter g).foldl (fun a c => a + 2 ^ c) 0).testBit c = g c := by
  induction n with
  | zero => omega
  | succ n ih =>
    have hlt := mask_lt g n
    rw [List.range_succ, List.filter_append, List.foldl_append]
    generalize ((List.range n).filter g).foldl (fun a c => a + 2 ^ c) 0 = m at *
    rcases Nat.lt_succ_iff_lt_or_eq.mp hc with h | rfl
    · cases hg : g n
      · simpa [hg] using ih h
      · simpa [hg, Nat.add_comm m, Nat.testBit_two_pow_add_gt h] using ih h
    · cases hg : g c
      · simpa [hg] using Nat.testBit_lt_two_pow hlt
      · simp [hg, Nat.add_comm m, Nat.testBit_two_pow_add_eq, Nat.testBit_lt_two_pow hlt]

/-- The model's bit is the library's. -/
theorem bit_eq_testBit (x i : Nat) : bit x i = x.testBit i := by
  rw [bit, Nat.testBit_eq_decide_div_mod_eq]
  by_cases h : x / 2 ^ i % 2 = 1 <;> simp [h]

/-! ### Pauses and DDR4 (R239 to R242, R414) -/

/-- Settles O9. -/
theorem pausesAndDdrEventsTakeEffect : Obligations.PausesAndDdrEventsTakeEffect := by
  refine ⟨fun p s t n r hp hq => ?pause, fun p s t b r hp hq => ?pfc, fun c s x hc hexempt => ?exempt, fun p c s hrun => ?expire,
    fun p c s b hsince hon hdue => ?watchdog, fun p c s harmed hxoff => ?refresh, fun d s hd => ?alert, fun d s hd => ?persists,
    fun d b s hd => ?eventn⟩
  case pause => simp [execPauseReceive, hp, hq]
  case pfc => simp [execPfcReceive, hp, hq]
  case exempt =>
    rw [pausedClass, pausedMask, bit_eq_testBit, testBit_mask _ _ _ hc, hexempt]
    rfl
  case expire => simp [execPauseTimerExpire, hrun]
  case watchdog =>
    have hn : ¬(pPauseWd (port s p) = 0) := by omega
    simp [execPauseWd, hsince, hn, hdue]
  case refresh => simp [execPauseRefresh, harmed, hxoff]
  case alert => simp [execDdrAlert, hd]
  case persists => simp [execDdrAlert, hd]
  case eventn => simp [execDdrEventn, hd]

end Sys2Proof.Machine
end

section
/-! The settled statements on line time, timestamp rings, pulses, pins and captures. -/

namespace Sys2Proof.Machine

/-! ### The time base (R50 to R62) -/

/-- The state in which a new source other than FREE has been set, before the time base acquires. -/
def sourceTaken (s : State) (w : List Word) : State :=
  { s with time := { s.time with
      initPend := none
      stepDefRaised := false
      source := fld w 0 2 0
      srcIdx := fld w 0 6 3
      permitSeq := if s.time.permit then s.time.permitSeq else true
      permit := true
      params := timeParams w
      utcValid := false
      samples := []
      sampleQ := []
      rateHist := []
      secKnown := false
      epochAt := 0
      epochSec := if fld w 0 2 0 = 4 then some (secAt w 4) else none
      goodRun := 0
      offLarge := false
      lastSample := nowNs s } }

/-- A source that passes its checks and is not FREE starts a lock sequence: it acquires, but an acting root in HOLDOVER stays there. -/
theorem exec_timeSourceSet_taken {h : CmdHdr} {w : List Word} {s : State} (a : Accepted s 0x0402 h w)
    (hok : timeSourceBad s w = none) (hsrc : fld w 0 2 0 ≠ 0) : exec (.timeSourceSet h w) s = .next (deliver
      (if s.sys.acting && s.time.state == .holdover then sourceTaken s w else setTState (sourceTaken s w) .acquire false)
      h 0x0402 .ok) := by
  refine a.answers rfl ?_
  simp only [bodyTimeSourceSet, hok, timeInit, hsrc, ne_eq, not_false_eq_true, decide_true, Bool.or_true, if_true, if_false]
  rfl

/-- Settles O10. -/
theorem timeCommandsTakeEffect : Obligations.TimeCommandsTakeEffect := by
  refine ⟨fun h w s a => ?query, fun h w s a hrevoke => ?permitRevoke, fun h w s a hgrant => ?permitGrant, fun h w s a hfree => ?rate,
    fun h w s a hnot => ?rateRefused, fun h w s a => ?link, fun h w s a hrole hres => ?port, fun h w s a hok hsrc hnot => ?source,
    fun h w s a hok hsrc hact hhold => ?sourceRoot, fun h w s r a hbad => ?sourceRefused⟩
  case query => exact a.answers rfl rfl
  case permitRevoke => exact a.answers rfl (by simp [bodyTimeStepPermit, fld, bits, bit, hrevoke])
  case permitGrant => exact a.answers rfl (by simp [bodyTimeStepPermit, fld, bits, bit, hgrant])
  case rate => exact a.answers rfl (by simp [bodyTimeRateSet, hfree])
  case rateRefused => exact a.answers rfl (by simp [bodyTimeRateSet, hnot])
  case link => exact a.answers rfl rfl
  case port => exact a.answers rfl (by simp [bodyTimePortSet, hrole, hres])
  case source =>
    have hleaves : (s.sys.acting && s.time.state == .holdover) = false := by
      rcases hnot with h | h <;> simp [h]
    obtain ⟨htime, hreports⟩ := setTState_eq (sourceTaken s w) .acquire false
    refine ⟨_, exec_timeSourceSet_taken a hok hsrc, ?_⟩
    rw [hleaves, if_neg Bool.false_ne_true, htime, hreports]
    exact ⟨rfl, rfl, rfl, rfl, rfl, rfl, rfl, rfl, rfl, rfl, rfl, rfl⟩
  case sourceRoot =>
    have hstays : (s.sys.acting && s.time.state == .holdover) = true := by simp [hact, hhold]
    refine ⟨_, exec_timeSourceSet_taken a hok hsrc, ?_⟩
    rw [hstays, if_pos rfl]
    exact ⟨rfl, rfl, rfl, rfl, rfl, hhold, rfl, rfl⟩
  case sourceRefused => exact a.answers rfl (by simp [bodyTimeSourceSet, hbad])

/-- Settles O11. -/
theorem timeBaseEvents : Obligations.TimeBaseEvents := by
  refine ⟨fun x s y r hsrc hq => ?queued, fun x v s hsrc => ?heard, fun x s h1 h4 => ?given, fun x s h1 h4 hfree => ?free,
    fun s u a hpend hidle hpermit hact => ?step, fun s h => ?noStep, fun s hlock => ?holdover, rfl, rfl, fun s hfree => ?freeHold⟩
  case queued => simp [execOffsetSample, hsrc, hq]
  case heard =>
    have hown : ¬(s.time.source = 1 ∨ s.time.source = 4) := by omega
    simp [execOffsetSample, utcHeard, hown, hsrc]
  case given => simp [execOffsetSample, utcHeard, h1, h4]
  case free => simp [execOffsetSample, utcHeard, takeSample, h1, h4, hfree]
  case step => simp [execDeferredStepApply, hpend, hidle, hpermit, hact]
  case noStep =>
    rcases h with hnone | hact
    · simp [execDeferredStepApply, hnone]
    · cases hpend : s.time.initPend with
      | none => simp [execDeferredStepApply, hpend]
      | some e => simp [execDeferredStepApply, hpend, hact]
  case holdover => simp [execHoldover, hlock]
  case freeHold => simp [execHoldover, hfree]

/-- Settles O12. -/
theorem timestampRingsAndNow : Obligations.TimestampRingsAndNow := by
  refine ⟨fun h w s a hon => ?on, fun h w s a hoff => ?off, fun p v s hr hfree hfits => ?tail, fun p v s hr hfree hover => ?ignored,
    fun s hr => ?now⟩
  case on => exact a.answers rfl (by simp [bodyTsringSet, fld, bits, bit, hon])
  case off => exact a.answers rfl (by simp [bodyTsringSet, fld, bits, bit, hoff])
  case tail =>
    have hnot : ¬64 < ((port s p).ring.head + 128 - v.toNat) % 128 := by omega
    exact (heldOr_free hfree _).trans (hr.writes rfl (if_neg hnot))
  case ignored => exact (heldOr_free hfree _).trans (hr.writes rfl (if_pos hover))
  case now => simp [execNowNsRead, hr.read]

/-! ### Pulses, pins and captures (R65 to R71, R77) -/

/-- The first of the instants tb + k x per at or after lim is the earliest. -/
theorem firstAt_earliest {tb per lim : Nat} (hper : 0 < per) : (firstAt tb per lim).1 = tb + (firstAt tb per lim).2 * per ∧
    lim ≤ (firstAt tb per lim).1 ∧ ∀ k, lim ≤ tb + k * per → (firstAt tb per lim).2 ≤ k := by
  unfold firstAt
  split
  case isTrue h => exact ⟨by simp, h, fun k _ => Nat.zero_le k⟩
  case isFalse h =>
    refine ⟨rfl, ?_, fun k hk => ?_⟩
    · have hmod := Nat.mod_lt (lim - tb + per - 1) hper
      have hdiv := Nat.div_add_mod' (lim - tb + per - 1) per
      change lim ≤ tb + (lim - tb + per - 1) / per * per
      omega
    · refine Nat.le_of_lt_succ ((Nat.div_lt_iff_lt_mul hper).mpr ?_)
      rw [Nat.succ_mul]
      omega

/-- A periodic configuration runs from its first instant at least 1,000 ns ahead. -/
theorem pulseBegin_periodic {c : PulseCfg} {now : Nat} {f : Nat × Nat} (h : c.period ≠ 0)
    (hf : firstAt c.start c.period (now + 1000) = f) : (pulseBegin c now).1 = true ∧ (pulseBegin c now).2.1 = f.1 ∧
      (pulseBegin c now).2.2.1 = f.2 ∧ (pulseBegin c now).2.2.2 = decide (f.2 ≠ 0) := by
  simp [pulseBegin, h, hf]

/-- Nothing leaves by the pins where no pin's level changes. -/
theorem showPins_same {s t : State} (h : ∀ k, k < 8 → tpLevel s k = tpLevel t k) : showPins s t = t := by
  have hall : ∀ l : List Nat, (∀ k ∈ l, k < 8) →
      l.foldl (fun u k => if tpLevel s k = tpLevel t k then u else emit u (.tp k (tpLevel t k) (nowNs t))) t = t := by
    intro l
    induction l with
    | nil => exact fun _ => rfl
    | cons k l ih =>
      intro hl
      rw [List.foldl_cons, if_pos (h k (hl k List.mem_cons_self))]
      exact ih fun j hj => hl j (List.mem_cons_of_mem k hj)
  exact hall _ fun k hk => List.mem_range.mp hk

/-- Settles O13. -/
theorem pulsesPinsAndCapturesTakeEffect : Obligations.PulsesPinsAndCapturesTakeEffect := by
  refine ⟨fun h w s st a hres hst hidle hper hwid hgap => ?set, fun h w s st a hres hst hpos hper => ?setShort,
    fun h w s a hres hidle => ?stop, fun h w s e a hres hbusy => ?stopWaits, fun u s hidle hrun => ?lead,
    fun u s e hbusy hwait hper hcount => ?trail, fun u s e c n r hbusy hwait => ?trailTakes, fun s t h => showPins_same h,
    fun tb per lim hper => firstAt_earliest hper, fun h w s a hres hroute => ?route, fun s k hlow => ?low, fun s k hhigh => ?high,
    fun h w s a hres => ?captureSet, fun c b t s hpps hon hroom => ?edge, fun c b t s hpps hon hfull hhalf hlost => ?edgeLost,
    fun c b t s hpps hon hfull hlost => ?edgeSat, fun c t s hpps hoff => ?pps, fun c t s hpps hon => ?ppsKept,
    fun c b t s hpps hoff => ?unselected, fun c s t b r hc hr hq => ?read, fun c s hc hr hq => ?readEmpty⟩
  case set =>
    have hne : prm w 4 ≠ 0 := by omega
    obtain ⟨hruns, hfirst, hk, hlate⟩ := @pulseBegin_periodic
      { start := st, period := prm w 4, width := prm w 5, count := prm w 6, pol := bit (prm w 0) 5, late := bit (prm w 0) 6,
        endEv := bit (prm w 0) 7 } (nowUp s) _ hne rfl
    exact a.answers rfl (by simp [bodyPulseSet, pulseCfgOk, hres, hst, hidle, hper, hwid, hgap, hruns, hfirst, hk, hlate])
  case setShort =>
    have hne : ¬(prm w 4 = 0) := by omega
    have hin : ¬(20 ≤ prm w 4) := by omega
    exact a.answers rfl (by simp [bodyPulseSet, pulseCfgOk, hres, hst, hne, hin, hper])
  case stop => exact a.answers rfl (by simp [bodyPulseStop, hres, hidle])
  case stopWaits => exact a.answers rfl (by simp [bodyPulseStop, hres, hbusy])
  case lead => simp [execPulseEdge, pulseLead, hidle, hrun]
  case trail => simp [execPulseEdge, pulseTrail, lastPulse, pulseEvent, hbusy, hwait, hper, hcount]
  case trailTakes => simp [execPulseEdge, pulseTrail, hbusy, hwait]
  case route => exact a.answers rfl (by simp [bodyPinRouteSet, hres, hroute])
  case low => simp [tpLevel, hlow]
  case high => simp [tpLevel, hhigh]
  case captureSet => exact a.answers rfl (by simp [bodyCaptureSet, hres])
  case edge =>
    have hroom' : (capture (at16 s t) c).fifo.length < 16 := hroom
    simp [execCaptureEdge, capturePut, hpps, hon, hroom']
  case edgeLost =>
    have hfull' : ¬(capture (at16 s t) c).fifo.length < 16 := Nat.not_lt.mpr hfull
    have hhalf' : (capture (at16 s t) c).lost ≠ 0x7FFF := hhalf
    have hlost' : (capture (at16 s t) c).lost < 0xFFFF := hlost
    simp [execCaptureEdge, capturePut, hpps, hon, hfull', hhalf', hlost']
  case edgeSat =>
    have hfull' : ¬(capture (at16 s t) c).fifo.length < 16 := Nat.not_lt.mpr hfull
    have hlost' : (capture (at16 s t) c).lost = 0xFFFF := hlost
    have hkept (x v : Nat) : (capture (setFresh (at16 s t) x v) c).lost = 0xFFFF := hlost
    simp [execCaptureEdge, capturePut, modCapture, hpps, hon, hfull', hlost', hkept]
  case pps => simp [execCaptureEdge, b2n, hpps, hoff]
  case ppsKept => simp [execCaptureEdge, b2n, hpps, hon]
  case unselected => simp [execCaptureEdge, hpps, hoff]
  case read =>
    have hin : ¬3 < c := by omega
    simp [execCapNsRead, hr.read, hin, hq]
  case readEmpty =>
    have hin : ¬3 < c := by omega
    simp [execCapNsRead, hr.read, hin, hq]

end Sys2Proof.Machine
end

section
/-! The settled statements on valves and preemption, with what a command of class Transaction on its own answers. -/

namespace Sys2Proof.Machine

section

variable {s : State} {op : Nat} {h : CmdHdr} {w : List Word} {o : Out}

/-- A command of class Transaction on its own that passes its checks registers its own transaction. -/
theorem Solo.registers (a : Solo s op h w) {f : TxnOp} (ho : o = .next (runLater s h op w (bodyTxn op f))) (hp : f.prep h w s = none)
    (ht : f.test h w [newMember s op h w] (nowNs s + 20000) s = none) :
    o = .next { s with txns := s.txns ++ [ownTxn s op f h w (nowNs s + 20000)] } := by
  rw [ho, a.txn_run f hp ht]

/-- On its own it answers the first check it fails. -/
theorem Solo.refused (a : Solo s op h w) {f : TxnOp} {r : Reply} (ho : o = .next (runLater s h op w (bodyTxn op f)))
    (hp : f.prep h w s = some r) : o = .next (deliver s h op r) := by
  rw [ho, a.txn_bad f hp]

end

/-! ### Commands (R147, R151, R153, R155, R162, R163, R170, R171) -/

/-- Gates that close and holds that begin change nothing where no frame is on the line and no hold is in force. -/
theorem gateMove_idle {s : State} {p : Nat} (htx : (port s p).txd.tx = none) (hhold : holdNow s p = false) (h : Bool) (g : Nat) :
    gateMove h g s p = s := by
  simp [gateMove, holdMove, hhold, htx]

/-- VALVE_SET's lengths pass where each lies within the port's frame. -/
theorem find_maxLen_none {ml : List Nat} {hi : Nat} (h : ∀ m ∈ ml, 64 ≤ m ∧ m ≤ hi) :
    (ml.zipIdx.find? fun m => m.1 < 64 ∨ hi < m.1) = none := by
  rw [List.find?_eq_none]
  intro m hm
  obtain ⟨hlo, hhi⟩ := h m.1 (List.fst_mem_of_mem_zipIdx hm)
  simp only [decide_eq_true_eq]
  omega

/-- Settles O14. -/
theorem valveCommandsTakeEffect : Obligations.ValveCommandsTakeEffect := by
  refine ⟨fun h w s a hpend hstop => ?query, fun h w s a hres0 hres1 hone hmax hend => ?read, fun h w s a => ?preemptQuery,
    fun h w s ml a hoff hres hclass hml hall => ?set, fun s p htx hhold h g => gateMove_idle htx hhold h g,
    fun h w s a hon => ?setRefused, fun h w s e a hres0 hres1 hone hlen hend hpend hoff he hone' hmin hvct => ?write,
    fun h w s a htwin hres hclass hlo hhi hsame hverify => ?preempt, fun h w s a htwin hres hclass hlo hhi hnew => ?preemptNew,
    fun h w s a hlane hrole => ?preemptRefused, fun h w s tb a hres htb hvct hpend hoff hcheck => ?start, fun h w s c u d => ?startAt,
    fun h w s tb a hres htb hvct hpend hon => ?startRefused, fun h w s tb a htb hvct hpend hrun hcheck => ?swap,
    fun h w s c u d => ?swapAt, fun h w s a hidle => ?stop, fun h w s c u d hon => ?stopAt, fun h w s a hrun hp => ?stopRefused⟩
  case query => exact a.answers rfl (by simp [bodyValveQuery, hpend, hstop])
  case read =>
    have hin : ¬vCap h.port ≤ fld w 0 12 1 := by omega
    have hbad : ¬(fld w 1 31 11 ≠ 0 ∨ fld w 1 10 0 = 0 ∨ 1024 < fld w 1 10 0 ∨ vCap h.port < fld w 0 12 1 + fld w 1 10 0) := by omega
    exact a.answers rfl (by simp only [bodyValveRead, hres0, hin, hbad]; rfl)
  case preemptQuery => exact a.answers rfl rfl
  case set =>
    have hfind := find_maxLen_none hall
    subst hml
    refine a.answers rfl ?_
    simp only [bodyValveSet, hoff, hres, hclass, hfind]
    rfl
  case setRefused => exact a.answers rfl (by simp [bodyValveSet, hon])
  case write =>
    have hes : vWritten w 1 = [e] := by rw [he]; rfl
    have hword : ¬1 < e.w1.toNat := by omega
    have hin : ¬(vCap h.port < fld w 1 12 0) := by omega
    have hfits : ¬(vCap h.port < fld w 0 12 1 + 1) := by omega
    have hlong : ¬(vInterval e < 32) := by omega
    exact a.answers rfl (by
      simp [bodyValveWrite, hes, hres0, hres1, hone, hin, hfits, hword, hlong, hoff, hpend, vTrunc, hvct, b2n, Reply.ok, Reply.rep])
  case preempt =>
    refine a.answers rfl ?_
    have hbad : ¬(fld w 0 31 20 ≠ 0 ∨ bit (fld w 0 8 1) (port s h.port).vset.courseClass = true ∨ fld w 0 19 12 = 0 ∨
        128 < fld w 0 19 12) := by rw [hclass]; simp; omega
    simp only [bodyPreemptSet, htwin, hbad, hsame, hverify]
    simp
  case preemptNew =>
    refine a.answers rfl ?_
    have hbad : ¬(fld w 0 31 20 ≠ 0 ∨ bit (fld w 0 8 1) (port s h.port).vset.courseClass = true ∨ fld w 0 19 12 = 0 ∨
        128 < fld w 0 19 12) := by rw [hclass]; simp; omega
    simp only [bodyPreemptSet, htwin, hbad]
    simp [hnew]
  case preemptRefused => exact a.answers rfl (by simp [bodyPreemptSet, hlane, hrole])
  case start =>
    have hin : ¬prm w 4 < 1000 := by omega
    exact a.registers rfl (by simp [valveStartOp, hres, htb, hin, hpend, hoff]) hcheck
  case startAt => exact d.done rfl rfl
  case startRefused =>
    have hin : ¬prm w 4 < 1000 := by omega
    exact a.refused rfl (by simp [valveStartOp, hres, htb, hin, hpend, hon])
  case swap =>
    have hin : ¬prm w 3 < 1000 := by omega
    exact a.registers rfl (by simp [valveSwapOp, htb, hin, hpend, hrun]) hcheck
  case swapAt => exact d.done rfl rfl
  case stop => exact a.registers rfl (if_neg hidle) rfl
  case stopAt =>
    rw [d.done (f := valveStopOp) rfl rfl]
    simp only [valveStopOp, if_neg hon]
    rfl
  case stopRefused => exact a.refused rfl (if_pos ⟨hrun, hp⟩)

/-! ### Instants (R149, R153, R155, R161, R163, R165) -/

/-- Settles O15. -/
theorem valveInstantsTakePlace : Obligations.ValveInstantsTakePlace := by
  refine ⟨fun p s q hpend => ?swap, fun p s t hstop => ?stop, fun p k i s z hrun hz hlate hidle hpend hstop => ?entry,
    fun p s t hwait hverify htries => ?verify, fun p s t hwait hverify htries => ?failed, fun p s t hwait hno => ?disabled,
    fun p f n s k y hbank hframe hact => ?hold⟩
  case swap => simp [execValveSwapInstant, hpend]
  case stop => simp [execValveStopInstant, hstop]
  case entry =>
    have hpast : ¬(port s p).valve.vbase + k * (port s p).valve.vct + z.o < nowNs s := by omega
    simp [execValveEntryBoundary, hrun, hz, hpast, hidle, hpend, hstop]
  case verify =>
    have hmore : ¬3 ≤ (port s p).pre.tries := by omega
    simp [execVerifyTimeout, hwait, hverify, hmore]
  case failed => simp [execVerifyTimeout, hwait, hverify, htries]
  case disabled => simp [execVerifyTimeout, hwait, hno]
  case hold => simp [execCourseHoldStart, holdComes, hbank, hframe, hact]

end Sys2Proof.Machine
end

section
/-! The settled statements on courses and on reflex actions. -/

namespace Sys2Proof.Machine

section

variable {s : State} {op : Nat} {h : CmdHdr} {w : List Word} {o : Out}

/-- The same as `Solo.registers` where a twin LEADER does not forward the command. -/
theorem Solo.registersHere (a : Solo s op h w) {f : TxnOp} {x : CmdHdr → List Word → State → List Word}
    (ho : o = .next (runLater s h op w (bodyTxnFwd op f x))) (hl : leads s op h = false) (hp : f.prep h w s = none)
    (ht : f.test h w [newMember s op h w] (nowNs s + 20000) s = none) :
    o = .next { s with txns := s.txns ++ [ownTxn s op f h w (nowNs s + 20000)] } := by
  rw [ho, a.fwd_run f x hl hp ht]

/-- A check that fails answers before the command would be forwarded. -/
theorem Solo.refusedHere (a : Solo s op h w) {f : TxnOp} {x : CmdHdr → List Word → State → List Word} {r : Reply}
    (ho : o = .next (runLater s h op w (bodyTxnFwd op f x))) (hp : f.prep h w s = some r) : o = .next (deliver s h op r) := by
  rw [ho, a.fwd_bad f x hp]

/-- A command that a twin LEADER would forward takes effect here where it is none. -/
theorem Accepted.does (a : Accepted s op h w) {chk : CmdHdr → List Word → State → Option Reply} {f : CmdHdr → List Word → State → State}
    (ho : o = .next (runCmd s h op w (bodyFwd op chk f))) (hl : leads s op h = false) (hc : chk h w s = none) :
    o = .next (deliver (f h w s) h op .ok) :=
  a.answers ho (by simp [bodyFwd, hc, hl])

end

/-! ### Course settings (R79, R92 to R98, R105, R111) -/

/-- The bank of a course in OFF is written without a check. -/
theorem writeBank_off {s : State} {p : Nat} (hoff : (courseOf s p).state = 0) (k : Nat) (b : Bank) :
    writeBank s p k b = (modPort s p fun x => { x with ccfg := setBank x.ccfg k b }, .ok) := by
  simp [writeBank, hoff]

/-- The working bank of a course in RUN or SAFE is not written. -/
theorem writeBank_working {s : State} {p k : Nat} (hlive : 2 ≤ (courseOf s p).state) (hk : k = b2n (courseOf s p).bank)
    (hlt : k < 2) (b : Bank) : writeBank s p k b = (s, .err stInvalid 13) := by
  have hne : k ≠ 2 := by omega
  simp only [writeBank, hlive, ← hk, hne, ne_eq, not_false_eq_true, and_self, if_true]

/-- BOND_WRITE of good entries for banks A and B writes the bank. -/
theorem bodyBondWrite_good {h : CmdHdr} {w : List Word} {s : State} (hres : fld w 0 31 19 = 0) (hk : fld w 0 1 0 < 2)
    (hn : 1 ≤ fld w 0 18 10) (hfit : fld w 0 9 2 + fld w 0 18 10 ≤ 256)
    (hall : ∀ x ∈ w.drop 1, x.toNat < 2 ^ 25 ∧ hasAxis s (eAxis x.toNat) = true) :
    bodyBondWrite h w s = writeBank s h.port (fld w 0 1 0) { bankSel (port s h.port).ccfg (fld w 0 1 0) with
      entries := (w.drop 1).zipIdx.foldl (fun t x => t.put (fld w 0 9 2 + x.2) x.1 0)
        (bankSel (port s h.port).ccfg (fld w 0 1 0)).entries } := by
  have hbank : fld w 0 1 0 ≠ 2 := by omega
  have hbad : ¬(fld w 0 31 19 ≠ 0 ∨ fld w 0 1 0 = 3 ∨ fld w 0 18 10 = 0 ∨ 256 < fld w 0 9 2 + fld w 0 18 10) := by omega
  have hword : firstBad (fun e => decide (e / 2 ^ 25 ≠ 0)) w 1 = none :=
    firstBad_none fun x hx => by simpa [Nat.div_eq_zero_iff] using (hall x hx).1
  have haxis : firstBad (fun e => !(hasAxis s (eAxis e))) w 1 = none := firstBad_none fun x hx => by simp [(hall x hx).2]
  simp only [bodyBondWrite, hbank, if_false, hbad, hword, haxis]

/-- Settles O16. -/
theorem courseSettingsAreStored : Obligations.CourseSettingsAreStored := by
  refine ⟨fun h w s n a hn hres hmax => ?query, fun h w s a hmul hlo hhi hres1 hres2 hpair hoff => ?set,
    fun h w s a hmul hlo hhi hres1 hres2 hpair hon => ?setRefused, fun h w s a acc hlo hhi hinst hports haxes => ?line,
    fun h w s a acc hlo hhi hinst hports => ?lineRefused, fun h w s k n a hk hn hres hlt hpos hfit hall hoff => ?bond,
    fun h w s k n a hk hn hres hlt hpos hfit hall hlive hbank => ?bondWorking, fun h w s k ds a hk hlt hres hds hall hoff => ?frame,
    fun h w s a hres hmul hlo hhi hfit => ?safe⟩
  case query =>
    subst hn
    have hbad : ¬(fld w 0 31 8 ≠ 0 ∨ 64 < fld w 0 7 0) := by omega
    refine a.answers rfl ?_
    simp only [bodyCourseQuery, if_neg hbad, List.map_map, Function.comp_def]
  case set =>
    have hbad : ¬(prm w 0 % s.line.baseCt ≠ 0 ∨ prm w 0 < 15625 ∨ 16777216 < prm w 0) := by omega
    refine a.answers rfl ?_
    by_cases hp : fld w 1 25 24 = 1 ∨ fld w 1 25 24 = 2
    · obtain ⟨hrange, hport, hdie⟩ := hpair hp
      have hin : ¬512 ≤ fld w 2 9 0 := by omega
      simp [bodyCourseSet, hbad, hres1, hres2, hp, hin, hport, hdie, hoff]
    · simp [bodyCourseSet, hbad, hres1, hres2, hp, hoff]
  case setRefused =>
    have hbad : ¬(prm w 0 % s.line.baseCt ≠ 0 ∨ prm w 0 < 15625 ∨ 16777216 < prm w 0) := by omega
    refine a.answers rfl ?_
    simp only [bodyCourseSet, if_neg hbad, hres1, hres2, hpair]
    simp [hon]
  case line =>
    have hbad : ¬(prm w 0 < 15625 ∨ 16777216 < prm w 0) := by omega
    exact acc.answers rfl (by simp only [bodyCourseLineSet, if_neg hbad, hinst, hports, haxes]; rfl)
  case lineRefused =>
    have hbad : ¬(prm w 0 < 15625 ∨ 16777216 < prm w 0) := by omega
    exact acc.answers rfl (by simp only [bodyCourseLineSet, if_neg hbad, hinst, hports]; rfl)
  case bond =>
    subst hk hn
    exact a.answers rfl ((bodyBondWrite_good hres hlt hpos hfit hall).trans (writeBank_off hoff _ _))
  case bondWorking =>
    subst hk hn
    exact a.answers rfl ((bodyBondWrite_good hres hlt hpos hfit hall).trans (writeBank_working hlive hbank hlt _))
  case frame =>
    subst hk
    have hbad : ¬(fld w 0 31 10 ≠ 0 ∨ fld w 0 1 0 = 3) := by omega
    have hfind : (ds.zipIdx.find? fun x => fld w (3 + 4 * x.2) 31 16 ≠ 0) = none := by
      rw [List.find?_eq_none]
      intro x hx
      simp [hall x hx]
    refine a.answers rfl ?_
    subst hds
    have hword (i n : Nat) : 1 + 4 * i + n = n + 1 + 4 * i := by omega
    simp only [bodyFrameSet, if_neg hbad, hfind, writeBank_off hoff, hword, Nat.reduceAdd]
  case safe =>
    have hbad : ¬(fld w 0 31 17 ≠ 0 ∨ fld w 0 8 0 % 4 ≠ 0 ∨ fld w 0 16 9 = 0 ∨ 128 < fld w 0 16 9 ∨
        512 < fld w 0 8 0 + 4 * fld w 0 16 9) := by omega
    exact a.answers rfl (if_neg hbad)

/-! ### Starts, swaps, safe requests, resumes and stops (R106 to R111, R265, R303) -/

/-- Settles O17. -/
theorem courseStartSwapSafeResumeStop : Obligations.CourseStartSwapSafeResumeStop := by
  refine ⟨fun h w s tb a hres hinst hoff hplane hcheck hbound => ?start, fun h w s c u d hoff => ?startAt,
    fun h w s c u d hon => ?startFails, fun h w s tb a hres hinst hon => ?startRefused,
    fun h w s tb a hl hinst hon hcheck hbound => ?swap, fun h w s c u d hon => ?swapAt, fun h w s a hl hrun htwin => ?safe,
    fun h w s a hl hon hplane hrole => ?safeTwin, fun h w s a hoff => ?safeRefused, fun h w s tb a hl hinst hsafe hbound => ?resume,
    fun h w s c u d hsafe => ?resumeAt, fun h w s a hl hsafe => ?stop, fun h w s c u d hsafe => ?stopAt,
    fun h w s a hrun => ?stopRefused⟩
  case start =>
    have hoff' : (port s (own s h.port)).course.state = 0 := hoff
    exact a.registers rfl (by simp [courseStartOp, baseBad, hres, hinst, hoff', hplane, hcheck, hbound])
      (by simp [courseStartOp, hplane])
  case startAt =>
    have happly := d.done rfl (if_neg (not_not.mpr hoff) : courseStartOp.apply h w c u = _)
    exact happly
  case startFails => exact d.failed rfl (if_pos hon : courseStartOp.apply h w c u = _)
  case startRefused =>
    have hon' : (port s (own s h.port)).course.state ≠ 0 := hon
    exact a.refused rfl (by simp [courseStartOp, hres, hinst, hon'])
  case swap =>
    have hon' : (port s (own s h.port)).course.state ≠ 0 := hon
    have hcheck' : courseCheck s h.port [b2n (xor (port s (own s h.port)).course.bank
        ((port s (own s h.port)).course.swaps.length % 2 == 0))] = none := hcheck
    exact a.registersHere rfl hl (by simp only [courseSwapOp, hinst, if_neg hon', hcheck', baseBad, hbound]; rfl) rfl
  case swapAt =>
    have happly := d.done rfl (if_neg hon : courseSwapOp.apply h w c u = _)
    exact happly
  case safe =>
    have hon : (courseOf s h.port).state ≠ 0 := by omega
    have hrun' : (port s (own s h.port)).course.state = 2 := hrun
    have hhere : (s.twin.role == .claiming && (port s (own s h.port)).ccfg.plane == 3) = false := by
      by_cases hrole : s.twin.role = .claiming
      · simpa [hrole] using fun hplane => htwin ⟨hplane, hrole⟩
      · simp [hrole]
    have hdo : doSafeHere h w s = enterSafe s (own s h.port) 1 := by simp [doSafeHere, hhere, doCourseSafe, doSafe, hrun']
    exact hdo ▸ a.does rfl hl (if_neg hon)
  case safeTwin =>
    have hdo : doSafeHere h w s = safeReq s h.port 1 := by simp [doSafeHere, hplane, hrole]
    exact hdo ▸ a.does rfl hl (if_neg hon)
  case safeRefused => exact a.answers rfl (by simp [bodyFwd, courseSafeBad, hoff])
  case resume =>
    have hsafe' : (port s (own s h.port)).course.state = 3 := hsafe
    exact a.registersHere rfl hl (by simp [courseResumeOp, baseBad, hinst, hsafe', hbound]) rfl
  case resumeAt =>
    have happly := d.done rfl (if_neg (not_not.mpr hsafe) : courseResumeOp.apply h w c u = _)
    exact happly
  case stop => exact a.registersHere rfl hl (if_neg (by omega)) rfl
  case stopAt =>
    have hsafe' : (port u (own u h.port)).course.state = 3 := hsafe
    have happly := d.done (f := courseStopOp) rfl (by simp only [courseStopOp, hsafe']; rfl)
    exact happly
  case stopRefused => exact a.refusedHere rfl (if_pos hrun)

end Sys2Proof.Machine
end

section
/-! The settled statements on the instants of a course and on reflex actions. -/

namespace Sys2Proof.Machine

/-! ### The instants of a course (R80, R85, R95, R97 to R104, R262) -/

/-- A frame built from a working bank none of whose regions is stopped is built as the course stands. -/
theorem foreignTest_none {s : State} {o : Nat} (hstop : foreignStopped s o = false) (hfor : (port s o).course.foreign = false)
    (hrun : (port s o).course.state = 2) : foreignTest s o = s := by
  simp [foreignTest, hstop, hfor, hrun]

/-- In RUN a frame is built from the working bank. -/
theorem buildBank_buildOf {s : State} {p : Nat} (f n b : Nat) (hrun : (port s (own s p)).course.state = 2) :
    buildBank (buildOf s p f n b) = b2n (port s (own s p)).course.bank := by
  simp [buildBank, buildOf, hrun]

@[simp] theorem port_at16 (s : State) (t p : Nat) : port (at16 s t) p = port s p := rfl
@[simp] theorem port_atNs (s : State) (t p : Nat) : port (atNs s t) p = port s p := rfl

/-- A course frame that ends whole is sent with its bricks as they stood at their read instants. -/
theorem closeTx_course {s : State} {p k : Nat} {f : Tx} {u : Build} (htx : (port s p).txd.tx = some f)
    (hcourse : f.course = some (k, u)) (hcut : f.cut = false) (hpre : f.pre = false) (hfrags : f.frags = 0) :
    closeTx s p = sleepEnd (emit (frameSent (modPort s p fun x => { x with txd := { x.txd with tx := none } }) p
      { f with bytes := courseBytes s p (pMac (underTx (port s p) f)) k u })
      (.frame p f.t16 (courseBytes s p (pMac (underTx (port s p) f)) k u))) p := by
  simp [closeTx, withBytes, htx, hcourse, hcut, hpre, hfrags]

/-- The frame that port p is dissolving, with brick j done at its instant. -/
def brickDone (s : State) (p j : Nat) (i : InFrame) : State :=
  modPort (at16 s (brickSpan s p i j).2.2) p fun y => { y with inFrame := some { i with done := j + 1 } }

section

variable {s : State} {p j : Nat} {i : InFrame} (hin : (port s p).inFrame = some i) (hcount : j < dCount i.desc) (hdone : i.done ≤ j)
  (hruns : courseRuns s p = true) (hlen : (brickSpan s p i j).1 + (brickSpan s p i j).2.1 + 2 ≤ i.bytes.length)
include hin hcount hdone hruns hlen

/-- A brick that completes after ARR_CLOSE only counts. -/
theorem brickIn_late (hlate : (i.b + i.desc.w3.toNat) * 65536 < (brickSpan s p i j).2.2) :
    brickIn s p j = countPort (brickDone s p j i) (own s p) 0x65C 1 := by
  have hok : ¬(dCount i.desc ≤ j ∨ j < i.done ∨ i.bytes.length < (brickSpan s p i j).1 + (brickSpan s p i j).2.1 + 2 ∨
      (!courseRuns s p) = true) := by rw [hruns]; simp; omega
  simp only [brickIn, hin, if_neg hok, if_pos hlate, brickDone]

/-- A brick in time whose check holds is merged where the twin does not offer it. -/
theorem brickIn_good (htime : (brickSpan s p i j).2.2 ≤ (i.b + i.desc.w3.toNat) * 65536)
    (hcheck : brickCheck (i.n % 65536) true i.f j ((i.bytes.drop (brickSpan s p i j).1).take (brickSpan s p i j).2.1) =
      beAt i.bytes ((brickSpan s p i j).1 + (brickSpan s p i j).2.1 + 2 - 2) 2)
    (hoffer : ¬((port (brickDone s p j i) (own s p)).ccfg.plane = 3 ∧ offers (brickDone s p j i) = true)) :
    brickIn s p j =
      let data := (i.bytes.drop (brickSpan s p i j).1).take (brickSpan s p i j).2.1
      let m := mergeBrick (brickDone s p j i) (own s p) p (dFirst i.desc + j) (i.entries.getD j 0) (brickSpan s p i j).2.2 i.planeB data
      if m.2 && (port (brickDone s p j i) (own s p)).ccfg.plane == 3 && merges (brickDone s p j i) then
        sendRec m.1 (regionOfPort (own s p)) (brickRec (brickDone s p j i) (own s p) i.f j i.n (brickSpan s p i j).2.2 true i.planeB data)
      else m.1 := by
  have hok : ¬(dCount i.desc ≤ j ∨ j < i.done ∨ i.bytes.length < (brickSpan s p i j).1 + (brickSpan s p i j).2.1 + 2 ∨
      (!courseRuns s p) = true) := by rw [hruns]; simp; omega
  rw [brickDone] at hoffer
  simp only [brickIn, hin, if_neg hok, if_neg (Nat.not_lt.mpr htime), hcheck, brickDone]
  simp only [ne_eq, not_true_eq_false, if_false, if_neg hoffer]
  rfl

end

/-- Settles O18. -/
theorem courseInstantsTakePlace : Obligations.CourseInstantsTakePlace := by
  refine ⟨fun p n s hruns hown hsides htwin => ?boundary, fun p f n s y u hruns hu hown hrun hframe hstop hfor hentries => ?build,
    fun p f n s u hbuild hn hruns hskip => ?withheld, fun p f n s u t0 v hbuild hn hruns hskip ht0 hv hok => ?launch,
    fun p s f k u htx hcourse hnow hcut hpre hfrags => ?ends,
    fun p j s i o d sz a e A v ho hin hd hsz hcount hdone hruns ha he hlen hA hv hlate hfirst => ?late,
    fun p j s i o d sz a e A v ho hin hd hsz hcount hdone hruns ha he hlen hA hv htime hfirst hcheck hoffer => ?merged,
    fun p j s hfirst => ?both, fun p f n s hruns hown hf htwin => ?close, fun p f n s hruns hown hf hplane hrole => ?followerClose,
    fun n s hruns hlast hnow => ?line, fun n s hruns => ?stopped, fun n s hruns hpub hwriting hlast => ?snapshot⟩
  case boundary =>
    have hplain : ¬((port s p).ccfg.plane = 3 ∧ s.twin.role = .follower ∧ 0 < n) := fun h => htwin ⟨h.1, h.2.1⟩
    have hsides' : (sides (atNs s (cycleStart s (port s p).ccfg.ct n)) p).length ≠ 2 := hsides
    simp [execCourseBoundary, hruns, hown, hplain, hsides']
  case build =>
    have hsend : sendBank (port u (own s p)).course = some (b2n (port u (own s p)).course.bank) := by simp [sendBank, hrun]
    have hbank := buildBank_buildOf (s := atNs u (cycleStart s (port s (own s p)).ccfg.ct n + y.1 - 200)) (p := p) f n
      (cycleStart s (port s (own s p)).ccfg.ct n) ((congrArg (fun o => (port u o).course.state) hown).trans hrun)
    have hown' : own (atNs u (cycleStart s (port s (own s p)).ccfg.ct n + y.1 - 200)) p = own s p := hown
    rw [hown', port_atNs] at hbank
    have hbuilt : ((buildOf (atNs u (cycleStart s (port s (own s p)).ccfg.ct n + y.1 - 200)) p f n
        (cycleStart s (port s (own s p)).ccfg.ct n)).entries.isEmpty) = false := by simpa using hentries
    simp only [exec_courseBuildStart, execCourseBuildStart, hruns, ← hu, hsend, hframe, foreignTest_none hstop hfor hrun, hbank,
      hbuilt]
    simp
  case withheld =>
    simp [execCourseLaunch, hbuild, hn, hruns, hskip]
  case launch =>
    subst ht0 hv
    simp [execCourseLaunch, hbuild, hn, hruns, hskip, hok]
  case ends =>
    rw [exec_frameTransmitEnd, execFrameTransmitEnd]
    simp only [htx, hnow, if_false, endTx]
    exact congrArg _ (closeTx_course htx hcourse hcut hpre hfrags)
  case late =>
    subst ho hd hsz ha he hA hv
    simp only [exec_brickReceive, execBrickReceive, hfirst]
    exact congrArg _ (brickIn_late hin hcount hdone hruns hlen hlate)
  case merged =>
    subst ho hd hsz ha he hA hv
    simp only [exec_brickReceive, execBrickReceive, hfirst]
    exact congrArg _ (brickIn_good hin hcount hdone hruns hlen htime hcheck hoffer)
  case both => simp [execBrickReceive, hfirst]
  case close =>
    have hin : ¬4 ≤ f := by omega
    simp [execArrClose, arrCloseOf, htwin, hruns, hown, hin]
  case followerClose =>
    have hin : ¬4 ≤ f := by omega
    simp [execFollowerArrClose, arrCloseOf, hplane, hrole, hruns, hown, hin]
  case line =>
    have hpast : ¬(cycleStart s s.line.baseCt n + s.line.baseCt ≤ nowNs s) := by omega
    have hwork : exec (.lineBaseBoundary n) s = .next (let t := cycleStart s s.line.baseCt n; lineWork (atNs s t) n t) := by
      simp only [exec_lineBaseBoundary, execLineBaseBoundary, hruns, hlast, Option.any_none, Bool.not_true, Bool.false_or,
        decide_eq_false hpast, Bool.false_eq_true, if_false]
    refine hwork.trans (congrArg Host.Outcome.next ?_)
    -- The two chains of work meet at the captured digests; with that state opaque the rest is the same term.
    unfold lineWork
    extract_lets _ _ _ captured _ _ _ _ _ _ _ _ _ _ _ _ captured'
    have hcaptured : captured' = captured := rfl
    clear_value captured' captured
    subst hcaptured
    rfl
  case stopped => simp [execLineBaseBoundary, hruns]
  case snapshot =>
    have hlast' : s.line.last ≠ none := fun h => by simp [h] at hlast
    simp [execSnapshotPublish, hruns, hpub, hwriting, hlast']

/-! ### Reflex actions (R140) -/

/-- Settles O19. -/
theorem reflexActionsApplyInOrder : Obligations.ReflexActionsApplyInOrder := by
  intro s y r hq
  simp only [exec_reflexActionApply, execReflexActionApply, hq]

end Sys2Proof.Machine
end

section
/-! The settled statements on axes. -/

namespace Sys2Proof.Machine

/-- On its own a command of class Transaction that fails a test at its commit only answers. -/
theorem Solo.refusedTest {s : State} {op : Nat} {h : CmdHdr} {w : List Word} {o : Out} (a : Solo s op h w) {f : TxnOp}
    {x : CmdHdr → List Word → State → List Word} {r : Reply} (ho : o = .next (runLater s h op w (bodyTxnFwd op f x)))
    (hp : f.prep h w s = none) (ht : f.test h w [newMember s op h w] (nowNs s + 20000) s = some r) :
    o = .next (deliver s h op r) := by
  refine a.acc.answersNow ho ?_
  simp only [bodyTxnFwd, bodyTxn, a.alone, soloTxn, hp, ht, Bool.false_eq_true, if_false, Option.isNone_some, Bool.false_and]

/-! ### Settings (R122, R125, R127, R132, R136, R139, R141, R144, R145) -/

/-- A REFLEX_SET whose rules all keep R136 is accepted. -/
theorem reflexSetBad_none {h : CmdHdr} {w : List Word} {s : State} (hres : fld w 0 31 18 = 0)
    (haxis : hasAxis s (fld w 0 13 0) = true) (hall : ∀ x ∈ rulesOf w, ruleBad s (fld w 0 13 0) x.2 = none) :
    reflexSetBad h w s = none := by
  simp only [reflexSetBad, axisBad_none hres haxis, List.findSome?_eq_none_iff]
  intro x hx
  rw [hall x.1 (List.fst_mem_of_mem_zipIdx hx)]
  rfl

/-- A PUT that keeps what the ring holds and fits it is taken. -/
theorem doorbell_good {s : State} {a put : Nat} (hdir : (axis s a).cfg.direct = false)
    (hfit : (put + 131072 - (axis s a).dyn.get) % 131072 ≤ ringLen (axis s a))
    (hkeep : segHeld (axis s a) (axis s a).dyn.get ≤ (put + 131072 - (axis s a).dyn.get) % 131072) :
    doorbell s a put = modAxis s a fun x => { x with dyn := { x.dyn with put := put } } := by
  simp [doorbell, hdir, Nat.not_lt.mpr hfit, Nat.not_lt.mpr hkeep]

/-- Settles O20. -/
theorem axisSettingsTakeEffect : Obligations.AxisSettingsTakeEffect := by
  refine ⟨fun h w s d a hres haxis hd => ?query, fun h w s a hok hoff => ?set, fun h w s a hok hon => ?setRefused,
    fun h w s a hl hres haxis hall => ?reflexSet, fun h w s a hl hres haxis => ?reflexArm,
    fun h w s a n acc ha hn hres haxis hres1 hpos hmax htrained => ?segWrite, fun h w s a => ?digestQuery, fun r s hr => ?digestRead,
    fun r v s a hr hfree ha hdir hfit hkeep => ?doorbell⟩
  case query =>
    subst hd
    exact a.answers rfl (by simp only [bodyAxisQuery, axisBad_none hres haxis])
  case set => exact a.answers rfl (by simp [bodyAxisSet, hok, hoff])
  case setRefused => exact a.answers rfl (by simp [bodyAxisSet, hok, hon])
  case reflexSet => exact a.does rfl hl (reflexSetBad_none hres haxis hall)
  case reflexArm => exact a.does rfl hl (axisBad_none hres haxis)
  case segWrite =>
    subst ha hn
    have hbad : ¬(fld w 1 31 22 ≠ 0 ∨ fld w 1 21 17 = 0 ∨ 16 < fld w 1 21 17) := by omega
    exact acc.answers rfl (by simp only [bodySegWrite, axisBad_none hres haxis, if_neg hbad, htrained]; rfl)
  case digestQuery => exact a.answers rfl rfl
  case digestRead => simp [execDigestLoRead, hr.read]
  case doorbell =>
    subst ha
    exact (heldOr_free hfree _).trans (hr.writes rfl (doorbell_good hdir hfit hkeep))

/-! ### Starts, quick-stops and AXIS_OFF (R114, R134, R143, R303) -/

/-- From HOLD, STOPPED and DIRECT an axis goes OFF at the first boundary 4,000 ns after C. -/
theorem axisOff_waits {h : CmdHdr} {w : List Word} {c : Nat} {u : State} (hst : (axis u (fld w 0 13 0)).dyn.state = 3 ∨
    (axis u (fld w 0 13 0)).dyn.state = 5 ∨ (axis u (fld w 0 13 0)).dyn.state = 6) :
    axisOffOp.apply h w c u = .ok
      { s := modAxis u (fld w 0 13 0) fun x => { x with run := { x.run with
          offAt := some (nextB u.line.anchor (axis u (fld w 0 13 0)).cfg.ct (c + 4000)), directAt := none } }
        at_ := nextB u.line.anchor (axis u (fld w 0 13 0)).cfg.ct (c + 4000) } := by
  rcases hst with hst | hst | hst <;> simp only [axisOffOp, hst]

/-- Settles O21. -/
theorem axisStartQstopOff : Obligations.AxisStartQstopOff := by
  refine ⟨fun h w s a x c tb acc hl ha hx hc hres haxis hdir hres4 hres5 hinst hbar hct hmul hstarts hlead hheld hring => ?start,
    fun h w s c u a x d ha hx hbar hdir => ?startAt,
    fun h w s a x c acc hl ha hx hc hres haxis hdir hbar hct hmul hstarts => ?direct, fun h w s c u a x d ha hx hbar hdir => ?directAt,
    fun h w s a hl hres haxis => ?qstop, fun h w s a x acc hl ha hx hres haxis hrun hqstop hdue => ?off,
    fun h w s c u a x d ha hx hst => ?offWaits, fun h w s c u a x d ha hx hst => ?offArmed, fun h w s c u d hst => ?offOff,
    fun h w s a hres haxis hst => ?offRefused, fun h w s a x acc ha hx hres haxis hst hdue => ?offRuns⟩
  case start =>
    subst ha hx hc
    have hnear : ¬((ltAt w 1).1 < nowNs s + 20000 + 8 * (axis s (fld w 0 13 0)).cfg.ct + 4000) := by omega
    have hfull : ¬ringLen (axis s (fld w 0 13 0)) < segHeld (axis s (fld w 0 13 0)) (fld w 4 16 0) := by omega
    exact acc.registersHere rfl hl
      (by simp [axisStartOp, axisBad_none hres haxis, hdir, hres4, hres5, hinst, hbar, hct, hmul, hstarts])
      (by simp [axisStartOp, hbar, hstarts, hdir, hnear, hheld, hfull])
  case startAt =>
    subst ha hx
    have happly := d.done (f := axisStartOp) rfl (by simp only [axisStartOp, hbar, hdir, Bool.false_eq_true, if_false]; rfl)
    exact happly
  case direct =>
    subst ha hx hc
    exact acc.registersHere rfl hl (by simp [axisStartOp, axisBad_none hres haxis, hdir, hbar, hct, hmul, hstarts])
      (by simp [axisStartOp, hbar, hstarts, hdir])
  case directAt =>
    subst ha hx
    have happly := d.done (f := axisStartOp) rfl (by simp only [axisStartOp, hbar, hdir, Bool.false_eq_true, if_false, if_true]; rfl)
    exact happly
  case qstop => exact a.does (f := doAxisQstop) rfl hl (axisBad_none hres haxis)
  case off =>
    subst ha hx
    exact acc.registersHere rfl hl (by simp [axisOffOp, axisBad_none hres haxis, hrun, hqstop])
      (by simp only [axisOffOp, hrun, hqstop, hdue, or_self, if_false])
  case offWaits =>
    subst ha hx
    have happly := d.done rfl (axisOff_waits hst)
    exact happly
  case offArmed =>
    subst ha hx
    have happly := d.done (f := axisOffOp) rfl (by simp only [axisOffOp, hst]; rfl)
    exact happly
  case offOff =>
    have happly := d.done (f := axisOffOp) rfl (by simp only [axisOffOp, hst]; rfl)
    exact happly
  case offRefused => exact a.refusedHere rfl (by simp [axisOffOp, axisBad_none hres haxis, hst])
  case offRuns =>
    subst ha hx
    exact acc.refusedTest rfl (by simp [axisOffOp, axisBad_none hres haxis, hst]) (by simp [axisOffOp, hst, hdue])

/-! ### Instants (R83, R87, R114, R116, R128, R141) -/

section

variable {ofs : Nat} {data : List Word} {s : State} {a : Nat} (ha : a = (ofs - 0x600000) / 64) (hlo : 0x600000 ≤ ofs) (hhi : ofs < 0x700000)
  (haxis : hasAxis s a = true) (hruns : regionRuns s (regionOfAxis a) = true) (hdie : dieRuns s 0 = true)
  (hclk : clocksRun s = true) (hboot : s.sec.bootState = 5) (hal : ofs % 4 = 0) (hdata : data ≠ [])
  (hfit : (ofs - 0x600000) % 64 + 4 * data.length ≤ 64)
include ha hlo hhi haxis hruns hdie hclk hboot hal hdata hfit

/-- A write that reaches the staging area is stored for a direct axis that no twin leads, and else discarded and counted. -/
theorem plainStagingWrite_reaches : plainStagingWrite ofs data true s = .next (
    if !(axis s a).cfg.direct || s.twin.role == .follower then
      raiseTraj (count (axisHalf
        (modAxis s a fun x => { x with dyn := { x.dyn with discards := sat32 (x.dyn.discards + 1) } }) a
        (axis s a).dyn.discards ((axis s a).dyn.discards + 1)) (regionBase (regionOfAxis a) + 0xC044) 1) a 6
    else stagingPut s a ((ofs - 0x600000) % 64) (wordsLe data)) := by
  subst ha
  have hin : ¬(ofs < 0x600000 ∨ 0x700000 ≤ ofs) := by omega
  have hshape : ¬(64 < (ofs - 0x600000) % 64 + 4 * data.length) := by omega
  simp only [plainStagingWrite, if_neg hin, haxis, hruns, hdie, hclk, hboot]
  simp [hal, hdata, hshape]

end

/-- A live axis whose cache is empty caches the good segment that the ring holds next. -/
theorem execSegmentFetch_good {a : Nat} {s : State} (hst : (axis s a).dyn.state = 1 ∨ (axis s a).dyn.state = 2)
    (hruns : engineRuns s a = true) (htrained : (ddrChan s (dieOfAxis a)).trained = true) (hcache : (axis s a).run.cache = [])
    (hheld : 0 < segHeld (axis s a) (axis s a).dyn.get) (hok : segOk (segBytes s a ((axis s a).dyn.get % 131072)) = true)
    (hseq : (segOf (segBytes s a ((axis s a).dyn.get % 131072))).seq = (axis s a).dyn.segExp) :
    execSegmentFetch a true s = .next (modAxis s a fun x => { x with
      dyn := { x.dyn with segExp := ((segOf (segBytes s a ((axis s a).dyn.get % 131072))).seq + 1) % 65536 }
      run := { x.run with
        cache := x.run.cache ++ [.seg (segOf (segBytes s a ((axis s a).dyn.get % 131072)))]
        decided := x.run.decided.map fun d =>
          { d with cache := d.cache ++ [.seg (segOf (segBytes s a ((axis s a).dyn.get % 131072)))] } } }) := by
  have hlive : ((axis s a).dyn.state == 1 || (axis s a).dyn.state == 2) = true := by rcases hst with h | h <;> simp [h]
  have hwaits : segHeld (axis s a) (axis s a).dyn.get ≠ 0 := by omega
  simp [execSegmentFetch, hlive, hruns, htrained, hcache, hwaits, hok, hseq]

/-- Settles O23. -/
theorem axisInstantsTakePlace : Obligations.AxisInstantsTakePlace := by
  refine ⟨fun a n s b hb hct hruns hnow hlast hfault => ?decision, fun a n s b hb hct hruns hlast => ?boundary,
    fun a s i b hi hb hst hruns htrained hcache hheld hok hseq => ?fetch, fun r n s c hcap hn hruns hclk hrole => ?publish,
    fun ofs data s a ha hlo hhi haxis hruns hdie hclk hboot hal hfree hdata hfit hdir hrole => ?staged,
    fun ofs data s a ha hlo hhi haxis hruns hdie hclk hboot hal hfree hdata hfit hdir => ?discarded⟩
  case decision =>
    subst hb
    simp [execAxisDecisionInstant, hct, hruns, Nat.not_le.mpr hnow, hlast, hfault]
  case boundary =>
    subst hb
    simp [execAxisBoundary, hct, hruns]
  case fetch =>
    subst hi hb
    rw [hcache, List.length_nil, Nat.add_zero] at hok hseq ⊢
    exact execSegmentFetch_good hst hruns htrained hcache hheld hok hseq
  case publish => simp [execDigestPublish, hcap, hn, hruns, hclk, hrole]
  case staged =>
    refine (heldOr_free hfree _).trans ((plainStagingWrite_reaches ha hlo hhi haxis hruns hdie hclk hboot hal hdata hfit).trans ?_)
    simp [hdir, hrole]
  case discarded =>
    refine (heldOr_free hfree _).trans ((plainStagingWrite_reaches ha hlo hhi haxis hruns hdie hclk hboot hal hdata hfit).trans ?_)
    simp [hdir]

end Sys2Proof.Machine
end

section
/-! The settled statements on the flow table and on queues, shapers and buffers. -/

namespace Sys2Proof.Machine

/-- A command that may join a transaction takes effect at once on its own. -/
theorem Solo.joins {s : State} {op : Nat} {h : CmdHdr} {w : List Word} {o : Out} (a : Solo s op h w) {f : TxnOp} {z : Applied}
    (ho : o = .next (runCmd s h op w (bodyJoin op f))) (hp : f.prep h w s = none)
    (ht : f.test h w [newMember s op h w] (nowNs s) s = none) (hz : f.apply h w (nowNs s) s = .ok z) :
    o = .next (deliver z.s h op (.rep (f.report h w z.k s) (f.words h w z))) := by
  rw [ho, a.join_run f z hp ht hz]

/-! ### Flow queries (R199, R200, R203) -/

/-- The contexts of a FLOW_COUNT_READ pass where each is a counter. -/
theorem find_notCounter_none {s : State} {l : List Nat} (h : ∀ f ∈ l, cKind (flow s f) = 5 ∨ cKind (flow s f) = 6) :
    (l.zipIdx.find? fun f => cKind (flow s f.1) != 5 && cKind (flow s f.1) != 6) = none := by
  rw [List.find?_eq_none]
  intro f hf
  rcases h f.1 (List.fst_mem_of_mem_zipIdx hf) with h5 | h6
  · simp [h5]
  · simp [h6]

/-- Settles O24. -/
theorem flowQueriesAnswer : Obligations.FlowQueriesAnswer := by
  refine ⟨fun h w s a hid hres hflow hdie => ?byId, fun h w s f a hkey hmatch => ?byKey, fun h w s a hkey hmatch => ?noKey,
    fun h w s a hcount hids hall => ?counts, fun h w s a hres hkey hport habs => ?tableAbsent, fun h w s a hres hok => ?table⟩
  case byId =>
    have hres0 : fld w 0 31 1 = 0 := by simp [fld, bits, hid]
    exact a.answers rfl (by simp [bodyFlowQuery, hres0, bit, hid, hres, hflow, hdie])
  case byKey =>
    have hres0 : fld w 0 31 1 = 0 := by simp [fld, bits, hkey]
    exact a.answers rfl (by simp only [bodyFlowQuery, hres0, bit, hkey, hmatch]; rfl)
  case noKey =>
    have hres0 : fld w 0 31 1 = 0 := by simp [fld, bits, hkey]
    exact a.answers rfl (by simp only [bodyFlowQuery, hres0, bit, hkey, hmatch]; rfl)
  case counts =>
    exact a.answers rfl (by simp only [bodyFlowCountRead, hcount, hids, Option.orElse_none, find_notCounter_none hall])
  case tableAbsent => exact a.answers rfl (by simp only [bodyFlowTableQuery, hres, if_pos (And.intro hkey (And.intro hport habs))]; rfl)
  case table => exact a.answers rfl (by simp only [bodyFlowTableQuery, hres, if_neg hok]; rfl)

/-! ### Flow commands and the sweep (R175 to R178, R181, R192, R195, R199, R202, R203) -/

/-- A FLOW_ADD that passes every check of R202 places and resolves its contexts. -/
theorem flowAddTry_ok {h : CmdHdr} {w : List Word} {s : State} {x : State × List Nat}
    (h1 : ∀ y ∈ (List.range (fld w 0 4 0)).map (carried w), ctxCheck1 y.2.2 y.2.1 = true) (hloc : localsIn w = true)
    (habs : carriedAbsent s w 7 = none)
    (hplace : placesOf h w (((List.range (fld w 0 4 0)).map (carried w)).map (·.2.2)) s = some x)
    (hcheck : flowChecks (resolve x.2 w x.1) h.die = none) : flowAddTry h w s = .ok (resolve x.2 w x.1, x.2) := by
  have hall : (((List.range (fld w 0 4 0)).map (carried w)).all fun y => ctxCheck1 y.2.2 y.2.1) = true := List.all_eq_true.mpr h1
  simp only [flowAddTry, hall, hloc, habs, hplace, hcheck]
  rfl

/-- FLOW_ADD answers the IDs that its rollback would free. -/
theorem flowAddOp_words (h : CmdHdr) (w : List Word) (s : State) (l : List Nat) :
    flowAddOp.words h w { s := s, undo := l.map fun f => .flow f {} } = l.map wd := by
  simp [flowAddOp, List.filterMap_map]

/-- A FLOW_WRITE that passes every check of R202 writes its contexts. -/
theorem flowWriteTry_ok {h : CmdHdr} {w : List Word} {s : State} {l : List (Nat × Nat × Ctx)}
    (hl : l = (List.range (fld w 0 4 0)).map fun i => (fld w (1 + 9 * i) 19 0, (carried w i).2))
    (h1 : ∀ x ∈ l, ctxCheck1 x.2.2 x.2.1 = true ∧ cKind x.2.2 = cKind (flow s x.1)) (habs : carriedAbsent s w 0 = none)
    (hcheck : flowChecks (l.foldl (fun u x => writeCtx u (bit (prm w 0) 5) x.1 x.2.2) s) h.die = none) :
    flowWriteTry h w s = .ok (l.foldl (fun u x => writeCtx u (bit (prm w 0) 5) x.1 x.2.2) s) := by
  have hall : (l.all fun x => ctxCheck1 x.2.2 x.2.1 && cKind x.2.2 == cKind (flow s x.1)) = true := by
    simpa [List.all_eq_true] using h1
  simp only [flowWriteTry, ← hl, hall, habs, hcheck]
  rfl

/-- The reserved bits of the contexts of a FLOW_ADD pass where each is zero. -/
theorem find_reserved_none {n : Nat} {g : Nat → Nat} (h : ∀ i < n, g i = 0) : (List.range n).find? (fun i => g i != 0) = none := by
  rw [List.find?_eq_none]
  intro i hi
  simp [h i (List.mem_range.mp hi)]

/-- A FLOW_RECOV_RESET of recoveries only is accepted. -/
theorem find_notRecovery_none {s : State} {l : List Nat} (h : ∀ f ∈ l, cKind (flow s f) = 4) :
    (l.zipIdx.find? fun f => cKind (flow s f.1) != 4) = none := by
  rw [List.find?_eq_none]
  intro f hf
  simp [h f.1 (List.fst_mem_of_mem_zipIdx hf)]

/-- Settles O25. -/
theorem flowCommandsTakeEffect : Obligations.FlowCommandsTakeEffect := by
  refine ⟨fun h w s l x a hcount hres hl h1 hloc habs hplace hcheck => ?add,
    fun h w s l t a hcount hids hl h1 habs ht hcheck => ?write, fun h w s t a hcount hids hdel => ?delete,
    fun h w s a hres hprof hprof' hres1 hflow => ?port, fun h w s a hres hlo hhi hres1 htest hres2 hreset => ?latent,
    fun h w s a hcount hids hall => ?recov, fun h w s c u d => ?recovAt, fun f s hdie hclk hkind hany hold => ?sweepRecovery,
    fun f s hdie hclk hkind hpol => ?sweepStream, fun q s hdie hclk => ?sweepQueue, fun d s hdie hclk => ?passEnd⟩
  case add =>
    subst hl
    have htry := flowAddTry_ok h1 hloc habs hplace hcheck
    have hdone := a.joins (f := flowAddOp) rfl (by simp only [flowAddOp, hcount, find_reserved_none hres, htry]; rfl) rfl
      (by simp only [flowAddOp, htry]; rfl)
    rw [flowAddOp_words] at hdone
    exact hdone
  case write =>
    subst ht
    have htry := flowWriteTry_ok hl h1 habs hcheck
    have hdone := a.joins (f := flowWriteOp) rfl (by simp only [flowWriteOp, hcount, hids, htry]; rfl) rfl
      (by simp only [flowWriteOp, htry]; rfl)
    exact hdone
  case delete =>
    have hdone := a.joins (f := flowDeleteOp) rfl (by simp only [flowDeleteOp, hcount, hids, hdel]; rfl) rfl
      (by simp only [flowDeleteOp, hdel]; rfl)
    exact hdone
  case port =>
    by_cases hdflt : bit (prm w 0) 22 = true
    · obtain ⟨hhas, hkind, hdie⟩ := hflow hdflt
      exact a.answers rfl (by simp_all [bodyFlowPortSet, fld])
    · exact a.answers rfl (by simp_all [bodyFlowPortSet, fld])
  case latent =>
    have hbad0 : ¬(fld w 0 31 7 ≠ 0 ∨ fld w 0 6 3 < 2 ∨ 8 < fld w 0 6 3) := by omega
    have hbad1 : ¬(fld w 1 31 24 ≠ 0 ∨ fld w 1 23 16 = 0) := by omega
    have hbad2 : ¬(fld w 2 31 8 ≠ 0 ∨ fld w 2 7 0 = 0) := by omega
    exact a.answers rfl (by simp only [bodyFlowLatentSet, if_neg hbad0, if_neg hbad1, if_neg hbad2])
  case recov =>
    exact a.registers rfl (by simp only [flowRecovResetOp, hcount, hids, find_notRecovery_none hall]; rfl) rfl
  case recovAt =>
    have hdone := d.done (f := flowRecovResetOp) rfl rfl
    exact hdone
  case sweepRecovery =>
    have hdue : recovTimer s f = recovReset s f := by rw [recovTimer, hany]; exact if_pos (by simpa using hold)
    simp [execSweepVisit, hdie, hclk, hkind, hdue]
  case sweepStream => simp [execSweepVisit, hdie, hclk, hkind, hpol]
  case sweepQueue => simp [execSweepVisit, hdie, hclk]
  case passEnd => simp [execSweepPassEnd, hdie, hclk]

/-! ### Queues, shapers and buffers (R206, R210, R217, R218, R220 to R224, R227) -/

/-- A change of a port depends on what it makes of the port. -/
theorem modPort_congr {s : State} {p : Nat} {f g : Port → Port} (h : f (port s p) = g (port s p)) : modPort s p f = modPort s p g := by
  rw [modPort, modPort, h]

/-- BUFFER_SET with sizes that R223 allows is refused only while a frame is spilled. -/
theorem bodyBufferSet_sized {h : CmdHdr} {w : List Word} {s : State} (hres : prm w 0 ≤ 393216) (hhyst : prm w 2 < prm w 1)
    (hpool : prm w 1 + prm w 0 ≤ 393216) (hsize : prm w 5 ≤ 2048) (halign : w64 w 3 % 2 ^ 20 = 0)
    (hfits : prm w 5 ≠ 0 → w64 w 3 + prm w 5 * 2 ^ 20 ≤ ddrBytes s h.die) :
    bodyBufferSet h w s =
      if spillUsed s h.die ≠ 0 then (s, .err stWrongState)
      else
        let b : BufCfg := { schedRes := prm w 0, spillOn := prm w 1, spillOff := prm w 2, spillBase := w64 w 3, spillSize := prm w 5 }
        (updateSpilling { s with traffic := { s.traffic with buf := s.traffic.buf.put h.die b {} } } h.die, .ok) := by
  have hbad0 : ¬(393216 < prm w 0 ∨ prm w 1 ≤ prm w 2 ∨ 393216 < prm w 1 + prm w 0) := by omega
  have hbad1 : ¬(2048 < prm w 5 ∨ w64 w 3 % 2 ^ 20 ≠ 0 ∨ (prm w 5 ≠ 0 ∧ ddrBytes s h.die < w64 w 3 + prm w 5 * 2 ^ 20)) := by
    rintro (h | h | ⟨hne, h⟩)
    · omega
    · exact h halign
    · exact absurd (hfits hne) (Nat.not_le.mpr h)
  simp only [bodyBufferSet, if_neg hbad0, if_neg hbad1]

/-- Settles O27. -/
theorem queueCommandsTakeEffect : Obligations.QueueCommandsTakeEffect := by
  refine ⟨fun h w s a hcount hids => ?query, fun h w s a hcount hids hres hok => ?write, fun h w s a hcount hids => ?flush,
    fun h w s c a hc hres hweight hmeter hres1 hres4 hres6 hburst hcredit hcir hpir hon hmax hsched => ?service,
    fun h w s c a hc hres hres1 hburst hcredit hon => ?shape,
    fun h w s a hres hhyst hpool hsize halign hfits hused => ?buffer, fun h w s a hres hhyst hpool hsize halign hfits hused => ?bufferUsed,
    fun h w s a hres hmode hold => ?ingressOff, fun h w s a hres hmode hold hmask => ?ingressSame,
    fun h w s c a hres hmode hmarks hmax htime hold hc => ?ingressPort, fun h w s a hscope => ?bufferQuery⟩
  case query => exact a.answers rfl (by simp only [bodyQueueQuery, hcount, hids, Option.orElse_none])
  case write =>
    have hres' : ((List.range (fld w 0 4 0)).any fun i => fld w (1 + 5 * i) 23 18 != 0) = false := by simpa using hres
    have hdone := a.joins (f := queueWriteOp) rfl (by simp only [queueWriteOp, hcount, hres', hids, hok]; rfl) rfl rfl
    exact hdone
  case flush => exact a.answers rfl (by simp only [bodyQueueFlush, hcount, hids, Option.orElse_none])
  case service =>
    subst hc
    have hbad : ¬(fld w 0 30 17 ≠ 0 ∨ (svcOf w).sweight = 0 ∨ (svcOf w).meter = 3 ∨ fld w 1 31 8 ≠ 0 ∨ fld w 4 31 8 ≠ 0 ∨
        fld w 6 31 8 ≠ 0 ∨ 2 ^ 24 ≤ (svcOf w).burst ∨ 2 ^ 24 ≤ (svcOf w).credit ∨ 2 ^ 24 ≤ (svcOf w).cir ∨
        2 ^ 24 ≤ (svcOf w).pir) := by omega
    have hrate : ¬((svcOf w).on = true ∧ (svcOf w).credit = 0) := fun h => hon h.1 h.2
    have hplain : ¬((svcOf w).meter ≠ 0 ∧ ((svcOf w).pir < (svcOf w).cir ∨ (svcOf w).cir = 0 ∨ (svcOf w).pir = 0 ∨
        (svcOf w).cbs = 0 ∨ (svcOf w).pbs = 0)) := fun h => h.1 hmeter
    have hmarks : ¬((svcOf w).maxY ≠ 0 ∧ (svcOf w).maxG ≠ 0 ∧ (svcOf w).maxG < (svcOf w).maxY) :=
      fun h => absurd (hmax h.1 h.2.1) (Nat.not_le.mpr h.2.2)
    have hdone := a.joins (f := serviceSetOp) rfl
      (by simp only [serviceSetOp, if_neg hbad, if_neg hrate, if_neg hmarks, if_neg hplain, hsched]; rfl) rfl rfl
    exact hdone
  case shape =>
    subst hc
    have hbad : ¬(fld w 0 30 1 ≠ 0 ∨ fld w 1 31 8 ≠ 0 ∨ 2 ^ 24 ≤ (pshapeOf w).burst ∨ 2 ^ 24 ≤ (pshapeOf w).credit) := by omega
    have hrate : ¬((pshapeOf w).on = true ∧ (pshapeOf w).credit = 0) := fun h => hon h.1 h.2
    have hdone := a.joins (f := portShapeOp) rfl (by simp only [portShapeOp, if_neg hbad, if_neg hrate]) rfl rfl
    exact hdone
  case buffer =>
    exact a.answers rfl (by simp only [bodyBufferSet_sized hres hhyst hpool hsize halign hfits, hused, ne_eq, not_true_eq_false, if_false])
  case bufferUsed =>
    exact a.answers rfl (by simp only [bodyBufferSet_sized hres hhyst hpool hsize halign hfits, if_pos hused])
  case ingressOff =>
    have hnew (m : Nat) : ¬(0 = (port s h.port).ing.mode ∧ m = (port s h.port).ing.mask) := fun h => hold h.1.symm
    refine a.answers rfl ?_
    simp only [bodyIngressSet, hres, hmode]
    exact congrArg (·, Reply.ok) (modPort_congr (if_neg (hnew _)))
  case ingressSame =>
    refine a.answers rfl ?_
    simp only [bodyIngressSet, hres, hmode]
    exact congrArg (·, Reply.ok) (modPort_congr (if_pos ⟨hold.symm, hmask.symm⟩))
  case ingressPort =>
    subst hc
    have hbad : ¬((1 : Nat) ≠ 0 ∧ (prm w 1 ≤ prm w 2 ∨ (prm w 3 ≠ 0 ∧ prm w 3 < prm w 1) ∨ fld w 0 25 10 = 0)) := by omega
    have hnew (m : Nat) : ¬(1 = (port s h.port).ing.mode ∧ m = (port s h.port).ing.mask) := fun h => hold h.1.symm
    refine a.answers rfl ?_
    simp only [bodyIngressSet, hres, hmode, if_neg hbad]
    exact congrArg (fun t => (acctUpdate t h.port 0, Reply.ok)) (modPort_congr (if_neg (hnew _)))
  case bufferQuery => exact a.answers rfl (by simp [bodyBufferQuery, hscope])

end Sys2Proof.Machine
end

section
/-! The settled statement on what ports send and receive. -/

namespace Sys2Proof.Machine

/-! ### What a port sends (R158, R163, R167, R208, R213, R215, R220) -/

/-- A MAC control frame whose sending keeps the launches starts. -/
theorem startMac_keeps {s : State} {p : Nat} {f : List Byte} (hmac : (port s p).txd.mac = some f)
    (hkeep : keepsLaunch s p (lineQ p (port s p)) (now16 s * 100) (now16 s * 100 + lineQ p (port s p) * (f.length + 20)) = true) :
    startMac s p = some (startTx (modPort s p fun x => { x with txd := { x.txd with mac := none } }) p
      { bytes := withSa (port s p) f, t16 := now16 s, cls := 8, now := f.length }) := by
  simp only [startMac, hmac, hkeep, if_true]

/-- What a sleeping port was sending resumes. -/
theorem resumePend_sleeping {s : State} {p : Nat} {f : Tx} (hpend : (port s p).txd.pend = some f)
    (hsleep : (port s p).link.sleeping = true) :
    resumePend s p = some (startTx (modPort s p fun x => { x with txd := { x.txd with pend := none } }) p
      { f with t16 := now16 s, now := f.bytes.length - f.sent }) := by
  simp only [resumePend, hpend, hsleep, Bool.true_or, if_true]

/-! ### What a port takes (R163, R168, R169, R179) -/

/-- Settings that no frame waits for are those in force. -/
theorem underSettings_current {s : State} {p t : Nat} {f : State → State} (hold : (port s p).oldSets.all (·.1 ≤ t) = true) :
    underSettings s p t f = f s := by
  simp [underSettings, hold]

/-- At the end of its identification fields a frame on the pins is decided on. -/
theorem execCutThroughDecision_whole {s : State} {p t : Nat} {hd : List Byte} (hrec : receives s p = true)
    (hid : idEnd (port s p) hd ≤ hd.length) (hhead : headEnd p (port s p) hd ≤ hd.length)
    (hold : (port s p).oldSets.all (·.1 ≤ t) = true) :
    exec (.cutThroughDecision p t hd) s = .next (cutDecision s p t hd) := by
  have hwhole : ¬hd.length < max (headEnd p (port s p) hd) (idEnd (port s p) hd) := by omega
  simp only [exec_cutThroughDecision, execCutThroughDecision, hrec, hwhole, decide_false, Bool.not_true, Bool.or_self,
    underSettings_current hold, Bool.false_eq_true, if_false]

/-- A frame of a STREAM without CUT is not cut through. -/
theorem cutDecision_stored {s : State} {p t f : Nat} {hd : List Byte} (hstream : streamOf s p hd = some f)
    (hcut : stCut (flow s f) = false) : cutDecision s p t hd = s := by
  delta cutDecision
  simp [hstream, hcut]

/-- A port that receives nothing decides on nothing. -/
theorem execCutThroughDecision_deaf {s : State} {p t : Nat} {hd : List Byte} (hrec : receives s p = false) :
    exec (.cutThroughDecision p t hd) s = .next s := by
  simp [execCutThroughDecision, hrec]

/-- Settles O28. -/
theorem portsSendAndReceive : Obligations.PortsSendAndReceive := by
  refine ⟨fun p s u f hsend hu htx hpre => ?express, fun p s u f c hsend hu htx hpre hc => ?cut,
    fun p s u f hsend hu htx hfree hawake hmac hkeep => ?mac, fun p s u c hsend hu htx hfree hawake hmac hc => ?chosen,
    fun p s u f hsend hu htx hfree hsleep hpend hhold hopen hkeep => ?resumed, fun p s f htx hnow => ?ended,
    fun q s c i hfind hi htrained hcopies hroom => ?readBack, fun p t b e s hrec => ?received, fun p t b e s hrec => ?deaf,
    fun p t s hrec hpe hsend => ?respond, fun p t s hrec hsend => ?silent, fun p t d s hrec => ?fragment, fun p t d s hrec => ?whole,
    fun p t hd s hshort => ?early, fun p t hd s f hstream hkind hcut hold => ?stored,
    fun p t hd s f c u ch y hstream hc hkind hcut hcourse hpause htwin hptp hin hrec hid hframe hhead hold hu hch hy hpass => ?policed,
    fun p t hd s f c u ch y z hstream hc hkind hcut hcourse hpause htwin hptp hin hrec hid hframe hhead hold hu hch hy hpass hz hset =>
      ?cutThrough⟩
  case express =>
    simp only [exec_egressSelect, execEgressSelect, hsend, ← hu, htx, hpre, Bool.not_true, Bool.false_eq_true, if_false, Bool.false_and]
  case cut =>
    simp only [exec_egressSelect, execEgressSelect, hsend, ← hu, htx, hpre, hc, Bool.not_true, Bool.false_eq_true, if_false, Option.isSome_some,
      Bool.or_true, Bool.and_self, if_true]
  case mac =>
    simp only [exec_egressSelect, execEgressSelect, hsend, ← hu, htx, Nat.not_lt.mpr hfree, hawake, startMac_keeps hmac hkeep, Bool.not_true,
      Bool.false_eq_true, if_false]
  case chosen =>
    simp only [exec_egressSelect, execEgressSelect, hsend, ← hu, htx, Nat.not_lt.mpr hfree, hawake, startMac, hmac, hc, Bool.not_true,
      Bool.false_eq_true, if_false]
  case resumed =>
    simp only [exec_egressSelect, execEgressSelect, hsend, ← hu, htx, Nat.not_lt.mpr hfree, hsleep, resumePend_sleeping hpend hsleep,
      Bool.not_true, Bool.false_eq_true, if_false, if_true, Option.getD_some]
  case ended => simp [execFrameTransmitEnd, htx, hnow]
  case readBack =>
    have hroom : ¬(393216 - (bufCfg s (dieOfQueue q)).schedRes - sharedUsed s (dieOfQueue q) <
      cellsOf (frameAt s c.frame).bytes.length) := by omega
    simp [execSpillReadback, hfind, Nat.not_le.mpr hi, htrained, hcopies, hroom]
  case received => simp [execFrameReceive, frameOnPins, hrec]
  case deaf => simp [execFrameReceive, frameOnPins, hrec]
  case respond => simp [execMpacketReceive, hrec, hpe, hsend]
  case silent => simp [execMpacketReceive, hrec, hsend]
  case fragment => simp [execMpacketReceive, hrec]
  case whole => simp [execMpacketReceive, hrec]
  case early => simp [execCutThroughDecision, hshort]
  case stored =>
    cases hrec : receives s p
    case false => exact execCutThroughDecision_deaf hrec
    case true =>
      rw [exec_cutThroughDecision]
      unfold execCutThroughDecision
      rw [underSettings_current hold, cutDecision_stored hstream hcut, ite_self]
  case policed =>
    subst hc hu hch hy
    rw [execCutThroughDecision_whole hrec hid hhead hold]
    delta cutDecision
    simp [hstream, hkind, hcut, hcourse, hpause, htwin, hptp, hin, hframe, hpass]
  case cutThrough =>
    subst hc hu hch hy hz
    rw [execCutThroughDecision_whole hrec hid hhead hold]
    delta cutDecision
    simp [hstream, hkind, hcut, hcourse, hpause, htwin, hptp, hin, hframe, hpass, hset]

end Sys2Proof.Machine
end

section
/-! The settled statements on the twins. -/

namespace Sys2Proof.Machine

/-! ### Commands (R253, R255, R269, R270, R278, R279, R303) -/

/-- An instant on a boundary of the line base is good. -/
theorem lineBad_none {s : State} {w : List Word} {i t : Nat} (hinst : instantAt w i = .ok t)
    (hbound : isBoundary s s.line.baseCt t = true) : lineBad s w i = none := by
  simp only [lineBad, hinst, hbound, if_true]

/-- The upper halves of the partner's MAC words are reserved. -/
theorem find_partnerMac_none {w : List Word} (hmac : ∀ i ∈ [3, 5, 7, 9], fld w i 31 16 = 0) :
    ([3, 5, 7, 9].find? fun i => fld w i 31 16 != 0) = none := by
  rw [List.find?_eq_none]
  intro i hi
  simp [hmac i hi]

/-- Settles O29. -/
theorem twinCommandsTakeEffect : Obligations.TwinCommandsTakeEffect := by
  refine ⟨fun h w s a => ?query, fun h w s a hoff hres hk hdev hmac3 hmac5 hmac7 hmac9 hload => ?set, fun h w s a hon => ?setRefused,
    fun h w s b a hrole hlast hb hlive => ?lead, fun h w s b a hrole hlast hb hlive => ?leadRefused, fun h w s a hoff => ?follow,
    fun h w s a hon => ?followRefused, fun h w s tb a hinst hbound hlead hready => ?handover, fun h w s c u d hlead => ?handoverAt,
    fun h w s c u d hlost => ?handoverLost, fun h w s a hlead => ?sync, fun h w s a hlead => ?syncRefused,
    fun h w s a hrole hcourse => ?off⟩
  case query => exact a.answers rfl rfl
  case set =>
    have hfind := find_partnerMac_none (w := w) (by simp [hmac3, hmac5, hmac7, hmac9])
    have hlen : ¬(fld w 0 31 9 ≠ 0 ∨ fld w 0 8 1 < 4) := by omega
    exact a.answers rfl (by simp only [bodyTwinSet, hoff, if_neg hlen, hdev, hfind, hload]; rfl)
  case setRefused => exact a.answers rfl (by simp [bodyTwinSet, hon])
  case lead =>
    subst hb
    have hmay : ¬(s.twin.role ≠ .off ∧ s.twin.role ≠ .follower) := by tauto
    exact a.answers rfl (by simp only [bodyTwinLead, if_neg hmay, hlast, Option.any_none, Bool.false_eq_true, if_false, hlive])
  case leadRefused =>
    subst hb
    have hmay : ¬(s.twin.role ≠ .off ∧ s.twin.role ≠ .follower) := by tauto
    exact a.answers rfl (by simp only [bodyTwinLead, if_neg hmay, hlast, Option.any_none, Bool.false_eq_true, if_false, hlive, if_true])
  case follow => exact a.answers rfl (by simp [bodyTwinFollow, hoff])
  case followRefused => exact a.answers rfl (by simp [bodyTwinFollow, hon])
  case handover => exact a.registers rfl (by simp [twinHandoverOp, lineBad_none hinst hbound, hlead, hready]) rfl
  case handoverAt =>
    have happly := d.done (f := twinHandoverOp) rfl (if_neg (not_not.mpr hlead))
    exact happly
  case handoverLost =>
    have happly := d.failed (f := twinHandoverOp) rfl (if_pos hlost)
    exact happly
  case sync => exact a.answers rfl (by simp [bodyTwinSync, hlead])
  case syncRefused => exact a.answers rfl (by simp [bodyTwinSync, hlead])
  case off => exact a.answers rfl (by simp [bodyTwinOff, hrole, hcourse])

/-! ### Events (R254 to R257, R259 to R264, R268 to R270) -/

section

variable {s u : State} {r : TwinRec} {l : List TwinRec}

/-- A record that waits is used at its instant. -/
theorem RecordWaits.withRecAt {ty : Nat} (a : RecordWaits s ty r l) (hu : u = at16 { s with mirror := { s.mirror with recQ := l } } r.t)
    (f : State → TwinRec → State) : Machine.withRec s ty f = f u r := by
  rw [hu, a.withRec f]

/-- A record's instant leaves the role as it is. -/
theorem RecordWaits.roleAt {ty : Nat} (_ : RecordWaits s ty r l)
    (hu : u = at16 { s with mirror := { s.mirror with recQ := l } } r.t) : u.twin.role = s.twin.role := by
  rw [hu]
  rfl

end

@[simp] theorem lineNo_atNs (s : State) (b t : Nat) : lineNo (atNs s b) t = lineNo s t := rfl

/-- Settles O30. -/
theorem twinEventsTakePlace : Obligations.TwinEventsTakePlace := by
  refine ⟨fun t s hruns hstay => ?claimed, fun t s hruns hclaim hside => ?yields, fun s e hedge hruns => ?claimDead,
    fun t s hruns => ?breath, fun u blk t s m hgood hup hrole hm hword => ?breathWord, fun m s hruns hrole hseen => ?lone,
    fun u t b s hrec => ?frameIn, fun u s mine hmine hne hruns hlane hbad hother => ?otherLane,
    fun u s₀ s n mac mine fs hwait hruns hlane hgood hs hmine hne hn hfs hmac => ?frameOut,
    fun u blk s hgood hup hrole hreg => ?digest, fun n s m hruns hrole hjudged hm => ?deadline,
    fun u blk s hgood hup hrole => ?handover, fun s b hb hruns hrole => ?handoverNow, fun s r l u a hu hport => ?foreignBrick,
    fun s r l u o n d base e a hu hport hn hcheck hlive hd hcount hruns hmerge hoffer hflag hcyc hbase hlate he htaken => ?brick,
    fun s r l u x a hu hx hrole haxis hdir => ?direct, fun s r l u pk hd a hu hrole hpk hlen hcrc hhd hcheck => ?command,
    fun s r l u a x cb b v hw hu hrole ha hx hb hcb haxis hct hnow hv => ?axsync,
    fun s f u hf hclk hu hrun hop => ?forwarded⟩
  case claimed =>
    simp only [exec_leadInEdge, execLeadInEdge, hruns, Bool.not_true, Bool.false_eq_true, if_false]
    exact congrArg _ (if_neg hstay)
  case yields => simp [execLeadInEdge, hruns, atNs_twin, hclaim, hside]
  case claimDead => simp [execClaimDead, hedge, hruns]
  case breath => simp [execBreathInEdge, hruns]
  case breathWord =>
    subst hm
    simp [execBreathWordReceive, hgood.blockIn, List.contains_iff_mem.mp hup, hrole, hword]
  case lone =>
    have hfollows : (s.twin.role != .follower) = false := by rw [hrole]; rfl
    simp only [exec_lone, execLone, hruns, hfollows, beq_false_of_ne hseen]
    rfl
  case frameIn => simp [execTwinFrameReceive, frameOnPins, hrec]
  case otherLane =>
    subst hmine
    simp only [exec_twinFrameSend, execTwinFrameSend, List.isEmpty_eq_false_iff.mpr hne, hruns, hlane, hbad, hother]
    rfl
  case frameOut =>
    subst hs hmine hn hfs hmac
    simp only [exec_twinFrameSend, execTwinFrameSend, List.isEmpty_eq_false_iff.mpr hwait, hruns, hlane, hgood,
      List.isEmpty_eq_false_iff.mpr hne]
    rfl
  case digest => simp [execDigestBlockReceive, hgood.blockIn, List.contains_iff_mem.mp hup, hrole, hreg]
  case deadline =>
    subst hm
    simp only [exec_digestDeadline, execDigestDeadline, hruns, beq_false_of_ne hrole, beq_false_of_ne hjudged]
    rfl
  case handover => simp [execHandoverReceive, hgood.blockIn, List.contains_iff_mem.mp hup, hrole]
  case handoverNow => simp [execHandoverBoundary, handoverNow, hb, hruns, hrole]
  case foreignBrick => simp [execBrickRecordReceive, a.withRecAt hu, hport]
  case brick =>
    subst hn hd hbase he
    rcases hlive with hlive | hlive <;>
      simp [execBrickRecordReceive, a.withRecAt hu, hport, hcheck, hlive, Nat.not_le.mpr hcount, hruns, hmerge, hoffer, hflag, hcyc,
        Nat.not_lt.mpr hlate, htaken]
  case direct =>
    subst hx
    simp [execDirectRecordReceive, a.withRecAt hu, a.roleAt hu, hrole, haxis, hdir]
  case command =>
    subst hpk hhd
    simp [execCommandRecordReceive, a.withRecAt hu, a.roleAt hu, hrole, Nat.not_lt.mpr hlen, hcrc, hcheck]
  case axsync =>
    subst ha hx hb hcb hv
    have hahead : ¬(near16 u (beAt r.bytes 4 4 * 65536) / 65536 + (axis u (beAt r.bytes 2 2)).cfg.ct ≤ nowNs u + 2000) := by omega
    simp [execAxsyncRecordReceive, hw.withRecAt hu, hw.roleAt hu, hrole, haxis, hct, hahead]
  case forwarded =>
    simp only [exec_forwardedCommandCommit, execForwardedCommandCommit, hf, hclk, atNs_mirror, ← hu, hrun, hop]
    rfl

end Sys2Proof.Machine
end

section
/-! The settled statements on the system and the Hyith links. -/

namespace Sys2Proof.Machine

/-! ### Commands (R274, R275, R276, R278, R280, R303) -/

/-- The two device numbers of each range of SYS_ROUTE_SET have 18 bits. -/
theorem find_route_none {w : List Word} {n : Nat} (hall : ∀ i < 2 * n, fld w (1 + i) 31 18 = 0) :
    ((List.range (2 * n)).find? fun i => fld w (1 + i) 31 18 != 0) = none := by
  rw [List.find?_eq_none]
  intro i hi
  simp [hall i (List.mem_range.mp hi)]

/-- Settles O31. -/
theorem systemCommandsTakeEffect : Obligations.SystemCommandsTakeEffect := by
  refine ⟨fun h w s a => ?query, fun h w s a hok => ?set, fun h w s r a hbad => ?setRefused, fun h w s n a hn hres hmax hall => ?route,
    fun h w s tb a hinst hbound hacting => ?rootReturn, fun h w s c u d hacting => ?returnAt, fun h w s c u d hidle => ?returnLost,
    fun h w s tb a hinst hbound hidle => ?returnRefused, fun h w s a => ?linkQuery⟩
  case query => exact a.answers rfl rfl
  case set => exact a.answers rfl (by simp only [bodySysSet, hok])
  case setRefused => exact a.answers rfl (by simp only [bodySysSet, hbad])
  case route =>
    subst hn
    have hcount : ¬(fld w 0 31 4 ≠ 0 ∨ 8 < fld w 0 3 0) := by omega
    exact a.answers rfl (by simp only [bodySysRouteSet, if_neg hcount, find_route_none hall])
  case rootReturn => exact a.registers rfl (by simp [sysRootReturnOp, lineBad_none hinst hbound, hacting]) rfl
  case returnAt =>
    have happly := d.done (f := sysRootReturnOp) rfl (if_neg (by simp [hacting]))
    exact happly
  case returnLost =>
    have happly := d.failed (f := sysRootReturnOp) rfl (if_pos (by simp [hidle]))
    exact happly
  case returnRefused => exact a.refused rfl (by simp [sysRootReturnOp, lineBad_none hinst hbound, hidle])
  case linkQuery => exact a.answers rfl rfl

/-! ### Control blocks (R61, R62, R271 to R273, R276, R277, R355, R383) -/

/-- A standby parent takes over only by its own time words. -/
theorem standbySwitch_other {s : State} {u : Nat} (hother : s.sys.standby ≠ u) : standbySwitch s u = s := by
  simp [standbySwitch, hother]

/-- What is kept of a link's time words is no choice of the source. -/
@[simp] theorem isSource_modTlink (s : State) (u : Nat) (f : TimeLink → TimeLink) (v : Nat) : isSource (modTlink s u f) v = isSource s v := rfl

@[simp] theorem nowNs_modTlink (s : State) (u : Nat) (f : TimeLink → TimeLink) : nowNs (modTlink s u f) = nowNs s := rfl
@[simp] theorem isSource_modHlink (s : State) (u : Nat) (f : HLink → HLink) (v : Nat) : isSource (modHlink s u f) v = isSource s v := rfl

/-- Settles O32. -/
theorem linkEventsTakePlace : Obligations.LinkEventsTakePlace := by
  refine ⟨fun u blk s hon hlen hcrc => ?badBlock, fun u blk s hgood => ?credit, fun u s f r hq hon hflip hsome hless hslot => ?send,
    fun u s hflip => ?flipped, fun u s hwait hnone => ?noCredit, fun u s i t e v hsends hi ht he hv hchild hfurther hshort hfirst => ?word,
    fun u s i t e v hsends hi ht he hv hfurther hshort => ?furtherLink, fun u blk t s v hgood hv hparent hstandby => ?wordIn,
    fun u blk s k t1 x hgood hk ht1 hnew hfollows hx hsource => ?echo, fun u blk s hgood hsource hsec hseq => ?epoch,
    fun u blk e s z hgood htrim hport hmark => ?mark, fun u blk s hgood hdev hsource => ?root,
    fun s u hpos hidle hparent hclk hlost hu hlow => ?acting⟩
  case badBlock => simp [execCreditReceive, blockIn, hon, hlen, hcrc]
  case credit => simp [execCreditReceive, hgood.blockIn]
  case send =>
    simp only [exec_hyithCommandSend, execHyithCommandSend, hq, hon, hflip, hsome, Nat.not_le.mpr hless, hslot]
    rfl
  case flipped =>
    cases hq : (hlink s u).outQ with
    | nil => simp only [exec_hyithCommandSend, execHyithCommandSend, hq]
    | cons f r => simp [execHyithCommandSend, hq, hflip]
  case noCredit =>
    cases hq : (hlink s u).outQ with
    | nil => exact absurd hq hwait
    | cons f r => simp [execHyithCommandSend, hq, hnone]
  case word =>
    simp only [exec_timeWordSend, execTimeWordSend, hsends, ← hi, ← ht, ← he, ← hv, beq_false_of_ne hchild, beq_false_of_ne hfurther, hshort,
      hfirst]
    rfl
  case furtherLink =>
    simp only [exec_timeWordSend, execTimeWordSend, hsends, ← hi, ← ht, ← he, ← hv, hfurther, hshort]
    rfl
  case wordIn =>
    subst hv
    simp only [exec_timeWordReceive, execTimeWordReceive, hgood.blockIn, modHlink_sys, modTlink_sys, at16_sys, hparent, if_false,
      nowNs_modTlink]
    exact congrArg _ (standbySwitch_other hstandby)
  case echo =>
    subst hk hx
    simp [execEchoReceive, hgood.blockIn, ht1, hnew, hfollows, hsource]
  case epoch => simp [execEpochReceive, hgood.blockIn, hsource, hsec, hseq]
  case mark => simp [execMarkReceive, hgood.blockIn, htrim, hport, trimMark, hmark]
  case root =>
    simp only [exec_rootReceive, execRootReceive, hgood.blockIn, modHlink_sys, hdev, if_false, isSource_modHlink, hsource]
    rfl
  case acting =>
    simp only [exec_masterTimeout, execMasterTimeout, hpos, hidle, Nat.not_le.mpr hparent, hclk, hlost, if_true, ← hu, hlow]
    rfl

end Sys2Proof.Machine
end

section
/-! The settled statement on transactions. -/

namespace Sys2Proof.Machine

/-! ### Commit (R300, R304) -/

section

variable {s : State} {h : CmdHdr} {w : List Word} {t : Txn} {c : Nat}

/-- Only a LEADER forwards commands. -/
theorem leads_false (hrole : s.twin.role ≠ .leader) (op : Nat) (h : CmdHdr) : leads s op h = false := by
  simp [leads, hrole]

/-- A package that is no LEADER forwards no member. -/
theorem firstForwarded_none (hrole : s.twin.role ≠ .leader) (ms : List Member) : firstForwarded s ms = none := by
  simp [firstForwarded, leads_false hrole]

/-- Where nothing is forwarded the FOLLOWER has nothing to do. -/
theorem partnerDoes_unled (s : State) : partnerDoes s false = (s, true) := rfl

/-- Nothing is sent of members that are not forwarded. -/
theorem forwardMembers_none (hrole : s.twin.role ≠ .leader) (c : Nat) (ms : List Member) : forwardMembers s c ms = s := by
  induction ms with
  | nil => rfl
  | cons m ms ih => simpa only [forwardMembers, List.foldl_cons, leads_false hrole, Bool.false_eq_true, if_false] using ih

/-- What the reply of a commit says of its members does not change which of them are forwarded. -/
theorem firstForwarded_map {f : Member → Member} (hop : ∀ m, (f m).op = m.op) (hh : ∀ m, (f m).h = m.h) (ms : List Member) :
    firstForwarded s (ms.map f) = firstForwarded s ms := by
  simp [firstForwarded, List.findIdx?_map, Function.comp_def, hop, hh]

section

variable (hfind : findTxn s h (fld w 0 7 0) false = some t) (hc : commitAt s w = .ok c) (hbar : barred t = none)
  (htest : commitTest s c t.members = none)
include hfind hc hbar htest

/-- A commit whose members all pass, here and on the FOLLOWER, is accepted. -/
theorem commitTxn_accepted (hpart : (partnerDoes s (firstForwarded s t.members).isSome).2 = true) :
    commitTxn h w s = (forwardMembers (modTxn (partnerDoes s (firstForwarded s t.members).isSome).1 t.id
      fun t => { t with commit := some (c, h) }) c t.members, none) := by
  simp only [commitTxn, hfind, hc, hbar, htest, hpart, if_true]

/-- Members that the FOLLOWER has not prepared close the transaction, the first of them named. -/
theorem commitTxn_unprepared {n : Nat} (hn : firstForwarded s t.members = some n) (hpart : (partnerDoes s true).2 = false) :
    ∃ ws, commitTxn h w s = (closeTxn (partnerDoes s true).1 t.id, some { st := stTxnFailed, detail := n, w := ws }) := by
  have hfirst : firstForwarded s (t.members.map fun m => { m with outcome := m.st }) = some n := by
    rw [← hn]
    exact firstForwarded_map (f := fun m => { m with outcome := m.st }) (fun _ => rfl) (fun _ => rfl) _
  refine ⟨commitWords { t with members := t.members.map fun m => { m with outcome := m.st }, partnerFail := true } c, ?_⟩
  simp only [commitTxn, hfind, hc, hbar, htest, hn, Option.isSome_some, hpart, Bool.false_eq_true, if_false, hfirst, Option.getD_some]

end

end

/-- Settles O33. -/
theorem transactionsRun : Obligations.TransactionsRun := by
  refine ⟨fun h w s a hlo hhi hroom => ?opened, fun h w s a hlo hhi hfull => ?noSpace, fun h w s t a hres hfind => ?aborted,
    fun h w s a hres hfind => ?unknown, fun h w s t a hres hfind => ?query, fun id s t hfind hopen => ?expired,
    fun h w s t c a hfind hc hbar htest hrole => ?commit, fun h w s t c y a hfind hc hbar htest hy hpart => ?commitLed,
    fun h w s t c n a hfind hc hbar htest hn => ?commitPartner, fun h w s t c n a hfind hc hbar => ?commitBarred,
    fun h w s a hfind => ?commitUnknown, fun id s t c h u y r hfind hcommit hroll hcores hu hy hr hpart hall hid => ?applied,
    fun id s t c h u y r hfind hcommit hroll hcores hu hy hr hfail hsome hid => ?rollsBack,
    fun id s t c h u r hfind hcommit hroll hcores hu hled hne hr hall hnone hid => ?partially,
    fun s t c h u y m l z hfind hcommit hroll hcores hm hu hy hz happ => ?ownPartner, fun h w s op f c u a d hf hok => ?ownDone,
    fun h w s op f c u r d hf herr => ?ownFailed, fun s t c h rb m l r hfind hcommit hroll hcores hm hr => ?ownRollback,
    fun id s t c h rb r hid hfind hcommit hroll hcores hr => ?rollback⟩
  case opened =>
    have hms : ¬(prm w 0 = 0 ∨ 60000 < prm w 0) := by omega
    exact a.answers rfl (by simp only [bodyTxnOpen, if_neg hms, Nat.not_le.mpr hroom]; rfl)
  case noSpace =>
    have hms : ¬(prm w 0 = 0 ∨ 60000 < prm w 0) := by omega
    exact a.answers rfl (by simp only [bodyTxnOpen, if_neg hms, hfull, if_true])
  case aborted => exact a.answers rfl (by simp only [bodyTxnAbort, hres, hfind]; rfl)
  case unknown => exact a.answers rfl (by simp only [bodyTxnAbort, hres, hfind]; rfl)
  case query => exact a.answers rfl (by simp only [bodyTxnQuery, hres, hfind]; rfl)
  case expired =>
    simp only [exec_txnExpired, execTxnExpired, hfind, hopen]
    rfl
  case commit =>
    have hpart : partnerDoes s (firstForwarded s t.members).isSome = (s, true) := by rw [firstForwarded_none hrole]; rfl
    have hcom := commitTxn_accepted hfind hc hbar htest (by rw [hpart])
    rw [hpart, forwardMembers_none (s := modTxn s t.id fun t => { t with commit := some (c, h) }) hrole] at hcom
    exact a.answersLater rfl hcom
  case commitLed =>
    subst hy
    exact a.answersLater rfl (commitTxn_accepted hfind hc hbar htest hpart)
  case commitPartner =>
    cases hpart : (partnerDoes s true).2 with
    | true =>
      have hcom := commitTxn_accepted hfind hc hbar htest (by rw [hn]; exact hpart)
      rw [hn] at hcom
      refine ⟨[], ?_⟩
      simp only [hpart, if_true]
      exact a.answersLater rfl hcom
    | false =>
      obtain ⟨ws, hcom⟩ := commitTxn_unprepared hfind hc hbar htest hn hpart
      refine ⟨ws, ?_⟩
      simp only [hpart, Bool.false_eq_true, if_false]
      exact a.answersNow rfl hcom
  case commitBarred => exact ⟨_, a.answersNow rfl (by simp only [commitTxn, hfind, hc, hbar]; rfl)⟩
  case commitUnknown => exact a.answersNow rfl (by simp only [commitTxn, hfind])
  case applied =>
    obtain ⟨n, rfl⟩ := Nat.exists_eq_succ_of_ne_zero hid
    simp only [exec_txnCommitApply, execTxnCommitApply, hfind, hcommit, hroll, hcores, ← hu, ← hy, ← hr, hpart, hall]
    rfl
  case rollsBack =>
    obtain ⟨n, rfl⟩ := Nat.exists_eq_succ_of_ne_zero hid
    have hnot : (y.2 && r.2.all (·.applied)) = false := by
      rcases hfail with h | h <;> simp only [h, Bool.false_and, Bool.and_false]
    have hleft : (!(firstForwarded u t.members).isSome && r.2.all (!·.applied)) = false := by
      rcases hsome with h | h <;> simp only [h, Bool.not_true, Bool.false_and, Bool.and_false]
    simp only [exec_txnCommitApply, execTxnCommitApply, hfind, hcommit, hroll, hcores, ← hu, ← hy, ← hr, hnot, hleft]
    rfl
  case partially =>
    obtain ⟨n, rfl⟩ := Nat.exists_eq_succ_of_ne_zero hid
    simp only [exec_txnCommitApply, execTxnCommitApply, hfind, hcommit, hroll, hcores, ← hu, hled, Option.isSome_none,
      partnerDoes_unled, ← hr, hall, hnone]
    rfl
  case ownPartner =>
    cases hpart : y.2 with
    | true => exact ⟨_, exec_txnCommitApply 0 s, nofun⟩
    | false =>
      refine ⟨_, ?_, fun _ => rfl⟩
      simp only [exec_txnCommitApply, execTxnCommitApply, hfind, hcommit, hroll, hcores, hm, ← hu, ← hy, ← hz, happ, hpart]
      rfl
  case ownDone => exact d.done hf hok
  case ownFailed => exact d.failed hf herr
  case ownRollback =>
    rw [hm] at hr
    simp only [exec_txnRollback, execTxnRollback, hfind, hcommit, hroll, hcores, hm, ← hr]
    rfl
  case rollback =>
    obtain ⟨n, rfl⟩ := Nat.exists_eq_succ_of_ne_zero hid
    simp only [exec_txnRollback, execTxnRollback, hfind, hcommit, hroll, hcores, ← hr]
    rfl

end Sys2Proof.Machine
end

section
/-! The settled statements on faults. -/

namespace Sys2Proof.Machine

/-! ### Commands and registers (R335, R343 to R346) -/

/-- A parameter below a field's lowest bit leaves the field zero. -/
theorem fld_of_lt {w : List Word} {i hi lo : Nat} (h : prm w i < 2 ^ lo) : fld w i hi lo = 0 := by
  rw [fld, bits, Nat.div_eq_of_lt h, Nat.zero_mod]

/-- The length of FAULTn's pulse is 1 to 1,000 ms. -/
theorem faultnLength_ok {w : List Word} (hlo : 1 ≤ prm w 0) (hhi : prm w 0 ≤ 1000) :
    ¬(fld w 0 31 10 ≠ 0 ∨ prm w 0 = 0 ∨ 1000 < prm w 0) := by
  have htop : fld w 0 31 10 = 0 := fld_of_lt (by omega)
  omega

/-- Settles O35. -/
theorem faultCommandsTakeEffect : Obligations.FaultCommandsTakeEffect := by
  refine ⟨fun h w s p a hscope hp => ?query, fun h w s l a hl hsrc hwin hreact hok => ?set, fun h w s a hsrc hwin hbad => ?setRefused,
    fun h w s a hmask => ?clear, fun h w s a hlo hhi hkeep => ?pulse, fun h w s a hlo hhi hrel => ?pulseRelease,
    fun h w s a hres hfree => ?lso, fun h w s a hres hbar => ?lsoRefused, fun loc v s hpres hr hfree => ?sticky,
    fun s hr hass hcase hend => ?release, fun s hr hcase => ?barred, fun v s hr hmay => ?drive, fun v s hr hv hbar => ?driveIgnored⟩
  case query =>
    subst hp
    exact a.answers rfl (by simp only [bodyFaultQuery, targetLoc, hscope]; rfl)
  case set =>
    subst hl
    have hwindow : ¬(fld w 1 15 0 ≠ 0 ∧ fld w 1 31 16 = 0) := fun ⟨hn, hw⟩ => hwin hn hw
    have hreaction : ¬(8 ≤ prm w 2 ∨ reactionOk (targetLoc h) (prm w 0) (prm w 2) = false) := by simp [hok, hreact]
    exact a.answers rfl (by simp only [bodyFaultSet, Nat.not_le.mpr hsrc, if_neg hwindow, if_neg hreaction, if_false])
  case setRefused => exact a.answers rfl (by simp [bodyFaultSet, Nat.not_le.mpr hsrc, hwin, hbad])
  case clear => exact a.answers rfl (by simp only [bodyFaultClear, Nat.div_eq_of_lt hmask]; rfl)
  case pulse =>
    have hres : fld w 1 31 1 = 0 := by simp [fld, bits, hkeep]
    exact a.answers rfl (by simp [bodyFaultnSet, faultnLength_ok hlo hhi, hres, hkeep, bit])
  case pulseRelease =>
    have hres : fld w 1 31 1 = 0 := by simp [fld, bits, hrel]
    exact a.answers rfl (by simp [bodyFaultnSet, faultnLength_ok hlo hhi, hres, hrel, bit])
  case lso => exact a.answers rfl (by simp [bodyLsoSet, hres, hfree])
  case lsoRefused => exact a.answers rfl (by simp [bodyLsoSet, hres, hbar])
  case sticky =>
    refine (heldOr_free hfree _).trans ?_
    simp only [plainFaultStickyW1c, hpres, hr.write]
    rfl
  case release => exact hr.writes rfl (by simp [releaseFaultn, hass, hcase, hend])
  case barred => exact hr.writes rfl (by simp [releaseFaultn, hcase])
  case drive => exact hr.writes rfl (by rcases hmay with hv | hfree <;> simp [*])
  case driveIgnored => exact hr.writes rfl (by simp only [bne_iff_ne.mpr hv, hbar, Bool.and_self, if_true])

/-! ### Events (R329 to R342, R366) -/

/-- A source that is neither a condition nor a blocker's is captured when it fires. -/
theorem plainFaultSourceFire_error {s : State} {loc : FaultLoc} {src : Nat} (pair : Nat) (st : Bool) (hpres : locPresent s loc = true)
    (hsrc : src < nSources loc) (hfires : neverFires s loc src = false) (hcond : isCond loc src = false)
    (hrail : ∀ p, loc = .port p → s.rails.look p 0 = 0) : plainFaultSourceFire loc src pair st s = .next (
      if isBlock loc src then
        if s.faultPend.any fun e => e.1 == loc && e.2 == src then captureFault (takePend s loc src) loc src else s
      else captureFault (countError s loc src) loc src) := by
  have hnone : bit 0 src = false := by simp [bit]
  cases loc <;> simp [plainFaultSourceFire, hpres, Nat.not_le.mpr hsrc, hfires, hcond, hnone, hrail]

/-- Without a gate handshake's end, or without accesses held, nothing enters. -/
theorem releaseHeld_none {s : State} (h : s.power.gate.isSome = true ∨ s.power.heldAcc = []) : releaseHeld s = s := by
  cases hgate : s.power.gate with
  | some g => simp [releaseHeld, hgate]
  | none =>
    have hheld : s.power.heldAcc = [] := h.resolve_left (by simp [hgate])
    unfold releaseHeld
    rw [if_neg (by simp [hgate]), hheld, List.foldl_nil]
    exact congrArg (fun l => { s with power := { s.power with heldAcc := l } }) hheld.symm

section

variable {s v : State} {loc : FaultLoc} {src : Nat} (hslow : (faultSrc s loc src).slow ≠ some (slowCycle s))
  (hv : v = setSrc s loc src fun f => { f with slow := some (slowCycle s) })
include hslow hv

/-- A masked source counts in SUPPRESSED only. -/
theorem captureFault_masked (hmask : masked v loc src = true) : captureFault s loc src = count v (suppressedAddr loc) 1 := by
  simp only [captureFault, if_neg hslow, ← hv, hmask, if_true]

/-- A source that is still captured and has no window rises by what is unacknowledged, and reacts only where its level rose. -/
theorem captureFault_again (hmask : masked v loc src = false) (hsticky : (faultSrc v loc src).sticky = true)
    (hn : (faultSrc v loc src).n = 0)
    (hlevel : curLevel (markFresh (setSrc v loc src fun f => { f with sticky := true, u := true }) (statusAddr loc) (2 ^ src)) loc src <
      curLevel v loc src + 1) :
    captureFault s loc src = markFresh (setSrc v loc src fun f => { f with sticky := true, u := true }) (statusAddr loc) (2 ^ src) := by
  have hset : (setSrc v loc src fun f => { countWindow f (nowNs v) with sticky := true, u := true }) =
      setSrc v loc src fun f => { f with sticky := true, u := true } := by
    simp only [setSrc, countWindow, hn, if_true]
  simp only [captureFault, if_neg hslow, ← hv, hmask, hsticky, if_true, Bool.false_eq_true, if_false, hset, Nat.not_le.mpr hlevel]

end

/-- Settles O36. -/
theorem faultEventsTakePlace : Obligations.FaultEventsTakePlace := by
  refine ⟨fun loc src pair st s hpres hsrc hfires hcond hblock hrail => ?error,
    fun loc src pair st s hpres hsrc hfires hcond hblock hdue hrail => ?block, fun s hnone => releaseHeld_none hnone,
    fun s loc src hslow => ?sameCycle, fun s loc src v hslow hv hmask => captureFault_masked hslow hv hmask,
    fun s loc src v u hslow hv hmask hsticky hn hu hlevel => ?again, fun loc src s t hend => ?window,
    fun p s hq hopen hstate hdone => ?squelchSafe, fun p s hq hopen hstate => ?squelchOff, fun r s hdue hidle hoff => ?reset,
    fun s t hend hrel hcase => ?pulse, fun k s t hmask hquiet => ?maskEnd, fun p pair s hbit hother => ?rail⟩
  case error =>
    simp only [exec_faultSourceFire, execFaultSourceFire, plainFaultSourceFire_error pair st hpres hsrc hfires hcond hrail, hblock, releasing]
    rfl
  case block =>
    simp only [exec_faultSourceFire, execFaultSourceFire, plainFaultSourceFire_error pair st hpres hsrc hfires hcond hrail, hblock, hdue,
      releasing]
    rfl
  case sameCycle => simp only [captureFault, hslow, if_true]
  case again =>
    subst hu
    exact captureFault_again hslow hv hmask hsticky hn hlevel
  case window => simp only [exec_faultWindowClose, execFaultWindowClose, hend]
  case squelchSafe => rcases hdone with hcount | ⟨hcount, hlast⟩ <;> simp [execQuarantineSquelch, *]
  case squelchOff => simp [execQuarantineSquelch, hq, hopen, hstate]
  case reset =>
    simp only [exec_reactionRegionReset, execReactionRegionReset, plainReactionRegionReset, hdue, hidle, hoff]
    rfl
  case pulse => simp [execFaultnPulseEnd, hend, hrel, hcase]
  case maskEnd =>
    simp only [exec_resetMaskEnd, execResetMaskEnd, hmask]
    refine congrArg _ ((List.foldl_ext _ (fun u _ => u) _ fun u e he => ?_).trans (List.foldl_fixed _))
    have hlow : e.2.cond = false := by simpa using List.all_eq_true.mp hquiet e he
    simp only [hlow, Bool.false_and, Bool.false_eq_true, if_false]
  case rail => simp [execRailRestored, hbit, hother]

end Sys2Proof.Machine
end

section
/-! The settled statements on security, boot and activation. -/

namespace Sys2Proof.Machine

/-! ### Commands (R381, R382, R385, R386) -/

/-- Settles O38. -/
theorem securityCommandsTakeEffect : Obligations.SecurityCommandsTakeEffect := by
  refine ⟨fun h w s a => ?query, fun h w s a hmul hlo hhi hslot hfree => ?stage, fun h w s a hmul hlo hhi hslot hbar => ?stageRefused,
    fun h w s a hslot hfree => ?verify, fun h w s a hslot hbar => ?verifyRefused,
    fun h w s tb b a hslot hinst hload hbank hpend htrial hb hnear => ?activate,
    fun h w s tb b a hslot hinst hload hbank hpend htrial hb hfar => ?activateLate,
    fun h w s tb a hslot hinst hload => ?activateRefused, fun h w s a hid => ?attest, fun h w s a hid => ?attestRefused,
    fun h w s a hmax hsame => ?same, fun h w s a hmax hlow => ?lower, fun h w s a hmax hhigh himg hpend htrial => ?burn⟩
  case query => exact a.answers rfl rfl
  case stage =>
    have hlen : ¬(prm w 2 % 64 ≠ 0 ∨ prm w 2 < 256 ∨ 4194304 < prm w 2) := by omega
    exact a.answers rfl (by simp only [bodyImageStage, if_neg hlen, Nat.not_lt.mpr hslot, hfree, Bool.false_eq_true, if_false])
  case stageRefused =>
    have hlen : ¬(prm w 2 % 64 ≠ 0 ∨ prm w 2 < 256 ∨ 4194304 < prm w 2) := by omega
    exact a.answers rfl (by simp only [bodyImageStage, if_neg hlen, Nat.not_lt.mpr hslot, hbar, if_false, if_true])
  case verify => exact a.answers rfl (by simp [bodyImageVerify, Nat.not_lt.mpr hslot, hfree])
  case verifyRefused => exact a.answers rfl (by simp [bodyImageVerify, Nat.not_lt.mpr hslot, hbar])
  case activate =>
    subst hb
    simp [execImageActivate, a.gate, activate, Nat.not_lt.mpr hslot, hinst, hload, hbank, hpend, htrial, Nat.not_lt.mpr hnear]
  case activateLate =>
    subst hb
    simp [execImageActivate, a.gate, activate, Nat.not_lt.mpr hslot, hinst, hload, hbank, hpend, htrial, hfar]
  case activateRefused => simp [execImageActivate, a.gate, activate, Nat.not_lt.mpr hslot, hinst, hload]
  case attest => exact a.answers rfl (by simp [bodyAttest, hid])
  case attestRefused => exact a.answers rfl (by simp [bodyAttest, hid])
  case same =>
    rw [hsame] at hmax
    exact a.answers rfl (by simp only [bodyRollbackAdvance, hsame, Nat.not_le.mpr hmax, if_false, if_true])
  case lower =>
    exact a.answers rfl (by
      simp only [bodyRollbackAdvance, Nat.not_le.mpr hmax, Nat.ne_of_lt hlow, hlow, true_or, if_false, if_true])
  case burn =>
    have hmay : ¬(prm w 0 < s.otp.rollback ∨ leAt s.sec.image 12 1 < prm w 0) := by omega
    have hbody : bodyRollbackAdvance h w s =
        if (burnFuses (prm w 0 - s.otp.rollback) s).2 then ((burnFuses (prm w 0 - s.otp.rollback) s).1, .ok)
        else (raise (burnFuses (prm w 0 - s.otp.rollback) s).1 0x80018 16, .err stRefused) := by
      simp only [bodyRollbackAdvance, Nat.not_le.mpr hmax, Nat.ne_of_gt hhigh, if_neg hmay, hpend, htrial]
      rfl
    cases hburnt : (burnFuses (prm w 0 - s.otp.rollback) s).2 with
    | true =>
      simp only [hburnt, if_true] at hbody ⊢
      exact a.answers rfl hbody
    | false =>
      simp only [hburnt, Bool.false_eq_true, if_false] at hbody ⊢
      exact a.answers rfl hbody

/-! ### Boot and activation (R377 to R384) -/

/-- What is staged does not stop the endpoint. -/
@[simp] theorem fifoDead_sec (s : State) (c : Sec) : fifoDead { s with sec := c } = fifoDead s := rfl

/-- Settles O39. -/
theorem bootAndActivationRun : Obligations.BootAndActivationRun := by
  refine ⟨fun s hboot hclk hheld hpin hends => ?start, fun a b s hclk hheld hpin hboot => ?flashLoad,
    fun a b s hclk hheld hpin hboot => ?hostLoad, fun a b s u i g l hclk hheld hpin hboot hlist hu hok => ?good,
    fun a b s hclk hheld hpin hboot hlist => ?none, fun s hr hboot => ?go, fun s hr hboot => ?goIgnored,
    fun s hcores hran => ?running, fun b s i n a hstage hcores hfifo hup => ?staged, fun s i u hver hcores hu hok => ?verified,
    fun s i u c hver hcores hu hbad => ?failed, fun s i b k hact hcores => ?flip, fun s i b k h u hact hflip hreply hu => ?resume,
    fun s b htrial hcores hnear => ?ready, fun s b htrial hcores => ?fallback⟩
  case start => simp [execBootStart, hboot, hclk, hheld, hpin, hends]
  case flashLoad => simp [execImageLoadDone, hclk, hheld, hpin, hboot]
  case hostLoad => simp [execImageLoadDone, hclk, hheld, hpin, hboot]
  case good =>
    simp only [exec_imageLoadDone, execImageLoadDone, hclk, hheld, hpin, ← hu]
    simp only [hboot, hlist, bootTry, hok]
    rfl
  case none => simp [execImageLoadDone, hclk, hheld, hpin, hboot, hlist, bootTry]
  case go => exact hr.writes rfl (by simp [hboot])
  case goIgnored => exact hr.writes rfl (by simp [hboot])
  case running =>
    simp only [exec_firmwareRunning, execFirmwareRunning, hcores, hran]
    rfl
  case staged => simp [execStageDone, hstage, hcores, hfifo, hup]
  case verified =>
    subst hu
    simp [execVerifyDone, hver, hcores, hok]
  case failed =>
    subst hu
    simp [execVerifyDone, hver, hcores, hbad]
  case flip => simp [execActivationFlip, hact, hcores, swapBanks, refreshAt]
  case resume =>
    subst hu
    simp [execActivationResume, hact, hflip, hreply]
  case ready => simp [execFirmwareReady, htrial, hcores, Nat.not_lt.mpr hnear]
  case fallback =>
    simp only [exec_fallback, execFallback, htrial, hcores]
    rfl

end Sys2Proof.Machine
end

section
/-! The settled statements on trace, archive and boundary scan. -/

namespace Sys2Proof.Machine

/-! ### Commands (R394, R398) -/

/-- Settles O41. -/
theorem observationSettingsTakeEffect : Obligations.ObservationSettingsTakeEffect := by
  refine ⟨fun h w s a hres hbase hsize harea hbell => ?trace, fun h w s a => ?traceQuery,
    fun h w s p a hp hper hbase hlo hhi harea => ?archive, fun h w s a => ?archiveQuery⟩
  case trace =>
    exact a.answers rfl (by
      simp only [bodyTraceSet, hres, hbase, Nat.not_lt.mpr hsize, harea, hbell, ne_eq, not_true_eq_false, if_false, Bool.false_eq_true])
  case traceQuery => exact a.answers rfl rfl
  case archive =>
    subst hp
    have hperiod : ¬(prm w 0 ≠ 0 ∧ (prm w 0 < 10 ∨ 60000 < prm w 0)) := by omega
    have hlen : ¬(prm w 3 = 0 ∨ 4096 < prm w 3) := by omega
    exact a.answers rfl (by
      simp only [bodyArchiveSet, if_neg hperiod, hbase, if_neg hlen, harea, ne_eq, not_true_eq_false, if_false, Bool.false_eq_true]
      rfl)
  case archiveQuery => exact a.answers rfl rfl

/-! ### Trace records and the Bell port (R391 to R397) -/

section

variable {s : State} {d : Nat} {r : TraceRec} {q : List TraceRec} (hqueue : s.trace.queue.look d [] = r :: q)
  (hreach : traceReaches s d = true)
include hqueue hreach

/-- With DDR4 at hand a record enters the ring and the Bell port. -/
theorem execTraceRecordWrite_ring (hring : s.trace.size ≠ 0) (hlive : traceDead s = false) :
    execTraceRecordWrite d s = .next (bellPut (count
      (ddrWrite { s with trace := { s.trace with queue := s.trace.queue.put d q [], seq := s.trace.seq + 1 } } 0
        (s.trace.base + 32 * (s.trace.seq % (s.trace.size * 32768))) (traceBytes r s.trace.seq)) 0x90010 1) (traceBytes r s.trace.seq)) := by
  simp [execTraceRecordWrite, hqueue, hreach, hring, hlive]

/-- Without it the record is dropped. -/
theorem execTraceRecordWrite_dead (hring : s.trace.size ≠ 0) (hdead : traceDead s = true) :
    execTraceRecordWrite d s = .next (traceDrop { s with trace := { s.trace with queue := s.trace.queue.put d q [] } } d) := by
  simp [execTraceRecordWrite, hqueue, hreach, hring, hdead]

end

/-- Settles O42. -/
theorem observationEventsTakePlace : Obligations.ObservationEventsTakePlace := by
  refine ⟨fun d s r q hqueue hreach hring hlive => execTraceRecordWrite_ring hqueue hreach hring hlive,
    fun d s r q hqueue hreach hring hbell hlive hroom => ?bell,
    fun d s r q hqueue hreach hring hdead => execTraceRecordWrite_dead hqueue hreach hring hdead, fun d s hreach => ?unreached,
    fun d s n hpend hsome hroom hlive => ?gap, fun s b q hqueue hruns => ?send, fun s hstop => ?stopped,
    fun s hpend hroom hbell => ?bellGap, fun s u hper hclk hdie hbusy hu => ?latch, fun s hper hclk hdie hbusy => ?latchSkipped,
    fun s k t l hbusy hclk hdie htrained => ?record, fun i s hlow hinst => ?instruction, fun i s hlow hinst => ?cells, fun s hlow => ?idcode,
    fun s n level hreset hinst => ?extest, fun s n level hfun => ?functional, fun i s => ?disabled, fun e i s hhigh => ?high⟩
  case bell => simp [execTraceRecordWrite, hqueue, hreach, hring, hbell, hlive, bellPut, hroom]
  case unreached => cases hqueue : s.trace.queue.look d [] <;> simp [execTraceRecordWrite, hqueue, hreach]
  case gap =>
    subst hpend
    simp [execTraceGap, hsome, Nat.not_le.mpr hroom, hlive]
  case send => simp [execBellRecordSend, hqueue, hruns]
  case stopped => cases hqueue : s.trace.bellQ <;> simp [execBellRecordSend, hqueue, hstop]
  case bellGap => simp [execBellGap, hpend, Nat.not_le.mpr hroom, hbell, useFree]
  case latch =>
    subst hu
    simp [execArchiveLatch, hper, hclk, hdie, hbusy]
  case latchSkipped => simp [execArchiveLatch, hper, hclk, hdie, hbusy]
  case record => simp [execArchiveRecordDone, hbusy, hclk, hdie, htrained]
  case instruction => rcases hinst with rfl | rfl | rfl <;> simp [execTapInstruction, hlow]
  case cells => rcases hinst with rfl | rfl <;> simp [execTapInstruction, hlow, useFree]
  case idcode =>
    simp [execTapInstruction, hlow]
    rfl
  case extest => simp [chainPin, hreset, hinst]
  case functional => rcases hfun with hreset | hinst | hinst <;> simp [chainPin, *]
  case disabled => simp [execTapInstruction]
  case high => simp [execTapInstruction, hhigh]

end Sys2Proof.Machine
end

section
/-! The settled statement on the FIFOs of the endpoint. -/

namespace Sys2Proof.Machine

section

variable {s : State} (hup : s.pcie.up = true) (hdie : dieRuns s 0 = true) (hctrl : ctrlRuns s = true) (hboot : s.sec.bootState = 5)
include hup hdie hctrl hboot

/-- A write to BAR2 arrives while the link is up, die 0 and CTRL run and the firmware has started. -/
theorem bar2Write_arrives (f : State → State) : bar2Write s f = f s := by
  simp [bar2Write, hup, hdie, hctrl, hboot]

/-! ### Mode 0 (R290, R292) -/

section

variable (hmode : s.fifo.mode = false) {o : Nat} (ho : o < 0x40000)
include hmode ho

/-- A poisoned TLP rewinds what is in filling. -/
theorem cmdFifoWrite_poisoned (l : List Word) (b : Bool) : exec (.cmdFifoWrite o l b true) s = .next (rewind s 2) := by
  simp [execCmdFifoWrite, bar2Write_arrives hup hdie hctrl hboot, hmode, Nat.not_le.mpr ho]

/-- So does one that is longer than the free space. -/
theorem cmdFifoWrite_tooLong {l : List Word} (hlong : 65536 - s.fifo.used < l.length) (b : Bool) :
    exec (.cmdFifoWrite o l b false) s = .next (rewind s 6) := by
  simp only [exec_cmdFifoWrite, execCmdFifoWrite, bar2Write_arrives hup hdie hctrl hboot, hmode, Nat.not_le.mpr ho, cmdFree, hlong,
    decide_false, Bool.or_self, Bool.false_eq_true, if_false, if_true]

section

variable {l : List Word} (hroom : l.length ≤ 65536 - s.fifo.used)
include hroom

/-- So does one that does not come whole, or not at FRONT. -/
theorem cmdFifoWrite_outOfPlace {b : Bool} (hplace : b = false ∨ o ≠ 4 * s.fifo.front) :
    exec (.cmdFifoWrite o l b false) s = .next (rewind s 5) := by
  have hbad : (!b || decide (o ≠ 4 * s.fifo.front)) = true := by rcases hplace with h | h <;> simp [h]
  simp only [exec_cmdFifoWrite, execCmdFifoWrite, bar2Write_arrives hup hdie hctrl hboot, hmode, Nat.not_le.mpr ho, cmdFree,
    Nat.not_lt.mpr hroom, hbad, decide_false, Bool.or_self, Bool.false_eq_true, if_false, if_true]

/-- One that comes whole at FRONT is appended, up to the word that breaks the header tests. -/
theorem cmdFifoWrite_whole (hfront : o = 4 * s.fifo.front) {g : Fifo} {why : Option Nat} (hfill : fillWords l s.fifo = (g, why)) :
    exec (.cmdFifoWrite o l true false) s = .next (why.elim { s with fifo := g } (rewind { s with fifo := g })) := by
  have hgood : ¬(o ≠ 4 * s.fifo.front) := not_not.mpr hfront
  simp only [exec_cmdFifoWrite, execCmdFifoWrite, bar2Write_arrives hup hdie hctrl hboot, hmode, Nat.not_le.mpr ho, cmdFree,
    Nat.not_lt.mpr hroom, hgood, hfill, decide_false, Bool.not_true, Bool.or_self, Bool.false_eq_true, if_false]
  cases why <;> rfl

end

end

/-! ### Mode 1 (R291) -/

section

variable (hmode : s.fifo.mode = true) {o : Nat} (ho : o < 0x40000) {l : List (Option Byte)} (hl : l ≠ []) {last : Nat}
  (hlast : last = (o + l.length - 1) / 4) (hfirst : (o / 4 + 65536 - s.fifo.front) % 65536 < 65536 - s.fifo.used)
  (hend : (last + 65536 - s.fifo.front) % 65536 < 65536 - s.fifo.used) (hfits : last + 1 - o / 4 ≤ 65536 - s.fifo.used)
include hmode ho hl hlast hfirst hend hfits

/-- A write to the command window stores its enabled bytes and completes packets. -/
theorem cmdFifoWriteMode1_command {g : Fifo} (hdone : complete 65536 (putBytes s.fifo o l) = (g, none)) :
    exec (.cmdFifoWriteMode1 o l false) s = .next { s with fifo := g } := by
  have hwin : ¬(0x90000 ≤ o ∧ o < 0xD0000) := by omega
  have hempty : l.isEmpty = false := List.isEmpty_eq_false_iff.mpr hl
  simp only [exec_cmdFifoWriteMode1, execCmdFifoWriteMode1, bar2Write_arrives hup hdie hctrl hboot, hwin, decide_false,
    Bool.false_eq_true, if_false, hmode, Nat.not_le.mpr ho, hempty, ← hlast, cmdFree, Nat.not_le.mpr hfirst, Nat.not_le.mpr hend,
    Nat.not_lt.mpr hfits, Bool.not_true, Bool.or_self, hdone]

/-- One to the end window marks its last word the end of a packet too. -/
theorem cmdFifoWriteMode1_end {p g : Fifo} (hp : p = putBytes s.fifo o l)
    (hdone : complete 65536 { p with ends := p.ends.put (last % 65536) true false } = (g, none)) :
    exec (.cmdFifoWriteMode1 (0x90000 + o) l false) s = .next { s with fifo := g } := by
  have hwin : 0x90000 ≤ 0x90000 + o ∧ 0x90000 + o < 0xD0000 := by omega
  have hempty : l.isEmpty = false := List.isEmpty_eq_false_iff.mpr hl
  simp only [exec_cmdFifoWriteMode1, execCmdFifoWriteMode1, bar2Write_arrives hup hdie hctrl hboot, hwin, and_self, decide_true,
    Nat.add_sub_cancel_left, if_true, Bool.false_eq_true, if_false, hmode, Nat.not_le.mpr ho, hempty, ← hlast, cmdFree,
    Nat.not_le.mpr hfirst, Nat.not_le.mpr hend, Nat.not_lt.mpr hfits, decide_false, Bool.not_true, Bool.or_self, ← hp, hdone]

end

end

/-- Settles O43. -/
theorem hostFillsAndDrainsTheFifos : Obligations.HostFillsAndDrainsTheFifos := by
  refine ⟨fun o l s g hup hdie hctrl hboot hmode ho hroom hfront hfill =>
      cmdFifoWrite_whole hup hdie hctrl hboot hmode ho hroom hfront hfill,
    fun o l s g why hup hdie hctrl hboot hmode ho hroom hfront hfill =>
      cmdFifoWrite_whole hup hdie hctrl hboot hmode ho hroom hfront hfill,
    fun o l b s hup hdie hctrl hboot hmode ho => cmdFifoWrite_poisoned hup hdie hctrl hboot hmode ho l b,
    fun o l b s hup hdie hctrl hboot hmode ho hlong => cmdFifoWrite_tooLong hup hdie hctrl hboot hmode ho hlong b,
    fun o l b s hup hdie hctrl hboot hmode ho hroom hplace => cmdFifoWrite_outOfPlace hup hdie hctrl hboot hmode ho hroom hplace,
    fun o l s g last hup hdie hctrl hboot hmode ho hl hlast hfirst hend hfits hdone =>
      cmdFifoWriteMode1_command hup hdie hctrl hboot hmode ho hl hlast hfirst hend hfits hdone,
    fun o l s g p last hup hdie hctrl hboot hmode ho hl hlast hfirst hend hfits hp hdone =>
      cmdFifoWriteMode1_end hup hdie hctrl hboot hmode ho hl hlast hfirst hend hfits hp hdone,
    fun s hr hfill => ?abort, fun s hr hnone => ?abortNone, fun b s hr hsame => ?sameMode, fun b s hr hnew hnone => ?newMode,
    fun b s hr hnew hfill => ?newModeRewinds, fun v s hr hmay => ?replies, fun v s hr hpast => ?repliesPast, fun v s hr hmay => ?events,
    fun v s hr hpast => ?eventsPast⟩
  case abort => exact hr.writes rfl (by simp [hfill])
  case abortNone => exact hr.writes rfl (by simp [hnone])
  case sameMode => exact hr.writes rfl (by simp [hsame])
  case newMode => exact hr.writes rfl (by simp [hnew, hnone])
  case newModeRewinds => exact hr.writes rfl (by simp [hnew, hfill])
  case replies => exact hr.writes rfl (if_neg (Nat.not_lt.mpr hmay))
  case repliesPast => exact hr.writes rfl (if_pos hpast)
  case events => exact hr.writes rfl (if_neg (Nat.not_lt.mpr hmay))
  case eventsPast => exact hr.writes rfl (if_pos hpast)

end Sys2Proof.Machine
end

section
/-! The settled statement on how the control cores take commands. -/

namespace Sys2Proof.Machine

section

variable {s : State}

/-- The path whose turn it is has a command, and room for its reply. -/
theorem pathReady_of_turn {i : Nat} (hturn : pathTurn s = some i) : pathReady s (pathOf i) = true := by
  have hfound := List.find?_some hturn
  exact hfound

/-- The oldest packet of the ring is taken where the PCIe path is ready. -/
theorem takePcie_ready (hready : pathReady s .pcie = true) (b : Bool) : takePcie s b =
    if b then raise (count { (takePacket s).1 with fifo := { (takePacket s).1.fifo with why := 2 } } 0x70018 1) 0x70038 1
    else runPacket (takePacket s).1 { path := .pcie, words := (takePacket s).2, bytes := wordsBe (takePacket s).2 } := by
  have hboth : (s.fifo.count != 0 && hasRoom s (pktHdr .pcie (takePacket s).2)) = true := hready
  obtain ⟨hcount, hroom⟩ := Bool.and_eq_true_iff.mp hboth
  have hnot : ¬(s.fifo.count = 0) := bne_iff_ne.mp hcount
  simp only [takePcie, hnot, hroom, decide_false, Bool.not_true, Bool.or_self, Bool.false_eq_true, if_false]

/-- The oldest frame of the management ports is taken where their path is ready. -/
theorem takeMgmt_ready {f : MgmtFrame} {q : List MgmtFrame} (hq : s.mgmtQ = f :: q) (hready : pathReady s .frames = true) :
    takeMgmt s = runFrame { s with mgmtQ := q } (mgmtPath f) f.bytes 0 := by
  simp only [pathReady, hq] at hready
  simp only [takeMgmt, hq, hready, if_true]

/-- The oldest command frame of the Hyith links is taken where their path is ready. -/
theorem takeHyith_ready {f : HyithFrame} {q : List HyithFrame} (hq : s.hyithQ = f :: q) (hready : pathReady s .hyith = true)
    (hcmd : isReply f.bytes = false) : takeHyith s = runFrame
      (modHlink { s with hyithQ := q } f.uplink fun l => { l with rxLimit := (l.rxLimit + 1) % 65536 }) (hyPath f) f.bytes f.hops := by
  simp only [pathReady, hq, hcmd, Bool.false_and, Bool.false_eq_true, if_false] at hready
  simp only [takeHyith, hq, hcmd, hready, Bool.false_and, Bool.false_eq_true, if_false, if_true]

/-- What the take of a packet leaves of the device number. -/
theorem devno_after {v : State} {i : Nat} (hv : v = { s with served := i }) {x : State × List Word} (hx : x = takePacket v) :
    x.1.sys.devno = s.sys.devno := by
  rw [hx, hv]
  rfl

section

variable (hfree : coresFree s = true)
include hfree

/-- On the PCIe path the cores take the oldest packet of the ring. -/
theorem exec_commandTake_pcie (hturn : pathTurn s = some 0) (b : Bool) :
    exec (.commandTake .pcie b) s = .next (takePcie { s with served := 0 } b) := by
  simp only [exec_commandTake, execCommandTake, hfree, hturn, pathOf, Bool.not_true, Bool.false_eq_true, ne_eq, not_true_eq_false, if_false]

/-- On the management ports they take the oldest frame. -/
theorem exec_commandTake_frames (hturn : pathTurn s = some 1) (b : Bool) :
    exec (.commandTake .frames b) s = .next (takeMgmt { s with served := 1 }) := by
  simp only [exec_commandTake, execCommandTake, hfree, hturn, pathOf, Bool.not_true, Bool.false_eq_true, ne_eq, not_true_eq_false, if_false]

/-- On the Hyith links they take the oldest command frame or reply. -/
theorem exec_commandTake_hyith (hturn : pathTurn s = some 2) (b : Bool) :
    exec (.commandTake .hyith b) s = .next (takeHyith { s with served := 2 }) := by
  simp only [exec_commandTake, execCommandTake, hfree, hturn, pathOf, Bool.not_true, Bool.false_eq_true, ne_eq, not_true_eq_false, if_false]

/-- It runs where its words are stored without a parity error. -/
theorem exec_commandTake_packet (hturn : pathTurn s = some 0) {v : State} (hv : v = { s with served := 0 }) {x : State × List Word}
    (hx : x = takePacket v) :
    exec (.commandTake .pcie false) s = .next (runPacket x.1 { path := .pcie, words := x.2, bytes := wordsBe x.2 }) := by
  have hready : pathReady v .pcie = true := by
    rw [hv]
    exact pathReady_of_turn hturn
  rw [exec_commandTake_pcie hfree hturn, ← hv, takePcie_ready hready, ← hx]
  rfl

end

end

/-- Settles O44. -/
theorem commandsAreTakenAndRun : Obligations.CommandsAreTakenAndRun := by
  refine ⟨fun s v x h u hfree hturn hv hx hh htests hdev hrun => ?runs, fun s v x h hfree hturn hv hx hh htests hdev hrun => ?unknown,
    fun s v x h r hfree hturn hv hx hh htests => ?fails, fun s v x h hfree hturn hv hx hh htests hdev => ?routed,
    fun s v x hfree hturn hv hx => ?parity, fun s f q b hfree hturn hq => ?frame, fun s f q b hfree hturn hq hcmd => ?link,
    fun s i p b hturn hp => ?otherPath, fun s p b hturn => ?nothing, fun s p b hbusy => ?busy⟩
  case runs =>
    subst hh
    rw [exec_commandTake_packet hfree hturn hv hx]
    simp only [runPacket, htests, devno_after hv hx, hdev, hrun, ne_eq, not_true_eq_false, if_false]
  case unknown =>
    subst hh
    rw [exec_commandTake_packet hfree hturn hv hx]
    simp only [runPacket, htests, devno_after hv hx, hdev, hrun, ne_eq, not_true_eq_false, if_false]
  case fails =>
    subst hh
    rw [exec_commandTake_packet hfree hturn hv hx]
    simp only [runPacket, htests]
  case routed =>
    subst hh
    rw [exec_commandTake_packet hfree hturn hv hx]
    simp only [runPacket, htests, devno_after hv hx, hdev, ne_eq, not_false_eq_true, if_true]
  case parity =>
    have hready : pathReady v .pcie = true := by
      rw [hv]
      exact pathReady_of_turn hturn
    rw [exec_commandTake_pcie hfree hturn, ← hv, takePcie_ready hready, ← hx]
    rfl
  case frame =>
    rw [exec_commandTake_frames hfree hturn, takeMgmt_ready (s := { s with served := 1 }) hq (pathReady_of_turn hturn)]
    rfl
  case link =>
    have hready : pathReady { s with served := 2 } .hyith = true := by
      have h := pathReady_of_turn hturn
      simp only [pathOf, pathReady, hq, hcmd, Bool.false_and, Bool.false_eq_true, if_false] at h ⊢
      exact h
    rw [exec_commandTake_hyith hfree hturn, takeHyith_ready (s := { s with served := 2 }) hq hready hcmd]
    rfl
  case otherPath =>
    cases hfree : coresFree s with
    | false => simp [execCommandTake, hfree]
    | true => simp [execCommandTake, hfree, hturn, hp.symm]
  case nothing => simp [execCommandTake, hturn]
  case busy => simp [execCommandTake, hbusy]

end Sys2Proof.Machine
end

section
/-! The settled statement on the accesses of BAR0. -/

namespace Sys2Proof.Machine

section

variable {s : State} {a : Nat} {v : Word} {be : BitVec 4} (ha : a < 0x4000000) (hr : Reached s a)
include ha hr

/-- A write that reaches a defined register, whole and aligned, writes its word. -/
theorem registerWrite_word (hal : a % 4 = 0) (hdef : defined s (blkOf a) = true) (hfree : accHeld s (.write a v 15) = false) :
    exec (.registerWrite a v 15) s = .next (writeWord s a v) := by
  refine (heldOr_free hfree _).trans ?_
  simp [plainRegisterWrite, Nat.not_le.mpr ha, hr.write, hal, hdef]

/-- A narrower or unaligned one is discarded and counted. -/
theorem registerWrite_bad (hdef : defined s (blkOf (a - a % 4)) = true) (hbad : a % 4 ≠ 0 ∨ be ≠ 15)
    (hfree : accHeld s (.write a v be) = false) : exec (.registerWrite a v be) s = .next (count s 0x20 1) := by
  refine (heldOr_free hfree _).trans ?_
  simp only [plainRegisterWrite, Nat.not_le.mpr ha, hr.write, hdef, hbad, Bool.not_true, Bool.false_eq_true, if_false, if_true]
  rfl

/-- Reserved space ignores it. -/
theorem registerWrite_reserved (hdef : defined s (blkOf (a - a % 4)) = false) (hfree : accHeld s (.write a v be) = false) :
    exec (.registerWrite a v be) s = .next s := by
  refine (heldOr_free hfree _).trans ?_
  simp [plainRegisterWrite, Nat.not_le.mpr ha, hr.write, hdef]

end

/-- An event register clears the bits written as 1 that no event of the cycle set. -/
theorem writeWord_event {s : State} {a e : Nat} (v : Word) (he : enableAddr a = some e) :
    writeWord s a v = setReg s a (reg s a &&& (0xFFFFFFFF ^^^ clears s a v.toNat)) := by
  simp [writeWord, he, w1c]

/-- Its enable register takes the mask. -/
theorem writeWord_enable {s : State} {a : Nat} (v : Word) (he : enableAddr a = none) (hlo : 4 ≤ a) (hmask : enableAddr (a - 4) = some a) :
    writeWord s a v = setReg s a (v.toNat % 2 ^ eventWidth (blkOf (a - 4))) := by
  simp [writeWord, he, hlo, hmask]

/-- A write of a completion ring's words is ignored, answered by its event, or taken with the ring started anew. -/
theorem execRingCfgWrite_outcome {d r o : Nat} {s : State} (v : Word) (hr : Reached s (moverBase d + 0x2000 + 0x20 * r + o)) :
    ∃ t, exec (.ringCfgWrite d r o v) s = .next t ∧ (t = s ∨ (∃ c, c < 32 ∧ t = moverEvent s d c 5) ∨
      ∃ f : MRing → MRing, t = modMring s d r fun x => { f x with wr := 0, rd := 0, rseq := 0 }) := by
  simp only [exec_ringCfgWrite, execRingCfgWrite, hr.write]
  refine ⟨_, rfl, ?_⟩
  split
  case isTrue => exact .inl rfl
  case isFalse hin =>
    split
    case h_1 c hc => exact .inr (.inl ⟨c, List.mem_range.mp (List.mem_of_find?_eq_some hc), rfl⟩)
    case h_2 =>
      refine .inr (.inr ?_)
      obtain rfl | rfl | rfl : o = 0 ∨ o = 4 ∨ o = 8 := by
        simp only [Bool.or_eq_true, Bool.and_eq_true, decide_eq_true_eq] at hin
        omega
      · exact ⟨fun x => { x with baseLo := v &&& 0xFFFFF000#32 }, rfl⟩
      · exact ⟨fun x => { x with baseHi := v }, rfl⟩
      · exact ⟨fun x => { x with cfg := v &&& 0x3FFFF#32 }, rfl⟩

/-- Settles O45. -/
theorem registersAreWrittenAndRead : Obligations.RegistersAreWrittenAndRead := by
  refine ⟨fun a v s e ha hal hr hdef he hfree => (registerWrite_word ha hr hal hdef hfree).trans (congrArg _ (writeWord_event v he)),
    fun a v s ha hal hr hdef he hlo hfree hmask =>
      (registerWrite_word ha hr hal hdef hfree).trans (congrArg _ (writeWord_enable v he hlo hmask)),
    fun a v s ha hal hr hdef hfree => registerWrite_word ha hr hal hdef hfree,
    fun a v be s ha hr hdef hbad hfree => registerWrite_bad ha hr hdef hbad hfree,
    fun a v be s ha hr hdef hfree => registerWrite_reserved ha hr hdef hfree,
    fun a p o s hblk ho hr hport hfree => ?counter, fun a o s hblk hlo hhi hword hr => ?lost,
    fun a s ha hstop hslow hdef hal hup hfree => ?unaligned, fun a n s hdie hctrl hboot hpage hup => ?outOfPage,
    fun a n s hdie hup => ?dieDown, fun b a n s hup => ?linkDown, fun a v be s hheld => ?heldWrite, fun b a n s hheld => ?heldRead,
    fun m o v s hr => ?setWrite, fun m v s hr => ?go, fun m s hr => ?abort, fun m s hr => ?clear,
    fun d r o v s hr => execRingCfgWrite_outcome v hr, fun d r v s hr => ?ringRead⟩
  case counter =>
    refine (heldOr_free hfree _).trans ?_
    rcases ho with rfl | rfl <;> simp [plainCounterLoRead, hblk, hr.read, hport]
  case lost => simp [execRcRead, hblk, Nat.not_lt.mpr hlo, Nat.not_le.mpr hhi, hword, hr.read]
  case unaligned =>
    refine (heldOr_free hfree _).trans ?_
    have hruns : (!inSlow (blkOf a) && !dieRuns s 0) = false := by rcases hslow with h | h <;> simp [h]
    simp [plainCompleterAbortRead, hup, Nat.not_le.mpr ha, readError, hstop, hruns, hdef, hal, accessBad]
  case outOfPage =>
    refine (heldOr_free (by simp [accHeld, accRegion]) _).trans ?_
    simp [plainCompleterAbortRead, hup, barReadError, hdie, hctrl, hboot, hpage, accessBad]
  case dieDown =>
    refine (heldOr_free (by simp [accHeld, accRegion]) _).trans ?_
    simp [plainCompleterAbortRead, hup, barReadError, hdie]
  case linkDown =>
    refine (heldOr_free (by simp [accHeld, hup]) _).trans ?_
    simp [plainCompleterAbortRead, hup]
  case heldWrite => exact if_pos hheld
  case heldRead => exact if_pos hheld
  case setWrite => exact hr.writes rfl rfl
  case go => exact hr.writes rfl rfl
  case abort => exact hr.writes rfl rfl
  case clear => exact hr.writes rfl rfl
  case ringRead =>
    refine hr.writes rfl ?_
    have hroom : (3 < r || ringRoom (mring s d r) < ((mring s d r).wr + 131072 - v.toNat) % 131072) =
        !decide (r ≤ 3 ∧ ((mring s d r).wr + 131072 - v.toNat) % 131072 ≤ ringRoom (mring s d r)) := by
      rw [Bool.eq_iff_iff]
      simp only [Bool.or_eq_true, decide_eq_true_eq, Bool.not_eq_true', decide_eq_false_iff_not, not_and_or, not_le]
    simp only [hroom, Bool.not_eq_true', decide_eq_false_iff_not, ite_not]

end Sys2Proof.Machine
end

section
/-! The settled statement on the mover's registers. -/

namespace Sys2Proof.Machine

/-- No hand-over waits. -/
theorem handOver_none {s : State} {m : Nat} (hnone : (chan s m).handover = false) : handOver s m = s := by
  simp [handOver, hnone]

/-! ### Register sets (R311, R312) -/

section

variable {s : State} {m o : Nat} (hnone : (chan s m).handover = false)
include hnone

/-- A word that no register set has is ignored. -/
theorem setWrite_reserved (hword : o % 4 ≠ 0 ∨ 0x18 < o) (v : Word) (go : Bool) : setWrite s m o v go = s := by
  simp [setWrite, handOver_none hnone, hword]

section

variable (hal : o % 4 = 0) (hlast : o ≤ 0x18)
include hal hlast

/-- While the channel is IDLE a write reaches the active set, GO starting a transfer. -/
theorem setWrite_idle (hidle : (chan s m).state = 0) (v : Word) (go : Bool) : setWrite s m o v go =
    if go then startXfer (modChan s m fun c => { c with act := setWord c.act o v }) m false
    else modChan s m fun c => { c with act := setWord c.act o v } := by
  have hword : ¬(o % 4 ≠ 0 ∨ 0x18 < o) := by omega
  simp only [setWrite, handOver_none hnone, Bool.or_eq_true, decide_eq_true_eq, if_neg hword, hidle, if_true]

/-- Else it reaches the shadow set, GO arming it. -/
theorem setWrite_shadow (hbusy : (chan s m).state ≠ 0) (harmed : (chan s m).armed = false) (v : Word) (go : Bool) :
    setWrite s m o v go = modChan s m fun c => { c with shd := setWord c.shd o v, armed := go } := by
  have hword : ¬(o % 4 ≠ 0 ∨ 0x18 < o) := by omega
  simp only [setWrite, handOver_none hnone, Bool.or_eq_true, decide_eq_true_eq, if_neg hword, hbusy, harmed, Bool.false_eq_true, if_false]

/-- An armed shadow set is not written. -/
theorem setWrite_armed (hbusy : (chan s m).state ≠ 0) (harmed : (chan s m).armed = true) (v : Word) (go : Bool) :
    setWrite s m o v go = moverEvent s (dieOfMover m) (m % 32) 3 := by
  have hword : ¬(o % 4 ≠ 0 ∨ 0x18 < o) := by omega
  simp only [setWrite, handOver_none hnone, Bool.or_eq_true, decide_eq_true_eq, if_neg hword, hbusy, harmed, if_false, if_true]

end

end

/-- A write of another word, or of CTRL with GO 0, is one without GO. -/
theorem noGo {o : Nat} {v : Word} (h : o ≠ 0x14 ∨ bit v.toNat 0 = false) : (decide (o = 0x14) && bit v.toNat 0) = false := by
  rcases h with h | h <;> simp [h]

/-! ### Starts (R313) -/

section

variable {u : State} {m : Nat}

/-- The transfer of the active set, started by GO. -/
def goStarted (u : State) (m : Nat) : State :=
  modChan u m fun c => { c with
    state := 1, allow := 8 * mBurst c.act, allowAt := coreCycle u
    x := { src := sideInit (chan u m).act false, dst := sideInit (chan u m).act true } }

/-- A start whose ring is disabled ends at once. -/
theorem startXfer_ringOff (hring : ringOn (mring u (dieOfMover m) (mRing (chan u m).act)) = false) : startXfer u m false =
    moverEvent (modChan u m fun c => { c with
      state := 0, lastStatus := 7, handover := true
      x := { src := sideInit (chan u m).act false, dst := sideInit (chan u m).act true, atStart := true } })
      (dieOfMover m) (m % 32) 4 := by
  simp [startXfer, hring]

section

variable (hring : ringOn (mring u (dieOfMover m) (mRing (chan u m).act)) = true)
include hring

/-- A good set with bytes to move runs. -/
theorem startXfer_runs (hcount : (chan u m).act.count ≠ 0) (hgood : startBad u (dieOfMover m) (chan u m).act = none) :
    startXfer u m false = goStarted u m := by
  have hgood : startBad (goStarted u m) (dieOfMover m) (chan u m).act = none := hgood
  simp only [goStarted] at hgood
  simp [startXfer, goStarted, hring, hcount, hgood]

/-- One that fails a start check ends with its status. -/
theorem startXfer_bad {e : Nat} (hbad : startBad u (dieOfMover m) (chan u m).act = some e) : startXfer u m false =
    moverEvent (finish (modChan (goStarted u m) m fun c => { c with x := { c.x with atStart := true } }) m e) (dieOfMover m) (m % 32) 4 := by
  have hbad : startBad (goStarted u m) (dieOfMover m) (chan u m).act = some e := hbad
  simp only [goStarted] at hbad
  simp [startXfer, goStarted, hring, hbad]

end

end

/-! ### Completion rings (R324) -/

section

variable {s : State} {d r o : Nat}

/-- The first channel that uses a ring is the one named. -/
theorem ring_firstUser {c : Nat} (hc : c < 32) (hlo : 1 ≤ (chan s (32 * d + c)).state) (hhi : (chan s (32 * d + c)).state ≤ 3)
    (huse : mRing (chan s (32 * d + c)).act = r)
    (hfirst : ∀ k, k < c → (chan s (32 * d + k)).state = 0 ∨ (chan s (32 * d + k)).state = 4 ∨ mRing (chan s (32 * d + k)).act ≠ r) :
    (List.range 32).find? (fun c =>
      decide (1 ≤ (chan s (32 * d + c)).state) && decide ((chan s (32 * d + c)).state ≤ 3) && mRing (chan s (32 * d + c)).act == r) =
        some c := by
  refine List.find?_range_eq_some.mpr ⟨by simp [hlo, hhi, huse], List.mem_range.mpr hc, fun k hk => ?_⟩
  have := hfirst k hk
  simp only [Bool.not_eq_true', Bool.and_eq_false_iff, decide_eq_false_iff_not, beq_eq_false_iff_ne]
  omega

/-- A word of a ring takes no other offset than those of CR_BASE and of its configuration. -/
theorem ringWord_ok (hring : r ≤ 3) (ho : o = 0 ∨ o = 4 ∨ o = 8) : (3 < r || (o ≠ 0 && o ≠ 4 && o ≠ 8)) = false := by
  rcases ho with rfl | rfl | rfl <;> simpa using hring

/-- A ring that no channel uses takes the word. -/
theorem ringCfgWrite_taken (hr : Reached s (moverBase d + 0x2000 + 0x20 * r + o)) (hring : r ≤ 3) (v : Word)
    (hfree : ∀ c, c < 32 → (chan s (32 * d + c)).state = 0 ∨ (chan s (32 * d + c)).state = 4 ∨ mRing (chan s (32 * d + c)).act ≠ r)
    (ho : o = 0 ∨ o = 4 ∨ o = 8) : exec (.ringCfgWrite d r o v) s = .next (modMring s d r fun x =>
      { x with
        wr := 0, rd := 0, rseq := 0
        baseLo := if o = 0 then v &&& 0xFFFFF000#32 else x.baseLo
        baseHi := if o = 4 then v else x.baseHi
        cfg := if o = 8 then v &&& 0x3FFFF#32 else x.cfg }) := by
  refine hr.writes rfl ?_
  simp only [ringWord_ok hring ho, ring_user hfree, Bool.false_eq_true, if_false]
  rcases ho with rfl | rfl | rfl <;> rfl

end

/-- Settles O46. -/
theorem moverRegistersAreWritten : Obligations.MoverRegistersAreWritten := by
  refine ⟨fun m o v s hr hal hlast hgo hnone hidle => ?active, fun m o v s hr hal hlast hgo hnone hbusy harmed => ?shadow,
    fun m o v s hr hal hlast hnone hbusy harmed => ?armed, fun m v s u hr hnone hidle hu hring hcount hgood => ?runs,
    fun m v s hr hnone hbusy harmed => ?arms, fun m o v s hr hword hnone => ?reserved,
    fun m v s u hr hnone hidle hu hring => ?ringOff, fun m v s u e hr hnone hidle hu hring hbad => ?bad,
    fun m v s hr hnone hbusy harmed => ?goArmed, fun m s hr hnone hrun => ?abort, fun m s hr hnone hrun => ?abortIgnored,
    fun m s hr hnone hhalted => ?clear, fun m s hr hnone hhalted => ?clearIgnored, fun d r v s hr hring hfree => ?baseLo,
    fun d r v s hr hring hfree => ?baseHi, fun d r c o v s hr hring ho hc hlo hhi huse hfirst => ?inUse,
    fun d r o v s hr hword => ?noWord, fun d r v s hr hring hfree => ?cfg, fun d r v s hr hring hfits => ?read,
    fun d r v s hr hbad => ?readIgnored⟩
  case active => exact hr.writes rfl (by simp only [noGo hgo, setWrite_idle hnone hal hlast hidle, Bool.false_eq_true, if_false])
  case shadow => exact hr.writes rfl (by simp only [noGo hgo, setWrite_shadow hnone hal hlast hbusy harmed])
  case armed => exact hr.writes rfl (setWrite_armed hnone hal hlast hbusy harmed _ _)
  case runs =>
    subst hu
    exact hr.writes rfl ((setWrite_idle hnone rfl (by decide) hidle v true).trans (startXfer_runs hring hcount hgood))
  case arms => exact hr.writes rfl (setWrite_shadow hnone rfl (by decide) hbusy harmed v true)
  case reserved => exact hr.writes rfl (setWrite_reserved hnone hword _ _)
  case ringOff =>
    subst hu
    exact hr.writes rfl ((setWrite_idle hnone rfl (by decide) hidle v true).trans (startXfer_ringOff hring))
  case bad =>
    subst hu
    exact hr.writes rfl ((setWrite_idle hnone rfl (by decide) hidle v true).trans (startXfer_bad hring hbad))
  case goArmed => exact hr.writes rfl (setWrite_armed hnone rfl (by decide) hbusy harmed v true)
  case abort =>
    refine hr.writes rfl ?_
    simp only [handOver_none hnone, hrun, ne_eq, not_true_eq_false, if_false]
  case abortIgnored => exact hr.writes rfl (by simp only [handOver_none hnone, if_pos hrun])
  case clear => exact hr.writes rfl (by simp only [handOver_none hnone, hhalted, ne_eq, not_true_eq_false, if_false])
  case clearIgnored => exact hr.writes rfl (by simp only [handOver_none hnone, if_pos hhalted])
  case baseLo => exact ringCfgWrite_taken (o := 0) hr hring v hfree (.inl rfl)
  case baseHi => exact ringCfgWrite_taken hr hring v hfree (.inr (.inl rfl))
  case inUse =>
    refine hr.writes rfl ?_
    simp only [ringWord_ok hring ho, ring_firstUser hc hlo hhi huse hfirst, Bool.false_eq_true, if_false]
  case noWord =>
    have hbad : (3 < r || (o ≠ 0 && o ≠ 4 && o ≠ 8)) = true := by
      rcases hword with h | ⟨h0, h4, h8⟩
      · simp [h]
      · simp [h0, h4, h8]
    exact hr.writes rfl (if_pos hbad)
  case cfg => exact ringCfgWrite_taken hr hring v hfree (.inr (.inr rfl))
  case read => exact hr.writes rfl (if_neg (by simp; omega))
  case readIgnored => exact hr.writes rfl (if_pos (by simpa using hbad))

end Sys2Proof.Machine
end

section
/-! The settled statement on the mover's work. -/

namespace Sys2Proof.Machine

/-! ### Bursts (R314, R315, R317, R320) -/

/-- The position of channel l in the round robin that starts after channel b. -/
def turnOf (b l : Nat) : Nat := (l + 32 - (b + 1) % 32) % 32

theorem turnOf_lt (b l : Nat) : turnOf b l < 32 := Nat.mod_lt _ (by decide)

theorem channel_turnOf {b l : Nat} (hl : l < 32) : (b + 1 + turnOf b l) % 32 = l := by
  unfold turnOf
  omega

theorem channel_ne {b l i : Nat} (hi : i < 32) (hne : i ≠ turnOf b l) : (b + 1 + i) % 32 ≠ l := by
  unfold turnOf at hne
  omega

/-- The only channel with a burst to issue is the one that the round robin finds. -/
theorem ready_one {s : State} {d l : Nat} {b : Nat × Nat} (g : Nat → Nat × Nat → Nat × Nat × Nat × Nat) (hl : l < 32)
    (hburst : nextBurst (chan s (32 * d + l)) = some b) (hone : ∀ k, k < 32 → k ≠ l → nextBurst (chan s (32 * d + k)) = none) (last : Nat) :
    (List.range 32).filterMap (fun i => (nextBurst (chan s (32 * d + (last + 1 + i) % 32))).map (g ((last + 1 + i) % 32))) = [g l b] := by
  rw [range_one _ 32 (turnOf last l) (turnOf_lt last l) fun i hi hne => ?_]
  · rw [channel_turnOf hl, hburst]
    rfl
  · rw [hone _ (Nat.mod_lt _ (by decide)) (channel_ne hi hne)]
    rfl

/-! ### Lists, records and the hand-over (R312, R316, R318, R321) -/

/-- A channel's state bears not on the CORE clock. -/
@[simp] theorem coreCycle_modChan (s : State) (m : Nat) (f : Chan → Chan) : coreCycle (modChan s m f) = coreCycle s := rfl

/-- Settles O47. -/
theorem moverWorks : Obligations.MoverWorks := by
  refine ⟨fun d l a n s u hclk hdie hl hburst hone hfits hu => ?issue, fun m a n t r l b s hflight hclk hdie hup hb hlen => ?complete,
    fun m a n t r l s hflight hclk hdie htry => ?again, fun m a n t r l s hflight hclk hdie htry => ?failed,
    fun m e s hneeds hclk hdie hsp hup hend => ?sourceEntry, fun m e s hneeds hclk hdie hsp hup hend => ?destEntry,
    fun m dst e s hneeds hclk hdie htry => ?fetchFails,
    fun m e s d r hend hstate hnone hclk hdie hd hr hfull hopen hhost h0 h1 => ?record,
    fun m s d r hend hstate hnone hclk hdie hd hr hfull hopen hirq => ?quietRecord,
    fun m e s hend hstate hnone hclk hdie hfull hraised => ?ringFull,
    fun m e s d r hend hstate hnone hclk hdie hd hr hfull hopen => ?spaceShut, fun m s hclk hdie hwait hend => ?aborted,
    fun m e s hclk hdie hwait hend h1 hgood harmed => ?handsOver, fun m e s hclk hdie hwait hend hbad hstart => ?halts,
    fun m s hnone => ?noHandOver⟩
  case issue =>
    subst hu
    have hready := ready_one (fun i b => (max (coreCycle s) (creditCycle (chan s (32 * d + i)) b.2), i, b)) hl hburst hone
      (mdie s d).lastServed
    simp only [exec_moverBurstIssue, execMoverBurstIssue, hclk, hdie, hready, List.foldl_nil, Bool.not_true, Bool.or_self,
      Bool.false_eq_true, if_false]
    exact congrArg _ (if_neg (Nat.not_lt.mpr hfits))
  case complete =>
    subst hb
    simp [execMoverBurstComplete, hflight, hclk, hdie, hup, Nat.not_lt.mpr hlen]
  case again => simp [execMoverBurstComplete, hflight, hclk, hdie, retried, htry]
  case failed => simp [execMoverBurstComplete, hflight, hclk, hdie, retried, Nat.not_lt.mpr htry]
  case sourceEntry =>
    have hin : ¬(spaceSize s (dieOfMover m) 0 < (chan s m).x.src.next + 16) := Nat.not_lt.mpr hend
    simp [execMoverListFetch, hneeds, hclk, hdie, hsp, hup, hin]
  case destEntry =>
    have hin : ¬(spaceSize s (dieOfMover m) 0 < (chan s m).x.dst.next + 16) := Nat.not_lt.mpr hend
    simp [execMoverListFetch, hneeds, hclk, hdie, hsp, hup, hin]
  case fetchFails => simp [execMoverListFetch, hneeds, hclk, hdie, retried, Nat.not_lt.mpr htry]
  case record =>
    subst hd hr
    simp [execMoverRecordWrite, hend, hstate, hnone, hclk, hdie, hfull, hopen, hhost, h0, h1]
  case quietRecord =>
    subst hd hr
    simp [execMoverRecordWrite, hend, hstate, hnone, hclk, hdie, hfull, hopen, hirq]
  case ringFull => simp [execMoverRecordWrite, hend, hstate, hnone, hclk, hdie, hfull, hraised]
  case spaceShut =>
    subst hd hr
    simp [execMoverRecordWrite, hend, hstate, hnone, hclk, hdie, hfull, hopen]
  case aborted => simp [execMoverHandover, hclk, hdie, handOver, hwait, hend]
  case handsOver =>
    have hok : (!(chan s m).x.atStart && (decide (e = 2) || decide (e = 3))) = false := by
      rcases hgood with h | ⟨h2, h3⟩
      · simp [h]
      · simp [h2, h3]
    simp only [exec_moverHandover, execMoverHandover, hclk, hdie, handOver, hwait, hend, Option.getD_some, h1, hok, harmed, coreCycle_modChan,
      Bool.and_self, Bool.not_true, Bool.false_eq_true, if_false, if_true]
  case halts =>
    have h1 : ¬(e = 1) := by omega
    have hfail : (!(chan s m).x.atStart && (decide (e = 2) || decide (e = 3))) = true := by
      rcases hbad with h | h <;> simp [h, hstart]
    simp only [exec_moverHandover, execMoverHandover, hclk, hdie, handOver, hwait, hend, Option.getD_some, h1, hfail, Bool.and_self,
      Bool.not_true, Bool.false_eq_true, if_false, if_true]
  case noHandOver => simp [execMoverHandover, handOver, hnone]

end Sys2Proof.Machine
end
